-- ==== Sys2Proof/Word.lean ====
section
/-! DEFINITION. Words, lane rows and sparse tables: the plain data types every other file is written in. -/

namespace Sys2Proof

/-- A byte of memory (R4). -/
abbrev Byte := BitVec 8
/-- A 32-bit register of one lane (R44). -/
abbrev Word := BitVec 32
/-- A 64-bit register pair of one lane (R44). -/
abbrev DWord := BitVec 64
/-- One bit per lane of a wave (R17): bit L is lane L. -/
abbrev LaneMask := BitVec 32

/-- One 32-bit register of all 32 lanes of a wave (R17), lane 0 first. A lane past the end of the list reads zero. -/
abbrev Row := List Word

/-- The lane numbers of a wave, in increasing order (R10). -/
def laneNums : List Nat := List.range 32

/-- Lane `L` of a row. -/
def Row.lane (r : Row) (L : Nat) : Word := List.getD r L 0

/-- The row whose lane `L` is `f L`. -/
def Row.ofLanes (f : Nat → Word) : Row := laneNums.map f

/-- The row that holds `v` in every lane. -/
def Row.splat (v : Word) : Row := Row.ofLanes fun _ => v

/-- The row of zeros. -/
def Row.zero : Row := Row.splat 0

/-- Lane `L` of a mask. -/
def LaneMask.has (m : LaneMask) (L : Nat) : Bool := m.getLsbD L

/-- The lanes of a mask in increasing order (R10). -/
def LaneMask.lanes (m : LaneMask) : List Nat := laneNums.filter fun L => m.getLsbD L

/-- The mask of the lanes that satisfy `p`. -/
def LaneMask.ofPred (p : Nat → Bool) : LaneMask :=
  laneNums.foldl (fun acc L => if p L then acc ||| ((1 : BitVec 32) <<< L) else acc) 0

/-- The mask of one lane. -/
def LaneMask.single (L : Nat) : LaneMask := (1 : BitVec 32) <<< L

/-- Every lane. -/
def LaneMask.all : LaneMask := BitVec.allOnes 32

/-- `new` in the lanes of `m`, `old` elsewhere. -/
def Row.merge (m : LaneMask) (old new : Row) : Row :=
  Row.ofLanes fun L => if m.getLsbD L then Row.lane new L else Row.lane old L

/-- A sparse table: keys strictly rising; an absent key is the empty entry. -/
abbrev FMap (α : Type) := List (Nat × α)

/-- The entry at key `k`. -/
def FMap.get? {α : Type} : FMap α → Nat → Option α
  | [], _ => none
  | (j, v) :: t, k => if j = k then some v else FMap.get? t k

/-- The entry at key `k`, or `d` when the key is absent. -/
def FMap.getD {α : Type} (m : FMap α) (k : Nat) (d : α) : α := (FMap.get? m k).getD d

/-- The table with `v` at key `k`. -/
def FMap.set {α : Type} : FMap α → Nat → α → FMap α
  | [], k, v => [(k, v)]
  | (j, w) :: t, k, v =>
    if k < j then (k, v) :: (j, w) :: t
    else if j = k then (k, v) :: t
    else (j, w) :: FMap.set t k v

/-- The table without key `k`. -/
def FMap.erase {α : Type} : FMap α → Nat → FMap α
  | [], _ => []
  | (j, w) :: t, k => if j = k then FMap.erase t k else (j, w) :: FMap.erase t k

/-- The keys of a table in rising order. -/
def FMap.keys {α : Type} (m : FMap α) : List Nat := m.map Prod.fst

/-- The values of a table in the order of their keys. -/
def FMap.vals {α : Type} (m : FMap α) : List α := m.map Prod.snd

/-- Little-endian value of a list of bytes (R4). -/
def leNat : List Byte → Nat
  | [] => 0
  | b :: t => b.toNat + 256 * leNat t

/-- The `n` low bytes of `v`, little-endian (R4). -/
def leBytes : Nat → Nat → List Byte
  | 0, _ => []
  | n + 1, v => BitVec.ofNat 8 v :: leBytes n (v / 256)

end Sys2Proof
end

