-- ==== Sys2Proof/Syntax.lean ====
section
/-! DEFINITION. The instruction set and the event set: one constructor per row of spec/opcode_table.json, and the small types of their operands. -/

namespace Sys2Proof

/-- A register field (R74): 0 to 254 name v0 to v254, 255 names `vz`. -/
abbrev Reg := BitVec 8

/-- The fields every predicated form keeps in place (R73, R75). -/
structure Ctl where
  /-- producer distance (R39) -/
  pd : BitVec 3
  /-- 0 none, 1 the header's flag A, 2 flag B (R40) -/
  al : BitVec 2
  /-- consumed flag, 15 none (R40) -/
  cf : BitVec 4
  /-- predicate register, 255 always (R80) -/
  pr : BitVec 8
  /-- predicate bit -/
  pb : BitVec 5
  /-- negated predicate -/
  pn : Bool
  deriving DecidableEq, Repr

/-- The fields form L keeps in place: it has no predicate (R75). -/
structure CtlL where
  pd : BitVec 3
  al : BitVec 2
  cf : BitVec 4
  deriving DecidableEq, Repr

/-- Source B: a register (form A) or the 16-bit immediate (form I), not yet widened (R75 to R77). -/
inductive SrcB where
  | reg (r : Reg)
  | imm (v : BitVec 16)
  deriving DecidableEq, Repr

/-- The operand of GETID, GETENV and ERRRD: register A (form A) or the immediate (form I) (R114, R121). -/
inductive SrcSel where
  | reg (r : Reg)
  | imm (v : BitVec 16)
  deriving DecidableEq, Repr

/-- The source of MOV (R141). -/
inductive MovSrc where
  | reg (a : Reg)
  | pair (a : Reg)
  | imm (v : BitVec 16)
  deriving DecidableEq, Repr

/-- The group a barrier names (R107). -/
inductive BarSel where
  | level (j : BitVec 3)
  | reg (a : Reg)
  | gang
  deriving DecidableEq, Repr

/-- A form-M memory operand (R75): base, index or `vz`, signed offset in access-size units. -/
structure MemRef where
  a : Reg
  b : Reg
  off : BitVec 19
  deriving DecidableEq, Repr

/-- Branch hints (R31). -/
inductive Hint where | none | likely | unlikely | uniform deriving DecidableEq, Repr
/-- Integer types (R123). -/
inductive ITy where | s8 | z8 | s16 | z16 | s32 | z32 deriving DecidableEq, Repr
/-- Rounding modes (R56). -/
inductive RMode where | rn | rz | rd | ru deriving DecidableEq, Repr
/-- Integer comparisons (R138). -/
inductive ICmp where | eq | ne | lt | le | gt | ge deriving DecidableEq, Repr
/-- Float comparisons (R149). -/
inductive FCmp where | eq | ne | lt | le | gt | ge | num | nan deriving DecidableEq, Repr
/-- How a new predicate bit is combined with the old one (R138, R149). -/
inductive Comb where | none | and | or deriving DecidableEq, Repr
/-- SWAIT comparisons (R110). -/
inductive SwCmp where | eq | ne | lts | ges | ltz | gez deriving DecidableEq, Repr
/-- Access sizes of form M (R79). -/
inductive Size where | s8 | z8 | s16 | z16 | b32 | b64 | b128 deriving DecidableEq, Repr
/-- Atomic operations (R180). -/
inductive AtomOp where | add | smin | smax | umin | umax | and | or | xor | xchg | cas | fadd deriving DecidableEq, Repr
/-- Scopes (R179). -/
inductive Scope where | core | gang | die | dev | sys deriving DecidableEq, Repr
/-- SHFL modes (R168). -/
inductive ShflMode where | idx | up | down | xor deriving DecidableEq, Repr
/-- VOTE modes (R170). -/
inductive VoteMode where | bal | all | any | eq deriving DecidableEq, Repr
/-- LRED and LSCAN operations (R171). -/
inductive RedOp where | add | min | max | and | or | xor | fadd | fmin | fmax deriving DecidableEq, Repr
/-- PHASE options (R182). -/
inductive PhaseOpt where | pub | ref | both deriving DecidableEq, Repr
/-- CMAINT operations (R183). -/
inductive MaintOp where | clean | inv | clinv deriving DecidableEq, Repr
/-- CMAINT levels (R183). -/
inductive MaintLevel where | l1 | l2 | sys deriving DecidableEq, Repr
/-- Scratchpad line states (R177, R186). -/
inductive LineState where | empty | full | poison deriving DecidableEq, Repr
/-- Float formats (R53, R162). -/
inductive FFmt where | f64 | f32 | f16 | bf16 | f8e4 | f8e5 deriving DecidableEq, Repr
/-- Integer types of a conversion (R162). -/
inductive IFmt where | s8 | z8 | s16 | z16 | s32 | z32 | s64 | z64 deriving DecidableEq, Repr
/-- B operand of IADD64 and ISUB64 in form A (R127). -/
inductive Ext64 where | pair | bs | bz deriving DecidableEq, Repr
/-- CPYL directions (R225). -/
inductive CopyDir where | gs | sg | gg | ss deriving DecidableEq, Repr
/-- Targets of BSCALE and SCCV (R208, R209). -/
inductive ScaleTgt where | n | e4 | e5 deriving DecidableEq, Repr
/-- RTE actions (R249). -/
inductive RteAct where | rep | skip | kill deriving DecidableEq, Repr
/-- PRSRS actions (R253, R380). -/
inductive ResAct where | replay | poison | kill deriving DecidableEq, Repr
/-- SCRUB targets (R256). -/
inductive ScrubTgt where | sp | acc | mem deriving DecidableEq, Repr
/-- The queues of R213, by number. -/
inductive Queue where | qmx | qcp | qga | qly | qxs | qxr | qtk | qer deriving DecidableEq, Repr
/-- The counter classes of R217. -/
inductive CntClass where | copy | matrix | gleaner | send deriving DecidableEq, Repr

/-- One substituted value of a matrix operation (R203, R205): kind, core index in the set, accumulator row and column,
quarter, and k of the product (or block number for kinds 6 and 7). Which values fail is the environment's. -/
structure MatErr where
  kind : Nat
  core : Nat
  row : Nat
  col : Nat
  kidx : Nat
  deriving DecidableEq, Repr

/-- A write into a resolution window (R379): its offset and its bytes. -/
structure WinWrite where
  offset : Nat
  bytes : List Byte
  deriving DecidableEq, Repr

/-- A fabric access that arrives at an import window (R397): load, masked store or atomic. -/
structure FabricAccess where
  /-- 0 load, 1 masked write, 2 atomic, 3 the check of a SWAIT, 4 SWAKE (R111, R324) -/
  kind : Nat
  src : Nat
  window : Nat
  key : BitVec 64
  offset : Nat
  size : Nat
  data : List Byte
  mask : List Bool
  atomOp : AtomOp
  operand : BitVec 64
  newval : BitVec 64
  ntf : Bool
  /-- the requester's own name for the access, returned with the answer -/
  tag : Nat
  /-- it comes from a protected context of this package, or came through a sealed port: its answer leaves by none that is CLEAR (R290) -/
  prot : Bool
  /-- the context at the requester (R392) -/
  srcCtx : Nat
  /-- the exporter's context, once the access has passed its check (R392, R397); 0 before -/
  dstCtx : Nat
  deriving DecidableEq, Repr

/-- Where a cached sector lies (R282): the L1 of a core, or the L2 of a die. -/
inductive CacheAt where
  | l1 (core : Nat)
  | l2 (die : Nat)
  deriving DecidableEq, Repr

/-- Registers of the host that have no behaviour of their own (R8, R9, R400, R407). -/
inductive HostReg where
  | fqBase | fqSize | fqVec | mbVec
  | mbReq (offset : Nat)
  | mbCmd
  | fqHead | mbSts
  | mbRsp (offset : Nat)
  /-- the state that CXL link 0 or 1 trained to (R399) -/
  | cxlLink (link : Nat)
  /-- an offset of BAR 0 that no region lists (R400) -/
  | unlisted (offset : Nat)
  deriving DecidableEq, Repr

/-- What the peer of a link in training reports (R432): its port controller's version, and whether its manifest admits this package's. -/
structure PeerReport where
  version : Nat
  admits : Bool
  deriving DecidableEq, Repr

/-- Where the host reaches device memory by CXL.mem (R400): the link whose decoders serve it, and the device physical address. -/
structure CxlAddr where
  link : Nat
  addr : Nat
  deriving DecidableEq, Repr

/-- The units that failed a start (R429): the one its boot record names, by its index, and the others with their kinds. -/
structure FailedUnits where
  idx : Nat
  more : List (Nat × Nat)
  deriving DecidableEq, Repr

/-- One step of a re-plan (R434): each die's margins after it, and whether the re-plan ends with it. -/
structure MarginStep where
  margins : List (Nat × Nat × Nat)
  last : Bool
  deriving DecidableEq, Repr

/-- An aperture descriptor (R396). -/
structure Aperture where
  pkg : Nat
  valid : Bool
  win : Nat
  key : BitVec 64
  deriving DecidableEq, Repr

/-- An import-table entry (R397). -/
structure ImportEntry where
  src : Nat
  at_ : Bool
  wr : Bool
  rd : Bool
  v : Bool
  ctx : Nat
  key : BitVec 64
  len : Nat
  base : Nat
  deriving DecidableEq, Repr

/-- A run of the host-run table (R401). -/
structure HostRun where
  db : Nat
  len : Nat
  hb : Nat
  link : Nat
  deriving DecidableEq, Repr

/-- A range of the address-map table (R402). -/
structure PamtRange where
  cmask : BitVec 32
  cbase : Nat
  smask : BitVec 24
  v : Bool
  host : Bool
  gran : Nat
  size : Nat
  base : Nat
  deriving DecidableEq, Repr

/-- The image header of R422 with what the verification of its signature needs. -/
structure Image where
  kind : Nat
  cmdVersion : Nat
  version : Nat
  security : Nat
  body : List Byte
  signature : List Byte
  deriving DecidableEq, Repr

/-- One entry of a compatibility manifest (R423): a unit kind, an image version range, for each other kind the range it
works with, `BOOT`, and `LIVE` with the range of versions it may be entered from. -/
structure ManifestEntry where
  kind : Nat
  lo : Nat
  hi : Nat
  works : List (Nat × Nat × Nat)
  boot : Bool
  live : Bool
  liveLo : Nat
  liveHi : Nat
  deriving DecidableEq, Repr

/-- A compatibility manifest (R423). -/
structure Manifest where
  version : Nat
  /-- security floor of each unit kind 1 to 5 -/
  floors : List Nat
  entries : List ManifestEntry
  /-- activation deadline in ms (R427) -/
  deadline : Nat
  body : List Byte
  signature : List Byte
  deriving DecidableEq, Repr

/-- The instructions and events of the D24, one constructor per row of the opcode table, in its order. -/
inductive Instr where
  -- the clause header and control (spec/05)
  | hdr (n : BitVec 4) (pipes : BitVec 3) (wait : BitVec 12) (setA setB : BitVec 4)
  | nop (c : Ctl)
  | bra (c : Ctl) (hint : Hint) (off : BitVec 16)
  | jmp (c : CtlL) (off : BitVec 32)
  | jmpi (c : Ctl) (a : Reg)
  | call (c : CtlL) (d : Reg) (off : BitVec 32)
  | calli (c : Ctl) (d a : Reg)
  | ret (c : Ctl) (a : Reg)
  | exit (c : Ctl)
  | waitf (c : Ctl) (mask : BitVec 12)
  | yieldI (c : Ctl)
  | bar (c : Ctl) (sel : BarSel)
  | bara (c : Ctl) (sel : BarSel)
  | barw (c : Ctl) (sel : BarSel)
  | swait (c : Ctl) (cmp : SwCmp) (dbl : Bool) (d : Reg) (m : MemRef)
  | swake (c : Ctl) (m : MemRef)
  | cvset (c : Ctl) (cv : BitVec 4) (a : Reg)
  | cvsign (c : Ctl) (cv : BitVec 4)
  | getid (c : Ctl) (w : Bool) (d : Reg) (s : SrcSel)
  | getenv (c : Ctl) (w : Bool) (d : Reg) (s : SrcSel)
  | claim (c : Ctl) (d : Reg)
  | tret (c : Ctl) (abn : Bool) (a : Reg)
  | schrd (c : Ctl) (sh : Bool) (d : Reg) (n : BitVec 4)
  | schwr (c : Ctl) (n : BitVec 4) (a : Reg)
  | schcm (c : Ctl) (d : Reg)
  | spawn (c : Ctl) (d a b : Reg)
  | brk (c : Ctl) (imm : BitVec 16)
  | trap (c : Ctl) (imm : BitVec 16)
  | errrd (c : Ctl) (d : Reg) (s : SrcSel)
  -- integer and logic (spec/06)
  | iadd (c : Ctl) (t : ITy) (d a : Reg) (b : SrcB)
  | isub (c : Ctl) (t : ITy) (d a : Reg) (b : SrcB)
  | isum (c : Ctl) (t : ITy) (d a : Reg) (b : SrcB) (r : Reg)
  | iadds (c : Ctl) (sub : Bool) (t : ITy) (d a : Reg) (b : SrcB)
  | imul (c : Ctl) (t : ITy) (d a : Reg) (b : SrcB)
  | imulh (c : Ctl) (t : ITy) (d a : Reg) (b : SrcB)
  | imad (c : Ctl) (t : ITy) (d a : Reg) (b : SrcB) (r : Reg)
  | imadw (c : Ctl) (t : ITy) (d a : Reg) (b : SrcB) (r : Reg)
  | iadd64 (c : Ctl) (x : Ext64) (d a : Reg) (b : SrcB)
  | isub64 (c : Ctl) (x : Ext64) (d a : Reg) (b : SrcB)
  | imin (c : Ctl) (t : ITy) (d a : Reg) (b : SrcB)
  | imax (c : Ctl) (t : ITy) (d a : Reg) (b : SrcB)
  | iabs (c : Ctl) (sat : Bool) (t : ITy) (d a : Reg)
  | ineg (c : Ctl) (sat : Bool) (t : ITy) (d a : Reg)
  | idiv (c : Ctl) (t : ITy) (d a : Reg) (b : SrcB)
  | irem (c : Ctl) (t : ITy) (d a : Reg) (b : SrcB)
  | and (c : Ctl) (d a : Reg) (b : SrcB)
  | or (c : Ctl) (d a : Reg) (b : SrcB)
  | xor (c : Ctl) (d a : Reg) (b : SrcB)
  | andn (c : Ctl) (d a : Reg) (b : SrcB)
  | blut (c : Ctl) (lut : BitVec 8) (d a b r : Reg)
  | shl (c : Ctl) (d a : Reg) (b : SrcB)
  | shr (c : Ctl) (d a : Reg) (b : SrcB)
  | sar (c : Ctl) (d a : Reg) (b : SrcB)
  | rot (c : Ctl) (right : Bool) (d a : Reg) (b : SrcB)
  | fshf (c : Ctl) (left : Bool) (d a : Reg) (b : SrcB) (r : Reg)
  | bfx (c : Ctl) (signed : Bool) (d a : Reg) (b : SrcB)
  | bfi (c : Ctl) (d a : Reg) (b : SrcB) (r : Reg)
  | popc (c : Ctl) (d a : Reg)
  | clz (c : Ctl) (d a : Reg)
  | ctz (c : Ctl) (d a : Reg)
  | brev (c : Ctl) (d a : Reg)
  | icmp (c : Ctl) (t : ITy) (cmp : ICmp) (comb : Comb) (bit : BitVec 5) (d a : Reg) (b : SrcB)
  | sel (c : Ctl) (bit : BitVec 5) (d a : Reg) (b : SrcB) (r : Reg)
  | lea (c : Ctl) (x3 z : Bool) (s : BitVec 3) (d a : Reg) (b : SrcB)
  | mov (c : Ctl) (d : Reg) (s : MovSrc)
  | movi (c : CtlL) (d : Reg) (imm : BitVec 32)
  | pset (c : Ctl) (z : Bool) (comb : Comb) (bit : BitVec 5) (d a : Reg) (b : SrcB)
  | bmsk (c : Ctl) (d a : Reg) (b : SrcB)
  -- floating point and conversion (spec/07)
  | fadd (c : Ctl) (m : RMode) (d a : Reg) (b : SrcB)
  | fsub (c : Ctl) (m : RMode) (d a : Reg) (b : SrcB)
  | fmul (c : Ctl) (m : RMode) (d a : Reg) (b : SrcB)
  | ffma (c : Ctl) (m : RMode) (d a : Reg) (b : SrcB) (r : Reg)
  | fmin (c : Ctl) (d a : Reg) (b : SrcB)
  | fmax (c : Ctl) (d a : Reg) (b : SrcB)
  | fcmp (c : Ctl) (cmp : FCmp) (comb : Comb) (bit : BitVec 5) (d a : Reg) (b : SrcB)
  | fclass (c : Ctl) (comb : Comb) (bit : BitVec 5) (d a : Reg) (b : SrcB)
  | frnd (c : Ctl) (m : RMode) (d a : Reg) (b : SrcB)
  | fscalb (c : Ctl) (m : RMode) (d a : Reg) (b : SrcB)
  | fclamp (c : Ctl) (d a : Reg) (b : SrcB) (r : Reg)
  | frcp (c : Ctl) (m : RMode) (d a : Reg)
  | frsq (c : Ctl) (m : RMode) (d a : Reg)
  | fsqrt (c : Ctl) (m : RMode) (d a : Reg)
  | fdiv (c : Ctl) (m : RMode) (d a b : Reg)
  | fex2 (c : Ctl) (d a : Reg)
  | flg2 (c : Ctl) (d a : Reg)
  | fsin (c : Ctl) (d a : Reg)
  | fcos (c : Ctl) (d a : Reg)
  | ftanh (c : Ctl) (d a : Reg)
  | fsigm (c : Ctl) (d a : Reg)
  | hadd2 (c : Ctl) (bf : Bool) (m : RMode) (d a b : Reg)
  | hmul2 (c : Ctl) (bf : Bool) (m : RMode) (d a b : Reg)
  | hfma2 (c : Ctl) (bf : Bool) (m : RMode) (d a b r : Reg)
  | hmnmx2 (c : Ctl) (max bf : Bool) (d a b : Reg)
  | hcmp2 (c : Ctl) (bf : Bool) (cmp : FCmp) (comb : Comb) (bit : BitVec 5) (d a b : Reg)
  | dadd (c : Ctl) (m : RMode) (d a b : Reg)
  | dmul (c : Ctl) (m : RMode) (d a b : Reg)
  | dfma (c : Ctl) (m : RMode) (d a b r : Reg)
  | dmnmx (c : Ctl) (max : Bool) (d a b : Reg)
  | dcmp (c : Ctl) (cmp : FCmp) (comb : Comb) (bit : BitVec 5) (d a b : Reg)
  | drnd (c : Ctl) (m : RMode) (d a : Reg)
  | fcvt (c : Ctl) (dst src : FFmt) (sat : Bool) (m : RMode) (dsel ssel : BitVec 2) (d a : Reg)
  | f2i (c : Ctl) (it : IFmt) (ft : FFmt) (m : RMode) (ssel : BitVec 2) (d a : Reg)
  | i2f (c : Ctl) (ft : FFmt) (it : IFmt) (sat : Bool) (m : RMode) (dsel : BitVec 2) (d a : Reg)
  | dot2 (c : Ctl) (bf : Bool) (m : RMode) (d a b r : Reg)
  | dot4 (c : Ctl) (ae5 be5 : Bool) (m : RMode) (d a b r : Reg)
  -- lanes and memory (spec/08)
  | shfl (c : Ctl) (mode : ShflMode) (w : BitVec 3) (d a : Reg) (b : SrcB)
  | vote (c : Ctl) (mode : VoteMode) (bit : BitVec 5) (d a : Reg)
  | bcast (c : Ctl) (w : Bool) (d a : Reg) (b : SrcB)
  | lred (c : Ctl) (op : RedOp) (s : Bool) (m : RMode) (d a : Reg)
  | lscan (c : Ctl) (op : RedOp) (exc s : Bool) (m : RMode) (d a : Reg)
  | matchL (c : Ctl) (dbl : Bool) (d a : Reg)
  | actm (c : Ctl) (d : Reg)
  | ldg (c : Ctl) (size : Size) (na : Bool) (d : Reg) (m : MemRef)
  | stg (c : Ctl) (size : Size) (d : Reg) (m : MemRef)
  | lds (c : Ctl) (size : Size) (d : Reg) (m : MemRef)
  | sts (c : Ctl) (size : Size) (d : Reg) (m : MemRef)
  | ldr (c : Ctl) (size : Size) (d : Reg) (m : MemRef)
  | str (c : Ctl) (size : Size) (d : Reg) (m : MemRef)
  | atomg (c : Ctl) (op : AtomOp) (dbl : Bool) (scope : Scope) (ntf : Bool) (d a b n : Reg)
  | redg (c : Ctl) (op : AtomOp) (dbl : Bool) (scope : Scope) (ntf : Bool) (a b : Reg)
  | atoms (c : Ctl) (op : AtomOp) (dbl : Bool) (d a b n : Reg)
  | phase (c : Ctl) (opt : PhaseOpt) (scope : Scope)
  | cmaint (c : Ctl) (op : MaintOp) (lvl : MaintLevel) (a b : Reg)
  | pref (c : Ctl) (l2 : Bool) (m : MemRef)
  | waycfg (c : Ctl) (d : Reg) (b : SrcB)
  | spmark (c : Ctl) (st : LineState) (a : Reg) (b : SrcB)
  | sptest (c : Ctl) (d : Reg) (b : SrcB)
  | accld (c : Ctl) (a b r : Reg)
  | accst (c : Ctl) (a b r : Reg)
  | accz (c : Ctl) (a : Reg)
  | acccp (c : Ctl) (a b : Reg)
  | acccv (c : Ctl) (fmt : FFmt) (sat : Bool) (m : RMode) (a b r : Reg)
  -- matrix and narrow numbers (spec/09)
  | mmaf (c : Ctl) (cv : BitVec 4) (a b : Reg)
  | mmab (c : Ctl) (cv : BitVec 4) (a b : Reg)
  | mmah (c : Ctl) (cv : BitVec 4) (a b : Reg)
  | mmae4 (c : Ctl) (sc : Bool) (cv : BitVec 4) (ba bb : BitVec 2) (a b r d : Reg)
  | mmae5 (c : Ctl) (sc : Bool) (cv : BitVec 4) (ba bb : BitVec 2) (a b r d : Reg)
  | mman (c : Ctl) (ka kb : BitVec 3) (cv : BitVec 4) (ba bb : BitVec 2) (a b r d : Reg)
  | merr (c : Ctl) (d : Reg)
  | plpack (c : Ctl) (p : BitVec 3) (d a : Reg)
  | plunpk (c : Ctl) (k : BitVec 3) (val : Bool) (d a : Reg) (stride : BitVec 8) (chunk : BitVec 3)
  | bscale (c : Ctl) (tgt : ScaleTgt) (d a : Reg)
  | sccv (c : Ctl) (tgt : ScaleTgt) (sat : Bool) (m : RMode) (dby sby : BitVec 2) (d a b : Reg)
  | mred (c : Ctl) (bf init : Bool) (d a b r : Reg)
  | mrsc (c : Ctl) (bf : Bool) (a b r : Reg)
  -- engines and queues (spec/10)
  | qpush (c : Ctl) (q : Queue) (a : Reg)
  | qpop (c : Ctl) (d : Reg) (q : Queue)
  | qtry (c : Ctl) (d : Reg) (q : Queue)
  | qlvl (c : Ctl) (d : Reg) (q : Queue)
  | cpyt (c : Ctl) (st : Bool) (a b r d : Reg)
  | cpyl (c : Ctl) (dir : CopyDir) (a b r d : Reg)
  | cpyh (c : Ctl) (put : Bool) (a b r : Reg)
  | gath (c : Ctl) (l2 : Bool) (a b : Reg)
  | scat (c : Ctl) (a b : Reg)
  | layx (c : Ctl) (a b : Reg)
  | waitc (c : Ctl) (cls : CntClass) (n : BitVec 6)
  | send (c : Ctl) (g : Bool) (a b : Reg)
  | sendl (c : Ctl) (g : Bool) (a b : Reg)
  | postr (c : Ctl) (d a : Reg)
  | canrv (c : Ctl) (d a : Reg)
  | probe (c : Ctl) (d a : Reg)
  -- system and privileged (spec/11)
  | mfsr (c : Ctl) (w : Bool) (d : Reg) (num : BitVec 16)
  | mtsr (c : Ctl) (w : Bool) (num : BitVec 16) (a : Reg)
  | rte (c : Ctl) (act : RteAct) (d a : Reg)
  | ctxsv (c : Ctl) (d a b : Reg)
  | ctxld (c : Ctl) (d a b : Reg)
  | tinv (c : Ctl) (d a : Reg)
  | prsrs (c : Ctl) (act : ResAct) (d a : Reg)
  | halt (c : Ctl) (d a : Reg)
  | idle (c : Ctl) (d : Reg)
  | fwsig (c : Ctl) (d a : Reg)
  | keyld (c : Ctl) (d a b : Reg)
  | tckt (c : Ctl) (clr : Bool) (d a b : Reg)
  | scrub (c : Ctl) (tgt : ScrubTgt) (d a b : Reg)
  | dbgrd (c : Ctl) (d a b : Reg)
  | dbgwr (c : Ctl) (d a b r : Reg)
  -- events of the device, in the table's order (spec/95): what names the entry the event acts on
  | variableResultReturn (op : Nat)
  | engineOperandRelease (cmd : Nat)
  | matrixOperandRead (mop core q : Nat)
  | matrixComplete (mop : Nat) (errs : List MatErr)
  | waycfgComplete (op : Nat)
  | engineTake (cmd : Nat)
  | engineComplete (cmd : Nat)
  | mergeTableFullRetry (die : Nat)
  | faultRecordWrite (die : Nat)
  | overflowMoveIn (die : Nat)
  | ingressHeldEnterRing (die : Nat)
  | resolveReplay (fn die : Nat) (w : WinWrite)
  | resolvePoison (fn die : Nat) (w : WinWrite)
  | resolveKill (fn die : Nat) (w : WinWrite)
  | resolutionDiscard (fn die : Nat) (w : WinWrite)
  | faultQueueTailWrite (fn die : Nat) (w : WinWrite)
  | requesterReplay (die entry : Nat)
  | sealedPageImport (die req : Nat)
  | swaitTableFullRecheck (die wave lane : Nat)
  | swappedRecheck (wg wave lane : Nat)
  | swapOut (node : Nat)
  | swapRestore (node die : Nat) (cores : List (List Nat))
  | doorbellWrite (fn ctx q : Nat) (count : BitVec 64)
  | commandTake (ctx q : Nat)
  | semaphoreRecheck (node : Nat)
  | nodeEligible (node : Nat)
  | dispatch
  | workgroupPlace (node die : Nat) (cores : List (List Nat))
  | threadStart (gang : Nat)
  | workgroupRetire (wg : Nat)
  | preemptVictim (node : Nat)
  | graceExpiry (node : Nat)
  | preclaimRefill (die node : Nat)
  | headerArrival (msg : Nat)
  | headerAccept (msg : Nat)
  | headerRefuse (msg : Nat)
  | headerRetry (msg : Nat)
  | payloadBlockArrival (msg block : Nat)
  | endMarkerArrival (msg : Nat)
  | endAcknowledgement (msg : Nat)
  | receiveCompletionRelease (wave : Nat)
  | wcbDrain (core idx : Nat)
  | fabricAccessArrival (acc : FabricAccess)
  | flitReceive (port : Nat) (flit : List Byte)
  | nackReceive (port cls seq : Nat)
  | replayTimeout (port cls : Nat)
  | ackInterval (port cls : Nat)
  | portFail (port cause : Nat)
  | linkTraining (port : Nat) (trained : Bool) (peer : Nat) (report : PeerReport) (share sig : List Byte)
  | keyEpochSwitch (die kind slot : Nat)
  | eviction (at_ : CacheAt) (sector : Nat)
  | hostCxlAccess (write : Bool) (target : CxlAddr) (data : List Byte)
  | trbTailWrite (die : Nat) (v : BitVec 32)
  | evpendWrite (die : Nat) (v : BitVec 32)
  | timerExpiry (die : Nat)
  | registerWrite (fn : Nat) (r : HostReg) (v : BitVec 64)
  | ident (fn : Nat)
  | attest (fn : Nat) (nonce : List Byte) (addr : Nat)
  | ctxcrt (fn : Nat)
  | ctxend (fn ctx : Nat)
  | asidrt (fn vmid asid : Nat)
  | s2root (fn vmid root : Nat)
  | pageout (fn ctx va addr : Nat)
  | partset (fn : Nat) (parts : List (List Nat))
  | hrun (fn : Nat) (runs : List HostRun)
  | pamtld (fn : Nat) (ranges : List PamtRange)
  | apert (fn ctx idx : Nat) (desc : Aperture)
  | exportWin (fn win : Nat) (entry : ImportEntry)
  | revoke (fn win : Nat)
  | sopen (fn : Nat) (ctxs : List Nat) (hbt grc : Option Nat) (verifierKey : List Byte)
  | sbeat (fn : Nat) (counter : BitVec 64) (tag : List Byte)
  | sresume (fn : Nat) (counter : BitVec 64) (tag : List Byte)
  | sclose (fn : Nat)
  | stage (fn kind idx : Nat) (img : Image)
  | activateLive (fn kind idx : Nat)
  | activateNextReset (fn kind idx : Nat)
  | manifest (fn : Nat) (m : Manifest)
  | floor (fn : Nat)
  | sreg (fn die : Nat) (write : Bool) (num : Nat) (value : BitVec 64)
  | lossdrop (fn : Nat) (value : BitVec 128)
  | telem (fn : Nat)
  | hrtset (fn : Nat) (stack : Option Nat) (value : Nat)
  | mailboxUnknownCommand (fn : Nat)
  | activationWatchdog
  | heartbeatExpiry (session : Nat)
  | sessionGraceEnd (session : Nat)
  | start (cold : Bool)
  | startFail (reason kind : Nat) (failed : FailedUnits)
  | thermalThrottle (die : Nat)
  | thermalShutdown (chiplet : Nat)
  | droopDetect (die : Nat)
  | droopRecover (die : Nat)
  | marginReplan (plan : MarginStep)
  | hotRowThrottle (stack row : Nat)
  | targetedRefresh (stack row : Nat)
  | throttleInterval (stack row : Nat)
  | phaseComplete (op : Nat)
  | cmaintComplete (op : Nat)
  | accumulatorComplete (op : Nat)
  | cxlCacheSnoop (die sector : Nat) (update : Option (List Byte))
  | startSucceeds
  | imageReportsReady
  | thermalThrottleEnd (die : Nat)
  | powerShareReached (die : Nat)
  deriving DecidableEq, Repr

end Sys2Proof
end

