-- ==== Sys2Proof/Config.lean ====
section
/-! DEFINITION. What the spec leaves to the implementation or to the environment: opaque constants with no body, so that no proof can see a value of them, and the fixed sizes of the package (R12 to R24). -/

namespace Sys2Proof.Config

/-! ### Fixed sizes -/

/-- Compute dies (R12). -/
def dies : Nat := 24
/-- Cores of a die (R15). -/
def coresPerDie : Nat := 48
/-- The firmware core of a die (R15). -/
def firmwareCore : Nat := 47
/-- Waves a quarter holds (R17, R29). -/
def slotsPerQuarter : Nat := 16
/-- Contexts of a package (R342). -/
def contexts : Nat := 1024
/-- Entries of a merge table (R372). -/
def mergeEntries : Nat := 1024
/-- Entries of a wait table (R22). -/
def waitEntries : Nat := 4096
/-- Nodes of the ready pool (R23, R354). -/
def poolNodes : Nat := 4096

/-! ### Free values -/

/-- A value the spec does not state, fresh for each tick of the model's counter. -/
opaque freeWord : Nat → BitVec 64
/-- A result the spec does not state, as a function of which result it is and of its operand bits. -/
opaque freeOf : Nat → Nat → BitVec 64
/-- The clk that pass on a die during a step (R7, R22): the spec gives no rate for the model's steps. -/
opaque clkAdvance : (tick die : Nat) → Nat
/-- The placement of a wave or of a queue-less choice the spec leaves to the device. -/
opaque freeChoice : Nat → Nat

/-- The MSI-X vector of the hypervisor's function for a cellar overflow (R378): the spec gives it no number. -/
opaque overflowVector : Nat

/-! ### Correctly rounded transcendental results too close to a rounding boundary to be decided by the model's own evaluation (R155) -/

/-- The correctly rounded FP32 result of an SFU function (by its opcode) on an operand, where the model's interval evaluation does not decide it. -/
opaque sfuRound : (op : Nat) → BitVec 32 → BitVec 32

/-! ### Cryptography (R257, R394, R412 to R422): the spec names the algorithms and states no value of them -/

/-- SHAKE256 with a 512-bit output (R257, R417). -/
opaque shake256 : List Byte → List Byte
/-- ML-DSA-65 verification of a signature over a digest with a key (R257, R414, R422). -/
opaque mldsaVerify : (key digest sig : List Byte) → Bool
/-- ML-DSA-65 signature under the device identity key (R417): 3309 bytes. -/
opaque mldsaSign : (digest : List Byte) → List Byte
/-- RFC 3394 key unwrap under a die's wrapping key (R412). -/
opaque keyUnwrap : (die : Nat) → (wrapped : List Byte) → Option (List Byte)
/-- RFC 3394 key wrap under a die's wrapping key (R412): 40 bytes. -/
opaque keyWrap : (die : Nat) → (key : List Byte) → List Byte
/-- Whether a die has a slot for gang frame keys (R255): the spec does not say how many there are. -/
opaque frameKeySlot : (die slot : Nat) → Bool
/-- AES-256-GCM sealing (R394, R415): key; nonce, where the spec gives one, and authenticated data; plain text. Cipher text and 16-byte tag. -/
opaque gcmSeal : (key aad plain : List Byte) → List Byte × List Byte
/-- AES-256-GCM opening: `none` when the tag does not verify (R394, R415). -/
opaque gcmOpen : (key aad cipher tag : List Byte) → Option (List Byte)
/-- The n-th key of the key generator of a boot (R412). -/
opaque keygen : (boot n : Nat) → List Byte
/-- What the key generator of a boot draws for its n-th ticket (R410); `freshTicket` sees to it that a ticket is neither 0 nor one that has been given. -/
opaque ticket : (boot n : Nat) → BitVec 64
/-- Where a die finds the wrapped key of a link or memory interface: (die · 2 + kind) · 64 + slot ↦ the physical address in firmware-pinned memory,
which no rule gives (R255, R412; log 113). -/
opaque wrapAddr : (wrap : Nat) → Nat
/-- The context whose gangs' frames a frame-key slot of a die seals: the firmware's choice, which no rule gives (R251, R421; log 121). -/
opaque frameSlotCtx : (die slot : Nat) → Nat
/-- The bytes of a manifest that say its version, floors, entries and deadline (R423, R427): the form is not stated. -/
opaque manifestBytes : (version : Nat) → (floors : List Nat) → List ManifestEntry → (deadline : Nat) → List Byte
/-- The sections of a hand-over record between two versions of a unit kind, of what the unit owns (R426): the formats are fixed per pair of
versions, and no rule gives them. -/
opaque handSections : (kind fromV toV : Nat) → (facts : List Nat) → List Byte
/-- What a CXL link trains to at a start (R399): free numbers for its speed and its width. -/
opaque cxlTrain : (tick link : Nat) → Nat × Nat
/-- The most that a die's voltage may be raised, in mV (R434). -/
opaque offsetLimit : (die : Nat) → Nat
/-- Soft errors, corrected (0x0015) or not (0x0016), that a die has met since they were last looked at, beside those that a step performs (R435). -/
opaque softErrors : (tick id die : Nat) → Nat
/-- The session key agreed with the verifier through ML-KEM-768 (R419). -/
opaque sessionKey : (verifier : List Byte) → List Byte
/-- The tag of a heartbeat or resume under a session key (R419, R421). -/
opaque sessionTag : (key : List Byte) → (counter : BitVec 64) → List Byte
/-- The device certificate chain and the certificates of the other chiplets (R416). -/
opaque certChain : List Byte
/-- Whether the certificate of a chiplet verifies at a boot (R416, R431). -/
opaque certOk : (chiplet : Nat) → Bool
/-- The verifying key in a key slot of FWSIG (R257); `none` for an empty slot. -/
opaque verifyKey : (slot : Nat) → Option (List Byte)
/-- Flidun's image-signing key (R422). -/
opaque imageKey : List Byte
/-- The image version of the ROM image of a kind: the base version (R406). -/
opaque romVersion : (kind : Nat) → Nat
/-- Flidun's manifest-signing key (R423). -/
opaque manifestKey : List Byte

/-! ### Contents the spec fixes only by name -/

/-- The fields of a message header carried in `PAY` (R392): tag, length, lossy, message number. -/
opaque headerOfPay : List Byte → BitVec 32 × Nat × Bool × Nat
/-- The message number and block index of a payload block or marker flit (R330, R392). -/
opaque blockOfPay : List Byte → Nat × Nat
/-- The access a fabric request flit asks for besides its `ADDR` and `ROUTE` fields (R392): size, atomic operation, operand, new value, notify, key. -/
opaque requestOfPay : List Byte → Nat × BitVec 4 × BitVec 64 × BitVec 64 × Bool × BitVec 64
/-- `PAY` of a control flit that the device sends (R392): kind and the numbers it carries. -/
opaque payOf : (kind : Nat) → List Nat → List Byte
/-- The key that a masked-write flit presents (R392, R397): its 192 bytes of data leave no place that the spec names for it. -/
opaque writeKey : List Byte → BitVec 64
/-- The key that two port controllers agree on at a training (R414), from the port and the peer's share. -/
opaque portKey : (port : Nat) → (share : List Byte) → List Byte
/-- The identity key under which the platform manifest knows a package (R414). -/
opaque peerKey : (pkg : Nat) → List Byte
/-- What the rows and columns of the butterfly are beyond 1 (R388). -/
opaque fabricSize : Nat × Nat
/-- Rows and columns of the butterfly, each between 1 and 13 (R388). -/
def fabricShape : Nat × Nat := (1 + fabricSize.1 % 13, 1 + fabricSize.2 % 13)
/-- The 12-byte nonce of a port's flit in one direction (R394), from the flit counter: which end's port number stands in it, and how a direction is
coded, is not stated. -/
opaque portNonce : (port : Nat) → (sending : Bool) → (counter : BitVec 64) → List Byte
/-- The policy of a port at a boot (R394): SEAL. -/
opaque portSeal : (boot port : Nat) → Bool
/-- The hash by which a flow is bound to one of its ports (R389). -/
opaque flowHash : (flow : Nat) → Nat
/-- A byte of an overflow record (R377): its format is not defined for software. -/
opaque overflowByte : (record byte : Nat) → Byte
/-- The bytes of a saved frame in memory (R362): only the D24 writes and reads its blocks. -/
opaque frameBytes : (frame : Nat) → List Byte
/-- Where the firmware of a die starts (R239, R405): a clause address that the spec does not state. -/
opaque firmwareEntry : (die : Nat) → BitVec 52
/-- A line of the firmware's code as a fetch reads it where no memory backs the address (R239, R405): the spec does not say where it lies. -/
opaque firmwareLine : (tick pa : Nat) → List Byte
/-- Activations of a row that the model's own count leaves out (R404): the spec does not say which accesses find a row closed. -/
opaque rowActs : (tick stack row : Nat) → Nat
/-- The code bytes of the ROM image of a unit (R406). -/
opaque romImage : (kind : Nat) → List Byte
/-- Whether a manifest-named CLEAR port is chassis-internal (R394). -/
opaque clearPort : (port : Nat) → Bool
/-- Bytes 144–147 of a report (R417), from the floors of the five kinds: the spec does not say which of them it shows. -/
opaque reportFloor : List Nat → Nat
/-- Which of IOD0's units the entry of IOD0 in a report shows (R405, R417): the spec does not say. -/
opaque reportIod0 : Nat
/-- The margins that the re-planning of a start finds for a die (R434): slack in ps, offset in mV, cap in steps of 25 MHz below nominal. -/
opaque startMargin : (tick die : Nat) → Nat × Nat × Nat
/-- Telemetry gauges: die power in mW and hottest junction in m°C (R435). -/
opaque powerGauge : (tick die : Nat) → Nat × Nat

end Sys2Proof.Config
end

