-- ==== Sys2Proof/Decode.lean ====
section
/-! DEFINITION. The 80-bit instruction word (R73 to R87): its fields, the codes of its operands, a decoder that rejects by name, and after it an encoder written from the same tables. -/

namespace Sys2Proof

/-- Why an 80-bit pattern is no instruction (R85). -/
inductive DecodeError where
  /-- an `OP` value that R86 marks reserved -/
  | reservedOpcode
  /-- a form the opcode does not allow (R76) -/
  | formNotAllowed
  /-- a `MOD` value, a code or a select that the entry does not list -/
  | reservedCode
  /-- an unused register field, `MOD` bit or `X` bit that is not zero (R74) -/
  | unusedNonzero
  /-- `AL` = 3, or `AL` ≠ 0 where R100, R124 or R144 forbids it -/
  | badAllocation
  /-- `CF` 12 to 14 (R73) -/
  | badConsume
  /-- predicate fields that break R80 -/
  | badPredicate
  /-- an odd first register of a pair, or the first register of a group that is not a multiple of its size (R44, R85) -/
  | misalignedGroup
  /-- header bits 44 to 0 not zero, or `SETA` or `SETB` 12 to 14 (R81, R85) -/
  | badHeader
  deriving DecidableEq, Repr

/-- The fields of R73, unread. -/
structure Raw where
  op : BitVec 8
  mod : BitVec 6
  pd : BitVec 3
  al : BitVec 2
  cf : BitVec 4
  d : Reg
  a : Reg
  b : Reg
  c : Reg
  pr : BitVec 8
  pb : BitVec 5
  pn : BitVec 1
  x : BitVec 11
  deriving DecidableEq, Repr

/-- The fields of a word (R73). -/
def Raw.ofWord (w : BitVec 80) : Raw where
  op := w.extractLsb' 72 8
  mod := w.extractLsb' 66 6
  pd := w.extractLsb' 63 3
  al := w.extractLsb' 61 2
  cf := w.extractLsb' 57 4
  d := w.extractLsb' 49 8
  a := w.extractLsb' 41 8
  b := w.extractLsb' 33 8
  c := w.extractLsb' 25 8
  pr := w.extractLsb' 17 8
  pb := w.extractLsb' 12 5
  pn := w.extractLsb' 11 1
  x := w.extractLsb' 0 11

/-- The word of the fields (R73). -/
def Raw.word (r : Raw) : BitVec 80 :=
  r.op ++ r.mod ++ r.pd ++ r.al ++ r.cf ++ r.d ++ r.a ++ r.b ++ r.c ++ r.pr ++ r.pb ++ r.pn ++ r.x

/-! ### Operand codes -/

/-- R31. -/
def Hint.code : Hint → BitVec 2 | .none => 0 | .likely => 1 | .unlikely => 2 | .uniform => 3
/-- R31. -/
def Hint.ofCode (v : BitVec 2) : Hint :=
  match v.toNat with | 0 => .none | 1 => .likely | 2 => .unlikely | _ => .uniform
/-- R123. -/
def ITy.code : ITy → BitVec 3 | .s8 => 0 | .z8 => 1 | .s16 => 2 | .z16 => 3 | .s32 => 4 | .z32 => 5
/-- R123: codes 6 and 7 are reserved. -/
def ITy.ofCode (v : BitVec 3) : Option ITy :=
  match v.toNat with
  | 0 => some .s8 | 1 => some .z8 | 2 => some .s16 | 3 => some .z16 | 4 => some .s32 | 5 => some .z32 | _ => none
/-- R56. -/
def RMode.code : RMode → BitVec 2 | .rn => 0 | .rz => 1 | .rd => 2 | .ru => 3
/-- R56. -/
def RMode.ofCode (v : BitVec 2) : RMode :=
  match v.toNat with | 0 => .rn | 1 => .rz | 2 => .rd | _ => .ru
/-- R138. -/
def ICmp.code : ICmp → BitVec 3 | .eq => 0 | .ne => 1 | .lt => 2 | .le => 3 | .gt => 4 | .ge => 5
/-- R138: codes 6 and 7 are reserved. -/
def ICmp.ofCode (v : BitVec 3) : Option ICmp :=
  match v.toNat with
  | 0 => some .eq | 1 => some .ne | 2 => some .lt | 3 => some .le | 4 => some .gt | 5 => some .ge | _ => none
/-- R149. -/
def FCmp.code : FCmp → BitVec 3
  | .eq => 0 | .ne => 1 | .lt => 2 | .le => 3 | .gt => 4 | .ge => 5 | .num => 6 | .nan => 7
/-- R149. -/
def FCmp.ofCode (v : BitVec 3) : FCmp :=
  match v.toNat with
  | 0 => .eq | 1 => .ne | 2 => .lt | 3 => .le | 4 => .gt | 5 => .ge | 6 => .num | _ => .nan
/-- R138, R149. -/
def Comb.code : Comb → BitVec 2 | .none => 0 | .and => 1 | .or => 2
/-- R138, R149: code 3 is reserved. -/
def Comb.ofCode (v : BitVec 2) : Option Comb :=
  match v.toNat with | 0 => some .none | 1 => some .and | 2 => some .or | _ => Option.none
/-- R110. -/
def SwCmp.code : SwCmp → BitVec 3 | .eq => 0 | .ne => 1 | .lts => 2 | .ges => 3 | .ltz => 4 | .gez => 5
/-- R110: codes 6 and 7 are reserved. -/
def SwCmp.ofCode (v : BitVec 3) : Option SwCmp :=
  match v.toNat with
  | 0 => some .eq | 1 => some .ne | 2 => some .lts | 3 => some .ges | 4 => some .ltz | 5 => some .gez | _ => none
/-- R79. -/
def Size.code : Size → BitVec 3
  | .s8 => 0 | .z8 => 1 | .s16 => 2 | .z16 => 3 | .b32 => 4 | .b64 => 5 | .b128 => 6
/-- R79: code 7 is reserved. -/
def Size.ofCode (v : BitVec 3) : Option Size :=
  match v.toNat with
  | 0 => some .s8 | 1 => some .z8 | 2 => some .s16 | 3 => some .z16 | 4 => some .b32 | 5 => some .b64
  | 6 => some .b128 | _ => none
/-- R180. -/
def AtomOp.code : AtomOp → BitVec 4
  | .add => 0 | .smin => 1 | .smax => 2 | .umin => 3 | .umax => 4 | .and => 5 | .or => 6 | .xor => 7
  | .xchg => 8 | .cas => 9 | .fadd => 10
/-- R180: codes 11 to 15 are reserved. -/
def AtomOp.ofCode (v : BitVec 4) : Option AtomOp :=
  match v.toNat with
  | 0 => some .add | 1 => some .smin | 2 => some .smax | 3 => some .umin | 4 => some .umax | 5 => some .and
  | 6 => some .or | 7 => some .xor | 8 => some .xchg | 9 => some .cas | 10 => some .fadd | _ => none
/-- R179. -/
def Scope.code : Scope → BitVec 3 | .core => 0 | .gang => 1 | .die => 2 | .dev => 3 | .sys => 4
/-- R179: codes 5 to 7 are reserved. -/
def Scope.ofCode (v : BitVec 3) : Option Scope :=
  match v.toNat with
  | 0 => some .core | 1 => some .gang | 2 => some .die | 3 => some .dev | 4 => some .sys | _ => none
/-- R168. -/
def ShflMode.code : ShflMode → BitVec 2 | .idx => 0 | .up => 1 | .down => 2 | .xor => 3
/-- R168. -/
def ShflMode.ofCode (v : BitVec 2) : ShflMode :=
  match v.toNat with | 0 => .idx | 1 => .up | 2 => .down | _ => .xor
/-- R170. -/
def VoteMode.code : VoteMode → BitVec 2 | .bal => 0 | .all => 1 | .any => 2 | .eq => 3
/-- R170. -/
def VoteMode.ofCode (v : BitVec 2) : VoteMode :=
  match v.toNat with | 0 => .bal | 1 => .all | 2 => .any | _ => .eq
/-- R171. -/
def RedOp.code : RedOp → BitVec 4
  | .add => 0 | .min => 1 | .max => 2 | .and => 3 | .or => 4 | .xor => 5 | .fadd => 6 | .fmin => 7 | .fmax => 8
/-- R171: codes 9 to 15 are reserved. -/
def RedOp.ofCode (v : BitVec 4) : Option RedOp :=
  match v.toNat with
  | 0 => some .add | 1 => some .min | 2 => some .max | 3 => some .and | 4 => some .or | 5 => some .xor
  | 6 => some .fadd | 7 => some .fmin | 8 => some .fmax | _ => none
/-- R182. -/
def PhaseOpt.code : PhaseOpt → BitVec 2 | .pub => 1 | .ref => 2 | .both => 3
/-- R182: code 0 is reserved. -/
def PhaseOpt.ofCode (v : BitVec 2) : Option PhaseOpt :=
  match v.toNat with | 1 => some .pub | 2 => some .ref | 3 => some .both | _ => none
/-- R183. -/
def MaintOp.code : MaintOp → BitVec 2 | .clean => 1 | .inv => 2 | .clinv => 3
/-- R183: code 0 is reserved. -/
def MaintOp.ofCode (v : BitVec 2) : Option MaintOp :=
  match v.toNat with | 1 => some .clean | 2 => some .inv | 3 => some .clinv | _ => none
/-- R183. -/
def MaintLevel.code : MaintLevel → BitVec 2 | .l1 => 0 | .l2 => 1 | .sys => 2
/-- R183: code 3 is reserved. -/
def MaintLevel.ofCode (v : BitVec 2) : Option MaintLevel :=
  match v.toNat with | 0 => some .l1 | 1 => some .l2 | 2 => some .sys | _ => none
/-- R186. -/
def LineState.code : LineState → BitVec 2 | .empty => 0 | .full => 1 | .poison => 2
/-- R186: code 3 is reserved. -/
def LineState.ofCode (v : BitVec 2) : Option LineState :=
  match v.toNat with | 0 => some .empty | 1 => some .full | 2 => some .poison | _ => none
/-- R162. -/
def FFmt.code : FFmt → BitVec 3 | .f64 => 0 | .f32 => 1 | .f16 => 2 | .bf16 => 3 | .f8e4 => 4 | .f8e5 => 5
/-- R162: codes 6 and 7 are reserved. -/
def FFmt.ofCode (v : BitVec 3) : Option FFmt :=
  match v.toNat with
  | 0 => some .f64 | 1 => some .f32 | 2 => some .f16 | 3 => some .bf16 | 4 => some .f8e4 | 5 => some .f8e5
  | _ => none
/-- R162. -/
def IFmt.code : IFmt → BitVec 3
  | .s8 => 0 | .z8 => 1 | .s16 => 2 | .z16 => 3 | .s32 => 4 | .z32 => 5 | .s64 => 6 | .z64 => 7
/-- R162. -/
def IFmt.ofCode (v : BitVec 3) : IFmt :=
  match v.toNat with
  | 0 => .s8 | 1 => .z8 | 2 => .s16 | 3 => .z16 | 4 => .s32 | 5 => .z32 | 6 => .s64 | _ => .z64
/-- R127. -/
def Ext64.code : Ext64 → BitVec 2 | .pair => 0 | .bs => 1 | .bz => 2
/-- R127: code 3 is reserved. -/
def Ext64.ofCode (v : BitVec 2) : Option Ext64 :=
  match v.toNat with | 0 => some .pair | 1 => some .bs | 2 => some .bz | _ => none
/-- R225. -/
def CopyDir.code : CopyDir → BitVec 2 | .gs => 0 | .sg => 1 | .gg => 2 | .ss => 3
/-- R225. -/
def CopyDir.ofCode (v : BitVec 2) : CopyDir :=
  match v.toNat with | 0 => .gs | 1 => .sg | 2 => .gg | _ => .ss
/-- R208, R209. -/
def ScaleTgt.code : ScaleTgt → BitVec 2 | .n => 0 | .e4 => 1 | .e5 => 2
/-- R208, R209: code 3 is reserved. -/
def ScaleTgt.ofCode (v : BitVec 2) : Option ScaleTgt :=
  match v.toNat with | 0 => some .n | 1 => some .e4 | 2 => some .e5 | _ => none
/-- R249. -/
def RteAct.code : RteAct → BitVec 2 | .rep => 0 | .skip => 1 | .kill => 2
/-- R249: code 3 is reserved. -/
def RteAct.ofCode (v : BitVec 2) : Option RteAct :=
  match v.toNat with | 0 => some .rep | 1 => some .skip | 2 => some .kill | _ => none
/-- R253. -/
def ResAct.code : ResAct → BitVec 2 | .replay => 0 | .poison => 1 | .kill => 2
/-- R253: code 3 is reserved. -/
def ResAct.ofCode (v : BitVec 2) : Option ResAct :=
  match v.toNat with | 0 => some .replay | 1 => some .poison | 2 => some .kill | _ => none
/-- R256. -/
def ScrubTgt.code : ScrubTgt → BitVec 2 | .sp => 0 | .acc => 1 | .mem => 2
/-- R256: code 3 is reserved. -/
def ScrubTgt.ofCode (v : BitVec 2) : Option ScrubTgt :=
  match v.toNat with | 0 => some .sp | 1 => some .acc | 2 => some .mem | _ => none
/-- R213. -/
def Queue.code : Queue → BitVec 3
  | .qmx => 0 | .qcp => 1 | .qga => 2 | .qly => 3 | .qxs => 4 | .qxr => 5 | .qtk => 6 | .qer => 7
/-- R213. -/
def Queue.ofCode (v : BitVec 3) : Queue :=
  match v.toNat with
  | 0 => .qmx | 1 => .qcp | 2 => .qga | 3 => .qly | 4 => .qxs | 5 => .qxr | 6 => .qtk | _ => .qer
/-- R217. -/
def CntClass.code : CntClass → BitVec 4 | .copy => 0 | .matrix => 1 | .gleaner => 2 | .send => 3
/-- R218: codes 4 to 15 are reserved. -/
def CntClass.ofCode (v : BitVec 4) : Option CntClass :=
  match v.toNat with | 0 => some .copy | 1 => some .matrix | 2 => some .gleaner | 3 => some .send | _ => none
/-- A one-bit modifier. -/
def bit1 (b : Bool) : BitVec 1 := BitVec.ofBool b

/-! ### Facts of the encoding that both the decoder and well-formedness use -/

/-- The first register of a group of `n`: 255 names `vz` for the whole group (R44, R45; DEDUCED, log 115). -/
def Reg.aligned (r : Reg) (n : Nat) : Bool := r == 255 || r.toNat % n == 0

/-- The width in registers of one access-size operand (R79). -/
def Size.regs : Size → Nat | .b64 => 2 | .b128 => 4 | _ => 1

/-- Store sizes (R175). -/
def Size.storable : Size → Bool | .s8 => false | .s16 => false | _ => true

/-- A half or byte select that the format admits (R162). -/
def FFmt.selOk (f : FFmt) (s : BitVec 2) : Bool :=
  match f with
  | .f64 => s == 0 | .f32 => s == 0 | .f16 => !s.getLsbD 1 | .bf16 => !s.getLsbD 1 | .f8e4 => true | .f8e5 => true

/-- The registers one element of the format stands in (R162). -/
def FFmt.regs : FFmt → Nat | .f64 => 2 | _ => 1
/-- The registers one integer of the type stands in (R162). -/
def IFmt.regs : IFmt → Nat | .s64 => 2 | .z64 => 2 | _ => 1
/-- F8E4 and F8E5 (R163). -/
def FFmt.isF8 : FFmt → Bool | .f8e4 => true | .f8e5 => true | _ => false
/-- The 16-bit and 8-bit formats of ACCCV (R188). -/
def FFmt.isNarrow : FFmt → Bool | .f64 => false | .f32 => false | _ => true
/-- The signed types of IABS (R125). -/
def ITy.isSigned : ITy → Bool | .s8 => true | .s16 => true | .s32 => true | _ => false
/-- The types of IMULH and IMADW (R128). -/
def ITy.isWord : ITy → Bool | .s32 => true | .z32 => true | _ => false

/-- The GETID selectors of R114. -/
def getidListed (n : Nat) : Bool := n ≤ 5 || [0x10, 0x12, 0x13, 0x15, 0x16, 0x17, 0x18].contains n
/-- The GETENV selectors of R114. -/
def getenvListed (n : Nat) : Bool := n ≤ 8 || [0x0A, 0x0B, 0x0C].contains n

/-- The system registers of R242: number ↦ (64-bit, writable). -/
def sregInfo (n : Nat) : Option (Bool × Bool) :=
  match n with
  | 0x0000 => some (true, false)
  | 0x0001 => some (false, true)
  | 0x0002 => some (false, false)
  | 0x0110 => some (false, true)
  | 0x0111 => some (false, false)
  | 0x0112 => some (true, true)
  | 0x0113 => some (false, true)
  | 0x0114 => some (false, false)
  | 0x0120 => some (true, true)
  | 0x0121 => some (false, true)
  | 0x0122 => some (false, false)
  | 0x0123 => some (false, true)
  | 0x0130 => some (false, true)
  | 0x0131 => some (false, true)
  | 0x0132 => some (true, true)
  | _ => none

/-! ### The decoder -/

/-- The six forms (R75), with the two an opcode may choose between by `MOD[5]` (R76). -/
inductive Form where | a | i | ai | l | m | j | e deriving DecidableEq, Repr

/-- Which fields of a word an opcode uses: every other field, `MOD` bit and `X` bit must be zero (R74, R98). -/
structure Shape where
  form : Form
  /-- the `MOD` bits in use, `MOD[5]` aside where it selects the form -/
  mod : BitVec 6 := 0
  d : Bool := false
  a : Bool := false
  b : Bool := false
  c : Bool := false
  /-- `A` in form I, for an opcode that has both forms -/
  ai : Bool := false
  /-- the `X` bits in use, in form A, M or E -/
  x : BitVec 11 := 0
  /-- the `X` bits in use in form I -/
  xi : BitVec 11 := 0
  /-- `AL` may be non-zero (R100, R124, R144) -/
  alloc : Bool := false

/-- A check that rejects by name. -/
def need (b : Bool) (e : DecodeError) : Except DecodeError Unit := if b then .ok () else .error e

/-- A code that must be listed. -/
def listed {α : Type} (o : Option α) : Except DecodeError α :=
  match o with | some v => .ok v | none => .error .reservedCode

/-- Form I, by `MOD[5]` (R76). -/
def Raw.formI (r : Raw) : Bool := r.mod.getLsbD 5

/-- The 16-bit immediate of form I (R75). -/
def Raw.imm16 (r : Raw) : BitVec 16 := r.b ++ r.c

/-- The fields `PD`, `AL`, `CF` and the predicate (R73). -/
def Raw.ctl (r : Raw) : Ctl := ⟨r.pd, r.al, r.cf, r.pr, r.pb, r.pn == 1⟩

/-- `AL`, `CF` and predicate checks common to the predicated forms (R73, R80, R100). -/
def Raw.checkCtl (r : Raw) (alloc : Bool) : Except DecodeError Unit := do
  need (r.al != 3 && (alloc || r.al == 0)) .badAllocation
  need (r.cf.toNat < 12 || r.cf == 15) .badConsume
  need (r.pr != 255 || (r.pb == 0 && r.pn == 0)) .badPredicate

/-- Register fields that are not in use are zero (R74). -/
def Raw.checkRegs (r : Raw) (d a b c : Bool) : Except DecodeError Unit :=
  need ((d || r.d == 0) && (a || r.a == 0) && (b || r.b == 0) && (c || r.c == 0)) .unusedNonzero

/-- Every check that the opcode's shape makes (R74, R76, R80, R100). -/
def Raw.shape (r : Raw) (s : Shape) : Except DecodeError Ctl := do
  r.checkCtl s.alloc
  match s.form with
  | .a => do
    need (!r.formI) .formNotAllowed
    need (r.mod &&& ~~~s.mod == 0) .reservedCode
    r.checkRegs s.d s.a s.b s.c
    need (r.x &&& ~~~s.x == 0) .unusedNonzero
  | .i => do
    need r.formI .formNotAllowed
    need ((r.mod &&& 0x1F) &&& ~~~s.mod == 0) .reservedCode
    r.checkRegs s.d s.a true true
    need (r.x &&& ~~~s.xi == 0) .unusedNonzero
  | .ai =>
    if r.formI then do
      need ((r.mod &&& 0x1F) &&& ~~~s.mod == 0) .reservedCode
      r.checkRegs s.d s.ai true true
      need (r.x &&& ~~~s.xi == 0) .unusedNonzero
    else do
      need (r.mod &&& ~~~s.mod == 0) .reservedCode
      r.checkRegs s.d s.a s.b s.c
      need (r.x &&& ~~~s.x == 0) .unusedNonzero
  | .m => do
    need (r.mod &&& ~~~s.mod == 0) .reservedCode
    r.checkRegs s.d s.a s.b s.c
    need (r.x &&& ~~~s.x == 0) .unusedNonzero
  | .e => do
    need (r.mod &&& ~~~s.mod == 0) .reservedCode
    r.checkRegs s.d s.a s.b s.c
    need (r.x &&& ~~~s.x == 0) .unusedNonzero
  | .j => do
    need (r.mod &&& ~~~s.mod == 0) .reservedCode
    r.checkRegs false false true true
    need (r.x == 0) .unusedNonzero
  | .l => do
    need (r.mod == 0) .reservedCode
  return r.ctl

/-- The checks of form L: no predicate, bits 8 to 0 zero (R75). -/
def Raw.shapeL (r : Raw) (d : Bool) : Except DecodeError CtlL := do
  need (r.al == 0) .badAllocation
  need (r.cf.toNat < 12 || r.cf == 15) .badConsume
  need (r.mod == 0) .reservedCode
  r.checkRegs d false true true
  need (r.x.extractLsb' 0 9 == 0) .unusedNonzero
  return ⟨r.pd, r.al, r.cf⟩

/-- The 32-bit immediate of form L (R75): bits 40 to 9. -/
def Raw.imm32 (r : Raw) : BitVec 32 := r.b ++ r.c ++ r.pr ++ r.pb ++ r.pn ++ r.x.extractLsb' 9 2

/-- Source B of an opcode with forms A and I. -/
def Raw.srcB (r : Raw) : SrcB := if r.formI then .imm r.imm16 else .reg r.b
/-- The selector operand of GETID, GETENV and ERRRD. -/
def Raw.srcSel (r : Raw) : SrcSel := if r.formI then .imm r.imm16 else .reg r.a
/-- The third source: `C` in form A, the register of `X[7:0]` in form I (R75, R124). -/
def Raw.third (r : Raw) : Reg := if r.formI then r.x.extractLsb' 0 8 else r.c
/-- A form-M operand. -/
def Raw.memRef (r : Raw) : MemRef := ⟨r.a, r.b, r.c ++ r.x⟩

/-- `MOD[hi:lo]`. -/
def Raw.m (r : Raw) (lo n : Nat) : BitVec n := r.mod.extractLsb' lo n
/-- `X[hi:lo]`. -/
def Raw.xf (r : Raw) (lo n : Nat) : BitVec n := r.x.extractLsb' lo n
/-- A modifier bit. -/
def Raw.mb (r : Raw) (k : Nat) : Bool := r.mod.getLsbD k

/-- The integer type of `MOD[2:0]` (R123). -/
def Raw.ity (r : Raw) : Except DecodeError ITy := listed (ITy.ofCode (r.m 0 3))
/-- The rounding mode of `MOD[1:0]` (R143). -/
def Raw.rm (r : Raw) : RMode := RMode.ofCode (r.m 0 2)
/-- The access size of `MOD[5:3]` (R79). -/
def Raw.size (r : Raw) : Except DecodeError Size := listed (Size.ofCode (r.m 3 3))
/-- Register groups that must be aligned (R44, R85). -/
def groups (l : List (Reg × Nat)) : Except DecodeError Unit :=
  need (l.all fun p => p.1.aligned p.2) .misalignedGroup

/-- A two-source shape with forms A and I (R87). -/
def shAI (mod : BitVec 6) (alloc : Bool := false) : Shape :=
  { form := .ai, mod, d := true, a := true, ai := true, b := true, alloc }
/-- A three-source shape with forms A and I. -/
def shAI3 (mod : BitVec 6) : Shape :=
  { form := .ai, mod, d := true, a := true, ai := true, b := true, c := true, xi := 0x0FF }
/-- A compare shape: `X` holds bit, comparison and combine (R138, R149). -/
def shCmp (mod : BitVec 6) (x : BitVec 11) : Shape :=
  { form := .ai, mod, d := true, a := true, ai := true, b := true, x, xi := x }
/-- Form A with destination and source A. -/
def shDA (mod : BitVec 6) (alloc : Bool := false) : Shape := { form := .a, mod, d := true, a := true, alloc }
/-- Form A with destination and sources A, B. -/
def shDAB (mod : BitVec 6) (alloc : Bool := false) (x : BitVec 11 := 0) : Shape :=
  { form := .a, mod, d := true, a := true, b := true, alloc, x }
/-- Form A with four register fields. -/
def shDABC (mod : BitVec 6) (alloc : Bool := false) (x : BitVec 11 := 0) : Shape :=
  { form := .a, mod, d := true, a := true, b := true, c := true, alloc, x }
/-- A load or store of form M (R75, R175). -/
def shMem (mod : BitVec 6) (d : Bool := true) : Shape :=
  { form := .m, mod, d, a := true, b := true, c := true, x := 0x7FF, alloc := true }
/-- An atomic of form M (R179). -/
def shAtom (d : Bool) : Shape := { form := .m, mod := 0x38, d, a := true, b := true, c := true, x := 0x0FF, alloc := true }
/-- Form E (R75). -/
def shE (mod : BitVec 6) (d a b c : Bool) (x : BitVec 11 := 0) : Shape := { form := .e, mod, d, a, b, c, x, alloc := true }

/-- The barrier operand (R107). -/
def Raw.barSel (r : Raw) : Except DecodeError BarSel :=
  if r.mb 0 then do
    need (r.formI && r.imm16 == 0) .reservedCode
    return .gang
  else if r.formI then do
    need (r.imm16.extractLsb' 3 13 == 0) .reservedCode
    return .level (r.imm16.extractLsb' 0 3)
  else return .reg r.a

/-- The size, operation, scope and notify fields of an atomic (R179, R180). -/
def Raw.atom (r : Raw) (red : Bool) : Except DecodeError (AtomOp × Bool × Scope × Bool) := do
  let size ← r.size
  need (size == .b32 || size == .b64) .reservedCode
  let op ← listed (AtomOp.ofCode (r.xf 0 4))
  need (!(red && (op == .xchg || op == .cas))) .reservedCode
  let scope ← listed (Scope.ofCode (r.xf 4 3))
  let ntf := r.x.getLsbD 7
  need (!ntf || scope == .dev || scope == .sys) .reservedCode
  need (op == .cas || r.c == 0) .unusedNonzero
  return (op, size == .b64, scope, ntf)

/-- The scaled operands of MMAE4 and MMAE5 (R191, R192). -/
def Raw.scaled (r : Raw) (sc : Bool) : Except DecodeError Unit :=
  need (sc || (r.c == 0 && r.d == 0 && r.xf 0 4 == 0)) .unusedNonzero

/-- The opcodes 0x01 to 0x1C (spec/05). -/
def decodeControl (r : Raw) : Except DecodeError Instr :=
  match r.op.toNat with
  | 0x01 => do return .nop (← r.shape { form := .a })
  | 0x02 => do return .bra (← r.shape { form := .j, mod := 3 }) (Hint.ofCode (r.m 0 2)) r.imm16
  | 0x03 => do return .jmp (← r.shapeL false) r.imm32
  | 0x04 => do
    let c ← r.shape { form := .a, a := true }
    groups [(r.a, 2)]; return .jmpi c r.a
  | 0x05 => do
    let c ← r.shapeL true
    groups [(r.d, 2)]; return .call c r.d r.imm32
  | 0x06 => do
    let c ← r.shape (shDA 0)
    groups [(r.d, 2), (r.a, 2)]; return .calli c r.d r.a
  | 0x07 => do
    let c ← r.shape { form := .a, a := true }
    groups [(r.a, 2)]; return .ret c r.a
  | 0x08 => do return .exit (← r.shape { form := .a })
  | 0x09 => do return .waitf (← r.shape { form := .a, mod := 1, x := 0x7FF }) (r.m 0 1 ++ r.x)
  | 0x0A => do return .yieldI (← r.shape { form := .a })
  | 0x0B => do
    let c ← r.shape { form := .ai, mod := 1, a := true, alloc := true }
    return .bar c (← r.barSel)
  | 0x0C => do
    let c ← r.shape { form := .ai, mod := 1, a := true, alloc := true }
    return .bara c (← r.barSel)
  | 0x0D => do
    let c ← r.shape { form := .ai, mod := 1, a := true, alloc := true }
    return .barw c (← r.barSel)
  | 0x0E => do
    let c ← r.shape (shMem 0x3F)
    let size ← r.size
    need (size == .b32 || size == .b64) .reservedCode
    let cmp ← listed (SwCmp.ofCode (r.m 0 3))
    groups [(r.a, 2), (r.d, size.regs)]
    return .swait c cmp (size == .b64) r.d r.memRef
  | 0x0F => do
    let c ← r.shape (shMem 0x38 false)
    need (r.m 3 3 == 4) .reservedCode
    groups [(r.a, 2)]
    return .swake c r.memRef
  | 0x10 => do return .cvset (← r.shape (shE 0 false true false false 0x0F0)) (r.xf 4 4) r.a
  | 0x11 => do return .cvsign (← r.shape (shE 0 false false false false 0x0F0)) (r.xf 4 4)
  | 0x12 => do
    let c ← r.shape { form := .ai, mod := 1, d := true, a := true }
    need (!r.formI || getidListed r.imm16.toNat) .reservedCode
    need (!r.mb 0 || r.d.aligned 2) .misalignedGroup
    return .getid c (r.mb 0) r.d r.srcSel
  | 0x13 => do
    let c ← r.shape { form := .ai, mod := 1, d := true, a := true }
    need (!r.formI || getenvListed r.imm16.toNat) .reservedCode
    need (!r.mb 0 || r.d.aligned 2) .misalignedGroup
    return .getenv c (r.mb 0) r.d r.srcSel
  | 0x14 => do
    let c ← r.shape (shE 0 true false false false)
    groups [(r.d, 8)]; return .claim c r.d
  | 0x15 => do return .tret (← r.shape (shE 1 false true false false)) (r.mb 0) r.a
  | 0x16 => do return .schrd (← r.shape (shE 1 true false false false 0x00F)) (r.mb 0) r.d (r.xf 0 4)
  | 0x17 => do return .schwr (← r.shape (shE 0 false true false false 0x00F)) (r.xf 0 4) r.a
  | 0x18 => do return .schcm (← r.shape (shE 0 true false false false)) r.d
  | 0x19 => do
    let c ← r.shape (shE 0 true true true false)
    groups [(r.a, 2)]; return .spawn c r.d r.a r.b
  | 0x1A => do return .brk (← r.shape { form := .i }) r.imm16
  | 0x1B => do return .trap (← r.shape { form := .i }) r.imm16
  | 0x1C => do
    return .errrd (← r.shape { form := .ai, d := true, a := true, alloc := true }) r.d r.srcSel
  | _ => .error .reservedOpcode

/-- The opcodes 0x20 to 0x46 (spec/06). -/
def decodeInteger (r : Raw) : Except DecodeError Instr :=
  match r.op.toNat with
  | 0x20 => do let c ← r.shape (shAI 7); return .iadd c (← r.ity) r.d r.a r.srcB
  | 0x21 => do let c ← r.shape (shAI 7); return .isub c (← r.ity) r.d r.a r.srcB
  | 0x22 => do let c ← r.shape (shAI3 7); return .isum c (← r.ity) r.d r.a r.srcB r.third
  | 0x23 => do let c ← r.shape (shAI 0xF); return .iadds c (r.mb 3) (← r.ity) r.d r.a r.srcB
  | 0x24 => do let c ← r.shape (shAI 7); return .imul c (← r.ity) r.d r.a r.srcB
  | 0x25 => do
    let c ← r.shape (shAI 7)
    let t ← r.ity
    need t.isWord .reservedCode; return .imulh c t r.d r.a r.srcB
  | 0x26 => do let c ← r.shape (shAI3 7); return .imad c (← r.ity) r.d r.a r.srcB r.third
  | 0x27 => do
    let c ← r.shape (shAI3 7)
    let t ← r.ity
    need t.isWord .reservedCode
    groups [(r.d, 2), (r.third, 2)]; return .imadw c t r.d r.a r.srcB r.third
  | 0x28 => do
    let c ← r.shape (shAI 3)
    let x ← listed (Ext64.ofCode (r.m 0 2))
    need (!r.formI || x == .pair) .reservedCode
    groups [(r.d, 2), (r.a, 2)]
    need (r.formI || x != .pair || r.b.aligned 2) .misalignedGroup
    return .iadd64 c x r.d r.a r.srcB
  | 0x29 => do
    let c ← r.shape (shAI 3)
    let x ← listed (Ext64.ofCode (r.m 0 2))
    need (!r.formI || x == .pair) .reservedCode
    groups [(r.d, 2), (r.a, 2)]
    need (r.formI || x != .pair || r.b.aligned 2) .misalignedGroup
    return .isub64 c x r.d r.a r.srcB
  | 0x2A => do let c ← r.shape (shAI 7); return .imin c (← r.ity) r.d r.a r.srcB
  | 0x2B => do let c ← r.shape (shAI 7); return .imax c (← r.ity) r.d r.a r.srcB
  | 0x2C => do
    let c ← r.shape (shDA 0xF)
    let t ← r.ity
    need t.isSigned .reservedCode; return .iabs c (r.mb 3) t r.d r.a
  | 0x2D => do let c ← r.shape (shDA 0xF); return .ineg c (r.mb 3) (← r.ity) r.d r.a
  | 0x2E => do let c ← r.shape (shAI 7 true); return .idiv c (← r.ity) r.d r.a r.srcB
  | 0x2F => do let c ← r.shape (shAI 7 true); return .irem c (← r.ity) r.d r.a r.srcB
  | 0x30 => do return .and (← r.shape (shAI 0)) r.d r.a r.srcB
  | 0x31 => do return .or (← r.shape (shAI 0)) r.d r.a r.srcB
  | 0x32 => do return .xor (← r.shape (shAI 0)) r.d r.a r.srcB
  | 0x33 => do return .andn (← r.shape (shAI 0)) r.d r.a r.srcB
  | 0x34 => do return .blut (← r.shape (shDABC 0 false 0x0FF)) (r.xf 0 8) r.d r.a r.b r.c
  | 0x35 => do return .shl (← r.shape (shAI 0)) r.d r.a r.srcB
  | 0x36 => do return .shr (← r.shape (shAI 0)) r.d r.a r.srcB
  | 0x37 => do return .sar (← r.shape (shAI 0)) r.d r.a r.srcB
  | 0x38 => do return .rot (← r.shape (shAI 1)) (r.mb 0) r.d r.a r.srcB
  | 0x39 => do return .fshf (← r.shape (shAI3 1)) (r.mb 0) r.d r.a r.srcB r.third
  | 0x3A => do return .bfx (← r.shape (shAI 1)) (r.mb 0) r.d r.a r.srcB
  | 0x3B => do return .bfi (← r.shape (shAI3 0)) r.d r.a r.srcB r.third
  | 0x3C => do return .popc (← r.shape (shDA 0)) r.d r.a
  | 0x3D => do return .clz (← r.shape (shDA 0)) r.d r.a
  | 0x3E => do return .ctz (← r.shape (shDA 0)) r.d r.a
  | 0x3F => do return .brev (← r.shape (shDA 0)) r.d r.a
  | 0x40 => do
    let c ← r.shape (shCmp 7 0x3FF)
    let t ← r.ity
    let cmp ← listed (ICmp.ofCode (r.xf 5 3))
    let comb ← listed (Comb.ofCode (r.xf 8 2))
    return .icmp c t cmp comb (r.xf 0 5) r.d r.a r.srcB
  | 0x41 => do return .sel (← r.shape (shAI3 0x1F)) (r.m 0 5) r.d r.a r.srcB r.third
  | 0x42 => do
    let c ← r.shape (shAI 0x1F)
    need (!(r.formI && r.mb 4)) .reservedCode
    groups [(r.d, 2), (r.a, 2)]
    return .lea c (r.mb 3) (r.mb 4) (r.m 0 3) r.d r.a r.srcB
  | 0x43 => do
    let c ← r.shape { form := .ai, mod := 1, d := true, a := true }
    if r.formI then
      need (!r.mb 0) .reservedCode
      return .mov c r.d (.imm r.imm16)
    else if r.mb 0 then
      groups [(r.d, 2), (r.a, 2)]
      return .mov c r.d (.pair r.a)
    else return .mov c r.d (.reg r.a)
  | 0x44 => do return .movi (← r.shapeL true) r.d r.imm32
  | 0x45 => do
    let c ← r.shape (shCmp 0 0x33F)
    let comb ← listed (Comb.ofCode (r.xf 8 2))
    return .pset c (r.x.getLsbD 5) comb (r.xf 0 5) r.d r.a r.srcB
  | 0x46 => do return .bmsk (← r.shape (shAI 0)) r.d r.a r.srcB
  | _ => .error .reservedOpcode

/-- The opcodes 0x48 to 0x78 (spec/07). -/
def decodeFloat (r : Raw) : Except DecodeError Instr :=
  match r.op.toNat with
  | 0x48 => do return .fadd (← r.shape (shAI 3)) r.rm r.d r.a r.srcB
  | 0x49 => do return .fsub (← r.shape (shAI 3)) r.rm r.d r.a r.srcB
  | 0x4A => do return .fmul (← r.shape (shAI 3)) r.rm r.d r.a r.srcB
  | 0x4B => do return .ffma (← r.shape (shAI3 3)) r.rm r.d r.a r.srcB r.third
  | 0x4C => do return .fmin (← r.shape (shAI 0)) r.d r.a r.srcB
  | 0x4D => do return .fmax (← r.shape (shAI 0)) r.d r.a r.srcB
  | 0x4E => do
    let c ← r.shape (shCmp 0 0x3FF)
    let comb ← listed (Comb.ofCode (r.xf 8 2))
    return .fcmp c (FCmp.ofCode (r.xf 5 3)) comb (r.xf 0 5) r.d r.a r.srcB
  | 0x4F => do
    let c ← r.shape (shCmp 0 0x31F)
    let comb ← listed (Comb.ofCode (r.xf 8 2))
    need (!r.formI || r.imm16.extractLsb' 10 6 == 0) .reservedCode
    return .fclass c comb (r.xf 0 5) r.d r.a r.srcB
  | 0x50 => do return .frnd (← r.shape (shAI 3)) r.rm r.d r.a r.srcB
  | 0x51 => do return .fscalb (← r.shape (shAI 3)) r.rm r.d r.a r.srcB
  | 0x52 => do return .fclamp (← r.shape (shAI3 0)) r.d r.a r.srcB r.third
  | 0x58 => do return .frcp (← r.shape (shDA 3 true)) r.rm r.d r.a
  | 0x59 => do return .frsq (← r.shape (shDA 3 true)) r.rm r.d r.a
  | 0x5A => do return .fsqrt (← r.shape (shDA 3 true)) r.rm r.d r.a
  | 0x5B => do return .fdiv (← r.shape (shDAB 3 true)) r.rm r.d r.a r.b
  | 0x5C => do return .fex2 (← r.shape (shDA 0 true)) r.d r.a
  | 0x5D => do return .flg2 (← r.shape (shDA 0 true)) r.d r.a
  | 0x5E => do return .fsin (← r.shape (shDA 0 true)) r.d r.a
  | 0x5F => do return .fcos (← r.shape (shDA 0 true)) r.d r.a
  | 0x60 => do return .ftanh (← r.shape (shDA 0 true)) r.d r.a
  | 0x61 => do return .fsigm (← r.shape (shDA 0 true)) r.d r.a
  | 0x64 => do return .hadd2 (← r.shape (shDAB 7)) (r.mb 2) r.rm r.d r.a r.b
  | 0x65 => do return .hmul2 (← r.shape (shDAB 7)) (r.mb 2) r.rm r.d r.a r.b
  | 0x66 => do return .hfma2 (← r.shape (shDABC 7)) (r.mb 2) r.rm r.d r.a r.b r.c
  | 0x67 => do return .hmnmx2 (← r.shape (shDAB 0xC)) (r.mb 3) (r.mb 2) r.d r.a r.b
  | 0x68 => do
    let c ← r.shape (shDAB 4 false 0x3FF)
    let comb ← listed (Comb.ofCode (r.xf 8 2))
    need (!r.x.getLsbD 0) .reservedCode
    return .hcmp2 c (r.mb 2) (FCmp.ofCode (r.xf 5 3)) comb (r.xf 0 5) r.d r.a r.b
  | 0x6C => do
    let c ← r.shape (shDAB 3)
    groups [(r.d, 2), (r.a, 2), (r.b, 2)]; return .dadd c r.rm r.d r.a r.b
  | 0x6D => do
    let c ← r.shape (shDAB 3)
    groups [(r.d, 2), (r.a, 2), (r.b, 2)]; return .dmul c r.rm r.d r.a r.b
  | 0x6E => do
    let c ← r.shape (shDABC 3)
    groups [(r.d, 2), (r.a, 2), (r.b, 2), (r.c, 2)]; return .dfma c r.rm r.d r.a r.b r.c
  | 0x6F => do
    let c ← r.shape (shDAB 8)
    groups [(r.d, 2), (r.a, 2), (r.b, 2)]; return .dmnmx c (r.mb 3) r.d r.a r.b
  | 0x70 => do
    let c ← r.shape (shDAB 0 false 0x3FF)
    let comb ← listed (Comb.ofCode (r.xf 8 2))
    groups [(r.a, 2), (r.b, 2)]
    return .dcmp c (FCmp.ofCode (r.xf 5 3)) comb (r.xf 0 5) r.d r.a r.b
  | 0x71 => do
    let c ← r.shape (shDA 3)
    groups [(r.d, 2), (r.a, 2)]; return .drnd c r.rm r.d r.a
  | 0x74 => do
    let c ← r.shape { form := .a, mod := 7, d := true, a := true, x := 0x3FF }
    let dst ← listed (FFmt.ofCode (r.xf 0 3))
    let src ← listed (FFmt.ofCode (r.xf 3 3))
    need (src.selOk (r.xf 6 2) && dst.selOk (r.xf 8 2)) .reservedCode
    need (!r.mb 2 || dst.isF8) .reservedCode
    groups [(r.d, dst.regs), (r.a, src.regs)]
    return .fcvt c dst src (r.mb 2) r.rm (r.xf 8 2) (r.xf 6 2) r.d r.a
  | 0x75 => do
    let c ← r.shape { form := .a, mod := 3, d := true, a := true, x := 0x0FF }
    let ft ← listed (FFmt.ofCode (r.xf 3 3))
    let it := IFmt.ofCode (r.xf 0 3)
    need (ft.selOk (r.xf 6 2)) .reservedCode
    groups [(r.d, it.regs), (r.a, ft.regs)]
    return .f2i c it ft r.rm (r.xf 6 2) r.d r.a
  | 0x76 => do
    let c ← r.shape { form := .a, mod := 7, d := true, a := true, x := 0x33F }
    let ft ← listed (FFmt.ofCode (r.xf 0 3))
    let it := IFmt.ofCode (r.xf 3 3)
    need (ft.selOk (r.xf 8 2)) .reservedCode
    need (!r.mb 2 || ft.isF8) .reservedCode
    groups [(r.d, ft.regs), (r.a, it.regs)]
    return .i2f c ft it (r.mb 2) r.rm (r.xf 8 2) r.d r.a
  | 0x77 => do return .dot2 (← r.shape (shDABC 7)) (r.mb 2) r.rm r.d r.a r.b r.c
  | 0x78 => do return .dot4 (← r.shape (shDABC 0xF)) (r.mb 2) (r.mb 3) r.rm r.d r.a r.b r.c
  | _ => .error .reservedOpcode

/-- The opcodes 0x80 to 0x9C (spec/08). -/
def decodeMemory (r : Raw) : Except DecodeError Instr :=
  match r.op.toNat with
  | 0x80 => do
    let c ← r.shape (shAI 0x1F)
    need ((r.m 2 3).toNat < 6) .reservedCode
    need (!r.formI || r.imm16.extractLsb' 5 11 == 0) .reservedCode
    return .shfl c (ShflMode.ofCode (r.m 0 2)) (r.m 2 3) r.d r.a r.srcB
  | 0x81 => do
    return .vote (← r.shape { form := .a, mod := 3, d := true, a := true, x := 0x01F })
      (VoteMode.ofCode (r.m 0 2)) (r.xf 0 5) r.d r.a
  | 0x82 => do return .bcast (← r.shape (shAI 1)) (r.mb 0) r.d r.a r.srcB
  | 0x83 => do
    let c ← r.shape { form := .a, mod := 0xD, d := true, a := true, x := 0x00F }
    let op ← listed (RedOp.ofCode (r.xf 0 4))
    need (!r.mb 0 || op == .min || op == .max) .reservedCode
    need (r.m 2 2 == 0 || op == .fadd) .reservedCode
    return .lred c op (r.mb 0) (RMode.ofCode (r.m 2 2)) r.d r.a
  | 0x84 => do
    let c ← r.shape { form := .a, mod := 0xF, d := true, a := true, x := 0x00F }
    let op ← listed (RedOp.ofCode (r.xf 0 4))
    need (!r.mb 0 || op == .min || op == .max) .reservedCode
    need (r.m 2 2 == 0 || op == .fadd) .reservedCode
    return .lscan c op (r.mb 1) (r.mb 0) (RMode.ofCode (r.m 2 2)) r.d r.a
  | 0x85 => do
    let c ← r.shape (shDA 1)
    need (!r.mb 0 || r.a.aligned 2) .misalignedGroup
    return .matchL c (r.mb 0) r.d r.a
  | 0x86 => do return .actm (← r.shape { form := .a, d := true }) r.d
  | 0x88 => do
    let c ← r.shape (shMem 0x39)
    let size ← r.size
    groups [(r.a, 2), (r.d, size.regs)]; return .ldg c size (r.mb 0) r.d r.memRef
  | 0x89 => do
    let c ← r.shape (shMem 0x38)
    let size ← r.size
    need size.storable .reservedCode
    groups [(r.a, 2), (r.d, size.regs)]; return .stg c size r.d r.memRef
  | 0x8A => do
    let c ← r.shape (shMem 0x38)
    let size ← r.size
    groups [(r.d, size.regs)]; return .lds c size r.d r.memRef
  | 0x8B => do
    let c ← r.shape (shMem 0x38)
    let size ← r.size
    need size.storable .reservedCode
    groups [(r.d, size.regs)]; return .sts c size r.d r.memRef
  | 0x8C => do
    let c ← r.shape (shMem 0x38)
    let size ← r.size
    groups [(r.d, size.regs)]; return .ldr c size r.d r.memRef
  | 0x8D => do
    let c ← r.shape (shMem 0x38)
    let size ← r.size
    need size.storable .reservedCode
    groups [(r.d, size.regs)]; return .str c size r.d r.memRef
  | 0x8E => do
    let c ← r.shape (shAtom true)
    let (op, dbl, scope, ntf) ← r.atom false
    groups [(r.a, 2), (r.d, bif dbl then 2 else 1), (r.b, bif dbl then 2 else 1), (r.c, bif dbl then 2 else 1)]
    return .atomg c op dbl scope ntf r.d r.a r.b r.c
  | 0x8F => do
    let c ← r.shape (shAtom false)
    let (op, dbl, scope, ntf) ← r.atom true
    groups [(r.a, 2), (r.b, bif dbl then 2 else 1)]
    return .redg c op dbl scope ntf r.a r.b
  | 0x90 => do
    let c ← r.shape (shAtom true)
    let (op, dbl, scope, ntf) ← r.atom false
    need (scope == .core && !ntf) .reservedCode
    groups [(r.d, bif dbl then 2 else 1), (r.b, bif dbl then 2 else 1), (r.c, bif dbl then 2 else 1)]
    return .atoms c op dbl r.d r.a r.b r.c
  | 0x91 => do
    let c ← r.shape { form := .a, mod := 0x1F, alloc := true }
    let opt ← listed (PhaseOpt.ofCode (r.m 0 2))
    let scope ← listed (Scope.ofCode (r.m 2 3))
    return .phase c opt scope
  | 0x92 => do
    let c ← r.shape { form := .a, mod := 0xF, a := true, b := true, alloc := true }
    let op ← listed (MaintOp.ofCode (r.m 0 2))
    let lvl ← listed (MaintLevel.ofCode (r.m 2 2))
    groups [(r.a, 2)]; return .cmaint c op lvl r.a r.b
  | 0x93 => do
    let c ← r.shape (shMem 0x39 false)
    need (r.m 3 3 == 4) .reservedCode
    groups [(r.a, 2)]; return .pref c (r.mb 0) r.memRef
  | 0x94 => do
    return .waycfg (← r.shape { form := .ai, d := true, b := true, alloc := true }) r.d r.srcB
  | 0x95 => do
    let c ← r.shape { form := .ai, mod := 3, a := true, ai := true, b := true, alloc := true }
    let st ← listed (LineState.ofCode (r.m 0 2))
    return .spmark c st r.a r.srcB
  | 0x96 => do
    return .sptest (← r.shape { form := .ai, d := true, b := true, alloc := true }) r.d r.srcB
  | 0x98 => do
    return .accld (← r.shape { form := .a, a := true, b := true, c := true, alloc := true }) r.a r.b r.c
  | 0x99 => do
    return .accst (← r.shape { form := .a, a := true, b := true, c := true, alloc := true }) r.a r.b r.c
  | 0x9A => do return .accz (← r.shape { form := .a, a := true, alloc := true }) r.a
  | 0x9B => do return .acccp (← r.shape { form := .a, a := true, b := true, alloc := true }) r.a r.b
  | 0x9C => do
    let c ← r.shape { form := .a, a := true, b := true, c := true, x := 0x03F, alloc := true }
    let fmt ← listed (FFmt.ofCode (r.xf 0 3))
    need (fmt.isNarrow && (!r.x.getLsbD 5 || fmt.isF8)) .reservedCode
    return .acccv c fmt (r.x.getLsbD 5) (RMode.ofCode (r.xf 3 2)) r.a r.b r.c
  | _ => .error .reservedOpcode

/-- The opcodes 0xA0 to 0xAC (spec/09). -/
def decodeMatrix (r : Raw) : Except DecodeError Instr :=
  match r.op.toNat with
  | 0xA0 => do return .mmaf (← r.shape (shE 0 false true true false 0x0F0)) (r.xf 4 4) r.a r.b
  | 0xA1 => do return .mmab (← r.shape (shE 0 false true true false 0x0F0)) (r.xf 4 4) r.a r.b
  | 0xA2 => do return .mmah (← r.shape (shE 0 false true true false 0x0F0)) (r.xf 4 4) r.a r.b
  | 0xA3 => do
    let c ← r.shape (shE 1 true true true true 0x0FF)
    r.scaled (r.mb 0)
    return .mmae4 c (r.mb 0) (r.xf 4 4) (r.xf 0 2) (r.xf 2 2) r.a r.b r.c r.d
  | 0xA4 => do
    let c ← r.shape (shE 1 true true true true 0x0FF)
    r.scaled (r.mb 0)
    return .mmae5 c (r.mb 0) (r.xf 4 4) (r.xf 0 2) (r.xf 2 2) r.a r.b r.c r.d
  | 0xA5 => do
    let c ← r.shape (shE 0x3F true true true true 0x0FF)
    need (r.m 0 3 != 7 && r.m 3 3 != 7) .reservedCode
    return .mman c (r.m 0 3) (r.m 3 3) (r.xf 4 4) (r.xf 0 2) (r.xf 2 2) r.a r.b r.c r.d
  | 0xA6 => do
    let c ← r.shape { form := .a, d := true, alloc := true }
    groups [(r.d, 2)]; return .merr c r.d
  | 0xA7 => do
    let c ← r.shape (shDA 7 true)
    need (r.a.toNat % 8 == 0) .misalignedGroup
    return .plpack c (r.m 0 3) r.d r.a
  | 0xA8 => do
    let c ← r.shape { form := .a, mod := 0xF, d := true, a := true, x := 0x7FF, alloc := true }
    need (r.m 0 3 != 7 && r.xf 3 8 != 0) .reservedCode
    return .plunpk c (r.m 0 3) (r.mb 3) r.d r.a (r.xf 3 8) (r.xf 0 3)
  | 0xA9 => do
    let c ← r.shape (shDA 3 true)
    return .bscale c (← listed (ScaleTgt.ofCode (r.m 0 2))) r.d r.a
  | 0xAA => do
    let c ← r.shape (shDAB 7 true 0x03F)
    let tgt ← listed (ScaleTgt.ofCode (r.xf 4 2))
    need (!(r.mb 2 && tgt == .n)) .reservedCode
    return .sccv c tgt (r.mb 2) r.rm (r.xf 0 2) (r.xf 2 2) r.d r.a r.b
  | 0xAB => do
    return .mred (← r.shape (shE 0 true true true true 0x003)) (r.x.getLsbD 0) (r.x.getLsbD 1) r.d r.a r.b r.c
  | 0xAC => do return .mrsc (← r.shape (shE 0 false true true true 0x001)) (r.x.getLsbD 0) r.a r.b r.c
  | _ => .error .reservedOpcode

/-- The opcodes 0xB0 to 0xBF (spec/10). -/
def decodeEngine (r : Raw) : Except DecodeError Instr :=
  match r.op.toNat with
  | 0xB0 => do
    let c ← r.shape (shE 0 false true false false 0x700)
    need ((r.xf 8 3).toNat < 5) .reservedCode
    return .qpush c (Queue.ofCode (r.xf 8 3)) r.a
  | 0xB1 => do
    let c ← r.shape (shE 0 true false false false 0x700)
    need (r.d.toNat % 4 == 0) .misalignedGroup; return .qpop c r.d (Queue.ofCode (r.xf 8 3))
  | 0xB2 => do
    let c ← r.shape (shE 0 true false false false 0x700)
    need (r.d.toNat % 4 == 0) .misalignedGroup; return .qtry c r.d (Queue.ofCode (r.xf 8 3))
  | 0xB3 => do return .qlvl (← r.shape (shE 0 true false false false 0x700)) r.d (Queue.ofCode (r.xf 8 3))
  | 0xB4 => do
    let c ← r.shape (shE 1 true true true true)
    need (r.mb 0 || r.d == 0) .unusedNonzero
    return .cpyt c (r.mb 0) r.a r.b r.c r.d
  | 0xB5 => do
    let c ← r.shape (shE 3 true true true true)
    let dir := CopyDir.ofCode (r.m 0 2)
    need (dir == .sg || dir == .gg || r.d == 0) .unusedNonzero
    need (!(dir == .gs || dir == .gg) || r.a.aligned 2) .misalignedGroup
    need (!(dir == .sg || dir == .gg) || r.b.aligned 2) .misalignedGroup
    return .cpyl c dir r.a r.b r.c r.d
  | 0xB6 => do return .cpyh (← r.shape (shE 1 false true true true)) (r.mb 0) r.a r.b r.c
  | 0xB7 => do
    let c ← r.shape (shE 1 false true true false)
    groups [(r.a, 2)]
    need (!r.mb 0 || r.b.aligned 2) .misalignedGroup
    return .gath c (r.mb 0) r.a r.b
  | 0xB8 => do
    let c ← r.shape (shE 0 false true true false)
    groups [(r.a, 2)]; return .scat c r.a r.b
  | 0xB9 => do
    let c ← r.shape (shE 0 false true true false)
    groups [(r.b, 2)]; return .layx c r.a r.b
  | 0xBA => do
    let c ← r.shape (shE 0x3F false false false false 0x00F)
    return .waitc c (← listed (CntClass.ofCode (r.xf 0 4))) r.mod
  | 0xBB => do
    let c ← r.shape (shE 1 false true true false)
    groups [(r.a, 4)]
    need (!r.mb 0 || r.b.aligned 2) .misalignedGroup
    return .send c (r.mb 0) r.a r.b
  | 0xBC => do
    let c ← r.shape (shE 1 false true true false)
    groups [(r.a, 4)]
    need (!r.mb 0 || r.b.aligned 2) .misalignedGroup
    return .sendl c (r.mb 0) r.a r.b
  | 0xBD => do
    let c ← r.shape (shE 0 true true false false)
    groups [(r.a, 8)]; return .postr c r.d r.a
  | 0xBE => do return .canrv (← r.shape (shE 0 true true false false)) r.d r.a
  | 0xBF => do
    let c ← r.shape (shE 0 true true false false)
    groups [(r.d, 4), (r.a, 4)]; return .probe c r.d r.a
  | _ => .error .reservedOpcode

/-- The opcodes 0xE0 to 0xEE (spec/11). -/
def decodeSystem (r : Raw) : Except DecodeError Instr :=
  match r.op.toNat with
  | 0xE0 => do
    let c ← r.shape { form := .i, mod := 1, d := true, alloc := true }
    let info ← listed (sregInfo r.imm16.toNat)
    need (info.1 == r.mb 0) .reservedCode
    need (!r.mb 0 || r.d.aligned 2) .misalignedGroup
    return .mfsr c (r.mb 0) r.d r.imm16
  | 0xE1 => do
    let c ← r.shape { form := .i, mod := 1, a := true }
    let info ← listed (sregInfo r.imm16.toNat)
    need (info.1 == r.mb 0 && info.2) .reservedCode
    need (!r.mb 0 || r.a.aligned 2) .misalignedGroup
    return .mtsr c (r.mb 0) r.imm16 r.a
  | 0xE2 => do
    let c ← r.shape (shDA 3 true)
    return .rte c (← listed (RteAct.ofCode (r.m 0 2))) r.d r.a
  | 0xE3 => do
    let c ← r.shape (shDAB 0 true)
    groups [(r.b, 2)]; return .ctxsv c r.d r.a r.b
  | 0xE4 => do
    let c ← r.shape (shDAB 0 true)
    groups [(r.b, 2)]; return .ctxld c r.d r.a r.b
  | 0xE5 => do
    let c ← r.shape (shDA 0 true)
    need (r.a.toNat % 4 == 0) .misalignedGroup; return .tinv c r.d r.a
  | 0xE6 => do
    let c ← r.shape (shDA 3 true)
    let act ← listed (ResAct.ofCode (r.m 0 2))
    groups [(r.a, 4)]; return .prsrs c act r.d r.a
  | 0xE7 => do return .halt (← r.shape (shDA 0 true)) r.d r.a
  | 0xE8 => do return .idle (← r.shape { form := .a, d := true, alloc := true }) r.d
  | 0xE9 => do
    let c ← r.shape (shDA 0 true)
    groups [(r.a, 2)]; return .fwsig c r.d r.a
  | 0xEA => do
    let c ← r.shape (shDAB 0 true)
    groups [(r.b, 2)]; return .keyld c r.d r.a r.b
  | 0xEB => do
    let c ← r.shape (shDAB 1 true)
    groups [(r.b, 2)]; return .tckt c (r.mb 0) r.d r.a r.b
  | 0xEC => do
    let c ← r.shape (shDAB 3 true)
    let tgt ← listed (ScrubTgt.ofCode (r.m 0 2))
    need (tgt == .mem || r.b == 0) .unusedNonzero
    groups [(r.b, bif tgt == .mem then 2 else 1)]
    return .scrub c tgt r.d r.a r.b
  | 0xED => do
    let c ← r.shape (shDAB 0 true)
    groups [(r.d, 2)]; return .dbgrd c r.d r.a r.b
  | 0xEE => do return .dbgwr (← r.shape (shDABC 0 true)) r.d r.a r.b r.c
  | _ => .error .reservedOpcode

/-- The clause header (R81). -/
def decodeHeader (w : BitVec 80) : Except DecodeError Instr := do
  need (w.extractLsb' 0 45 == 0) .badHeader
  let sa := w.extractLsb' 49 4
  let sb := w.extractLsb' 45 4
  need ((sa.toNat < 12 || sa == 15) && (sb.toNat < 12 || sb == 15)) .badHeader
  return .hdr (w.extractLsb' 68 4) (w.extractLsb' 65 3) (w.extractLsb' 53 12) sa sb

/-- The instruction a word encodes, or the name of what makes it a reserved encoding (R85). -/
def decode (w : BitVec 80) : Except DecodeError Instr :=
  let r := Raw.ofWord w
  match r.op.toNat / 16 with
  | 0 => if r.op = 0 then decodeHeader w else decodeControl r
  | 1 => decodeControl r
  | 2 => decodeInteger r
  | 3 => decodeInteger r
  | 4 => if r.op.toNat < 0x48 then decodeInteger r else decodeFloat r
  | 5 => decodeFloat r
  | 6 => decodeFloat r
  | 7 => decodeFloat r
  | 8 => decodeMemory r
  | 9 => decodeMemory r
  | 10 => decodeMatrix r
  | 11 => decodeEngine r
  | 14 => decodeSystem r
  | _ => .error .reservedOpcode

/-- A word of 80 bits from its 10 bytes, byte 0 lowest (R4, R73). -/
def wordOfBytes (bs : List Byte) : BitVec 80 := BitVec.ofNat 80 (leNat (bs.take 10))

/-- The instruction read from an instruction whose bits are `w` (the host's reading of the opcode table). -/
def decodeTableWord (nbits w : Nat) : Option Instr :=
  if nbits ≤ 80 then
    match decode (wordOfBytes (leBytes 10 w)) with
    | .ok i => some i
    | .error _ => none
  else none

/-! ### The encoder -/

/-- A word with `PD`, `AL`, `CF` and the predicate in place and every other field zero. -/
def Raw.base (op : BitVec 8) (c : Ctl) : Raw :=
  { op, mod := 0, pd := c.pd, al := c.al, cf := c.cf, d := 0, a := 0, b := 0, c := 0, pr := c.pr, pb := c.pb,
    pn := bit1 c.pn, x := 0 }

/-- A word of form L (R75). -/
def Raw.ofL (op : BitVec 8) (c : CtlL) (d : Reg) (imm : BitVec 32) : Raw :=
  { op, mod := 0, pd := c.pd, al := c.al, cf := c.cf, d, a := 0, b := imm.extractLsb' 24 8, c := imm.extractLsb' 16 8,
    pr := imm.extractLsb' 8 8, pb := imm.extractLsb' 3 5, pn := imm.extractLsb' 2 1,
    x := (imm.extractLsb' 0 2 : BitVec 2) ++ (0 : BitVec 9) }

/-- Source B in its place, with `mod` the low five `MOD` bits (R75, R76). -/
def Raw.withB (r : Raw) (mod : BitVec 5) (b : SrcB) : Raw :=
  match b with
  | .reg n => { r with mod := (0 : BitVec 1) ++ mod, b := n }
  | .imm v => { r with mod := (1 : BitVec 1) ++ mod, b := v.extractLsb' 8 8, c := v.extractLsb' 0 8 }

/-- Source B and the third source in their places (R75, R124). -/
def Raw.withBC (r : Raw) (mod : BitVec 5) (b : SrcB) (t : Reg) : Raw :=
  match b with
  | .reg n => { r with mod := (0 : BitVec 1) ++ mod, b := n, c := t }
  | .imm v =>
    { r with mod := (1 : BitVec 1) ++ mod, b := v.extractLsb' 8 8, c := v.extractLsb' 0 8, x := (0 : BitVec 3) ++ t }

/-- A selector operand in its place (R114, R121). -/
def Raw.withSel (r : Raw) (mod : BitVec 5) (s : SrcSel) : Raw :=
  match s with
  | .reg n => { r with mod := (0 : BitVec 1) ++ mod, a := n }
  | .imm v => { r with mod := (1 : BitVec 1) ++ mod, b := v.extractLsb' 8 8, c := v.extractLsb' 0 8 }

/-- A barrier operand in its place (R107). -/
def Raw.withBar (r : Raw) (s : BarSel) : Raw :=
  match s with
  | .level j => { r with mod := 0x20, c := (0 : BitVec 5) ++ j }
  | .reg n => { r with a := n }
  | .gang => { r with mod := 0x21 }

/-- A form-M operand in its place (R75). -/
def Raw.withMem (r : Raw) (m : MemRef) : Raw :=
  { r with a := m.a, b := m.b, c := m.off.extractLsb' 11 8, x := m.off.extractLsb' 0 11 }

/-- The compare fields of `X` (R138, R149). -/
def cmpX (comb : Comb) (cmp : BitVec 3) (bit : BitVec 5) : BitVec 11 := (0 : BitVec 1) ++ comb.code ++ cmp ++ bit

/-- The atomic fields of `X` (R179). -/
def atomX (ntf : Bool) (scope : Scope) (op : AtomOp) : BitVec 11 :=
  (0 : BitVec 3) ++ bit1 ntf ++ scope.code ++ op.code

/-- The size field of an atomic, SWAIT: `.B64` or `.B32` (R79). -/
def dblMod (dbl : Bool) (low : BitVec 3) : BitVec 6 := (if dbl then Size.b64.code else Size.b32.code) ++ low

/-- The field of the convergence register and the byte selects (R192). -/
def cvX (cv : BitVec 4) (ba bb : BitVec 2) : BitVec 11 := (0 : BitVec 3) ++ cv ++ bb ++ ba

/-- The fields of an instruction's word; `none` for an event, which has no word. -/
def Instr.raw? : Instr → Option Raw
  | .nop c => some (Raw.base 0x01 c)
  | .bra c h off => some { Raw.base 0x02 c with mod := (0 : BitVec 4) ++ h.code, b := off.extractLsb' 8 8, c := off.extractLsb' 0 8 }
  | .jmp c off => some (Raw.ofL 0x03 c 0 off)
  | .jmpi c a => some { Raw.base 0x04 c with a }
  | .call c d off => some (Raw.ofL 0x05 c d off)
  | .calli c d a => some { Raw.base 0x06 c with d, a }
  | .ret c a => some { Raw.base 0x07 c with a }
  | .exit c => some (Raw.base 0x08 c)
  | .waitf c mask => some { Raw.base 0x09 c with mod := (0 : BitVec 5) ++ mask.extractLsb' 11 1, x := mask.extractLsb' 0 11 }
  | .yieldI c => some (Raw.base 0x0A c)
  | .bar c s => some ((Raw.base 0x0B c).withBar s)
  | .bara c s => some ((Raw.base 0x0C c).withBar s)
  | .barw c s => some ((Raw.base 0x0D c).withBar s)
  | .swait c cmp dbl d m => some ({ Raw.base 0x0E c with mod := dblMod dbl cmp.code, d }.withMem m)
  | .swake c m => some ({ Raw.base 0x0F c with mod := dblMod false 0 }.withMem m)
  | .cvset c cv a => some { Raw.base 0x10 c with a, x := cvX cv 0 0 }
  | .cvsign c cv => some { Raw.base 0x11 c with x := cvX cv 0 0 }
  | .getid c w d s => some ({ Raw.base 0x12 c with d }.withSel ((0 : BitVec 4) ++ bit1 w) s)
  | .getenv c w d s => some ({ Raw.base 0x13 c with d }.withSel ((0 : BitVec 4) ++ bit1 w) s)
  | .claim c d => some { Raw.base 0x14 c with d }
  | .tret c abn a => some { Raw.base 0x15 c with mod := (0 : BitVec 5) ++ bit1 abn, a }
  | .schrd c sh d n => some { Raw.base 0x16 c with mod := (0 : BitVec 5) ++ bit1 sh, d, x := (0 : BitVec 7) ++ n }
  | .schwr c n a => some { Raw.base 0x17 c with a, x := (0 : BitVec 7) ++ n }
  | .schcm c d => some { Raw.base 0x18 c with d }
  | .spawn c d a b => some { Raw.base 0x19 c with d, a, b }
  | .brk c v => some ((Raw.base 0x1A c).withB 0 (.imm v))
  | .trap c v => some ((Raw.base 0x1B c).withB 0 (.imm v))
  | .errrd c d s => some ({ Raw.base 0x1C c with d }.withSel 0 s)
  | .iadd c t d a b => some ({ Raw.base 0x20 c with d, a }.withB ((0 : BitVec 2) ++ t.code) b)
  | .isub c t d a b => some ({ Raw.base 0x21 c with d, a }.withB ((0 : BitVec 2) ++ t.code) b)
  | .isum c t d a b r => some ({ Raw.base 0x22 c with d, a }.withBC ((0 : BitVec 2) ++ t.code) b r)
  | .iadds c sub t d a b => some ({ Raw.base 0x23 c with d, a }.withB ((0 : BitVec 1) ++ bit1 sub ++ t.code) b)
  | .imul c t d a b => some ({ Raw.base 0x24 c with d, a }.withB ((0 : BitVec 2) ++ t.code) b)
  | .imulh c t d a b => some ({ Raw.base 0x25 c with d, a }.withB ((0 : BitVec 2) ++ t.code) b)
  | .imad c t d a b r => some ({ Raw.base 0x26 c with d, a }.withBC ((0 : BitVec 2) ++ t.code) b r)
  | .imadw c t d a b r => some ({ Raw.base 0x27 c with d, a }.withBC ((0 : BitVec 2) ++ t.code) b r)
  | .iadd64 c x d a b => some ({ Raw.base 0x28 c with d, a }.withB ((0 : BitVec 3) ++ x.code) b)
  | .isub64 c x d a b => some ({ Raw.base 0x29 c with d, a }.withB ((0 : BitVec 3) ++ x.code) b)
  | .imin c t d a b => some ({ Raw.base 0x2A c with d, a }.withB ((0 : BitVec 2) ++ t.code) b)
  | .imax c t d a b => some ({ Raw.base 0x2B c with d, a }.withB ((0 : BitVec 2) ++ t.code) b)
  | .iabs c sat t d a => some { Raw.base 0x2C c with mod := (0 : BitVec 2) ++ bit1 sat ++ t.code, d, a }
  | .ineg c sat t d a => some { Raw.base 0x2D c with mod := (0 : BitVec 2) ++ bit1 sat ++ t.code, d, a }
  | .idiv c t d a b => some ({ Raw.base 0x2E c with d, a }.withB ((0 : BitVec 2) ++ t.code) b)
  | .irem c t d a b => some ({ Raw.base 0x2F c with d, a }.withB ((0 : BitVec 2) ++ t.code) b)
  | .and c d a b => some ({ Raw.base 0x30 c with d, a }.withB 0 b)
  | .or c d a b => some ({ Raw.base 0x31 c with d, a }.withB 0 b)
  | .xor c d a b => some ({ Raw.base 0x32 c with d, a }.withB 0 b)
  | .andn c d a b => some ({ Raw.base 0x33 c with d, a }.withB 0 b)
  | .blut c lut d a b r => some { Raw.base 0x34 c with d, a, b, c := r, x := (0 : BitVec 3) ++ lut }
  | .shl c d a b => some ({ Raw.base 0x35 c with d, a }.withB 0 b)
  | .shr c d a b => some ({ Raw.base 0x36 c with d, a }.withB 0 b)
  | .sar c d a b => some ({ Raw.base 0x37 c with d, a }.withB 0 b)
  | .rot c right d a b => some ({ Raw.base 0x38 c with d, a }.withB ((0 : BitVec 4) ++ bit1 right) b)
  | .fshf c left d a b r => some ({ Raw.base 0x39 c with d, a }.withBC ((0 : BitVec 4) ++ bit1 left) b r)
  | .bfx c signed d a b => some ({ Raw.base 0x3A c with d, a }.withB ((0 : BitVec 4) ++ bit1 signed) b)
  | .bfi c d a b r => some ({ Raw.base 0x3B c with d, a }.withBC 0 b r)
  | .popc c d a => some { Raw.base 0x3C c with d, a }
  | .clz c d a => some { Raw.base 0x3D c with d, a }
  | .ctz c d a => some { Raw.base 0x3E c with d, a }
  | .brev c d a => some { Raw.base 0x3F c with d, a }
  | .icmp c t cmp comb bit d a b =>
    some ({ Raw.base 0x40 c with d, a, x := cmpX comb cmp.code bit }.withB ((0 : BitVec 2) ++ t.code) b)
  | .sel c bit d a b r => some ({ Raw.base 0x41 c with d, a }.withBC bit b r)
  | .lea c x3 z s d a b => some ({ Raw.base 0x42 c with d, a }.withB (bit1 z ++ bit1 x3 ++ s) b)
  | .mov c d s =>
    match s with
    | .reg a => some { Raw.base 0x43 c with d, a }
    | .pair a => some { Raw.base 0x43 c with mod := 1, d, a }
    | .imm v => some ({ Raw.base 0x43 c with d }.withB 0 (.imm v))
  | .movi c d imm => some (Raw.ofL 0x44 c d imm)
  | .pset c z comb bit d a b =>
    some ({ Raw.base 0x45 c with d, a, x := cmpX comb ((0 : BitVec 2) ++ bit1 z) bit }.withB 0 b)
  | .bmsk c d a b => some ({ Raw.base 0x46 c with d, a }.withB 0 b)
  | .fadd c m d a b => some ({ Raw.base 0x48 c with d, a }.withB ((0 : BitVec 3) ++ m.code) b)
  | .fsub c m d a b => some ({ Raw.base 0x49 c with d, a }.withB ((0 : BitVec 3) ++ m.code) b)
  | .fmul c m d a b => some ({ Raw.base 0x4A c with d, a }.withB ((0 : BitVec 3) ++ m.code) b)
  | .ffma c m d a b r => some ({ Raw.base 0x4B c with d, a }.withBC ((0 : BitVec 3) ++ m.code) b r)
  | .fmin c d a b => some ({ Raw.base 0x4C c with d, a }.withB 0 b)
  | .fmax c d a b => some ({ Raw.base 0x4D c with d, a }.withB 0 b)
  | .fcmp c cmp comb bit d a b => some ({ Raw.base 0x4E c with d, a, x := cmpX comb cmp.code bit }.withB 0 b)
  | .fclass c comb bit d a b => some ({ Raw.base 0x4F c with d, a, x := cmpX comb 0 bit }.withB 0 b)
  | .frnd c m d a b => some ({ Raw.base 0x50 c with d, a }.withB ((0 : BitVec 3) ++ m.code) b)
  | .fscalb c m d a b => some ({ Raw.base 0x51 c with d, a }.withB ((0 : BitVec 3) ++ m.code) b)
  | .fclamp c d a b r => some ({ Raw.base 0x52 c with d, a }.withBC 0 b r)
  | .frcp c m d a => some { Raw.base 0x58 c with mod := (0 : BitVec 4) ++ m.code, d, a }
  | .frsq c m d a => some { Raw.base 0x59 c with mod := (0 : BitVec 4) ++ m.code, d, a }
  | .fsqrt c m d a => some { Raw.base 0x5A c with mod := (0 : BitVec 4) ++ m.code, d, a }
  | .fdiv c m d a b => some { Raw.base 0x5B c with mod := (0 : BitVec 4) ++ m.code, d, a, b }
  | .fex2 c d a => some { Raw.base 0x5C c with d, a }
  | .flg2 c d a => some { Raw.base 0x5D c with d, a }
  | .fsin c d a => some { Raw.base 0x5E c with d, a }
  | .fcos c d a => some { Raw.base 0x5F c with d, a }
  | .ftanh c d a => some { Raw.base 0x60 c with d, a }
  | .fsigm c d a => some { Raw.base 0x61 c with d, a }
  | .hadd2 c bf m d a b => some { Raw.base 0x64 c with mod := (0 : BitVec 3) ++ bit1 bf ++ m.code, d, a, b }
  | .hmul2 c bf m d a b => some { Raw.base 0x65 c with mod := (0 : BitVec 3) ++ bit1 bf ++ m.code, d, a, b }
  | .hfma2 c bf m d a b r => some { Raw.base 0x66 c with mod := (0 : BitVec 3) ++ bit1 bf ++ m.code, d, a, b, c := r }
  | .hmnmx2 c mx bf d a b => some { Raw.base 0x67 c with mod := (0 : BitVec 2) ++ bit1 mx ++ bit1 bf ++ (0 : BitVec 2), d, a, b }
  | .hcmp2 c bf cmp comb bit d a b =>
    some { Raw.base 0x68 c with mod := (0 : BitVec 3) ++ bit1 bf ++ (0 : BitVec 2), d, a, b, x := cmpX comb cmp.code bit }
  | .dadd c m d a b => some { Raw.base 0x6C c with mod := (0 : BitVec 4) ++ m.code, d, a, b }
  | .dmul c m d a b => some { Raw.base 0x6D c with mod := (0 : BitVec 4) ++ m.code, d, a, b }
  | .dfma c m d a b r => some { Raw.base 0x6E c with mod := (0 : BitVec 4) ++ m.code, d, a, b, c := r }
  | .dmnmx c mx d a b => some { Raw.base 0x6F c with mod := (0 : BitVec 2) ++ bit1 mx ++ (0 : BitVec 3), d, a, b }
  | .dcmp c cmp comb bit d a b => some { Raw.base 0x70 c with d, a, b, x := cmpX comb cmp.code bit }
  | .drnd c m d a => some { Raw.base 0x71 c with mod := (0 : BitVec 4) ++ m.code, d, a }
  | .fcvt c dst src sat m dsel ssel d a =>
    some { Raw.base 0x74 c with
      mod := (0 : BitVec 3) ++ bit1 sat ++ m.code, d, a, x := (0 : BitVec 1) ++ dsel ++ ssel ++ src.code ++ dst.code }
  | .f2i c it ft m ssel d a =>
    some { Raw.base 0x75 c with mod := (0 : BitVec 4) ++ m.code, d, a, x := (0 : BitVec 3) ++ ssel ++ ft.code ++ it.code }
  | .i2f c ft it sat m dsel d a =>
    some { Raw.base 0x76 c with
      mod := (0 : BitVec 3) ++ bit1 sat ++ m.code, d, a,
      x := (0 : BitVec 1) ++ dsel ++ (0 : BitVec 2) ++ it.code ++ ft.code }
  | .dot2 c bf m d a b r => some { Raw.base 0x77 c with mod := (0 : BitVec 3) ++ bit1 bf ++ m.code, d, a, b, c := r }
  | .dot4 c ae be m d a b r =>
    some { Raw.base 0x78 c with mod := (0 : BitVec 2) ++ bit1 be ++ bit1 ae ++ m.code, d, a, b, c := r }
  | .shfl c mode w d a b => some ({ Raw.base 0x80 c with d, a }.withB (w ++ mode.code) b)
  | .vote c mode bit d a => some { Raw.base 0x81 c with mod := (0 : BitVec 4) ++ mode.code, d, a, x := (0 : BitVec 6) ++ bit }
  | .bcast c w d a b => some ({ Raw.base 0x82 c with d, a }.withB ((0 : BitVec 4) ++ bit1 w) b)
  | .lred c op s m d a =>
    some { Raw.base 0x83 c with mod := (0 : BitVec 2) ++ m.code ++ (0 : BitVec 1) ++ bit1 s, d, a, x := (0 : BitVec 7) ++ op.code }
  | .lscan c op exc s m d a =>
    some { Raw.base 0x84 c with mod := (0 : BitVec 2) ++ m.code ++ bit1 exc ++ bit1 s, d, a, x := (0 : BitVec 7) ++ op.code }
  | .matchL c dbl d a => some { Raw.base 0x85 c with mod := (0 : BitVec 5) ++ bit1 dbl, d, a }
  | .actm c d => some { Raw.base 0x86 c with d }
  | .ldg c size na d m => some ({ Raw.base 0x88 c with mod := size.code ++ (0 : BitVec 2) ++ bit1 na, d }.withMem m)
  | .stg c size d m => some ({ Raw.base 0x89 c with mod := size.code ++ (0 : BitVec 3), d }.withMem m)
  | .lds c size d m => some ({ Raw.base 0x8A c with mod := size.code ++ (0 : BitVec 3), d }.withMem m)
  | .sts c size d m => some ({ Raw.base 0x8B c with mod := size.code ++ (0 : BitVec 3), d }.withMem m)
  | .ldr c size d m => some ({ Raw.base 0x8C c with mod := size.code ++ (0 : BitVec 3), d }.withMem m)
  | .str c size d m => some ({ Raw.base 0x8D c with mod := size.code ++ (0 : BitVec 3), d }.withMem m)
  | .atomg c op dbl scope ntf d a b n => some { Raw.base 0x8E c with mod := dblMod dbl 0, d, a, b, c := n, x := atomX ntf scope op }
  | .redg c op dbl scope ntf a b => some { Raw.base 0x8F c with mod := dblMod dbl 0, a, b, x := atomX ntf scope op }
  | .atoms c op dbl d a b n => some { Raw.base 0x90 c with mod := dblMod dbl 0, d, a, b, c := n, x := atomX false .core op }
  | .phase c opt scope => some { Raw.base 0x91 c with mod := (0 : BitVec 1) ++ scope.code ++ opt.code }
  | .cmaint c op lvl a b => some { Raw.base 0x92 c with mod := (0 : BitVec 2) ++ lvl.code ++ op.code, a, b }
  | .pref c l2 m => some ({ Raw.base 0x93 c with mod := Size.b32.code ++ (0 : BitVec 2) ++ bit1 l2 }.withMem m)
  | .waycfg c d b => some ({ Raw.base 0x94 c with d }.withB 0 b)
  | .spmark c st a b => some ({ Raw.base 0x95 c with a }.withB ((0 : BitVec 3) ++ st.code) b)
  | .sptest c d b => some ({ Raw.base 0x96 c with d }.withB 0 b)
  | .accld c a b r => some { Raw.base 0x98 c with a, b, c := r }
  | .accst c a b r => some { Raw.base 0x99 c with a, b, c := r }
  | .accz c a => some { Raw.base 0x9A c with a }
  | .acccp c a b => some { Raw.base 0x9B c with a, b }
  | .acccv c fmt sat m a b r =>
    some { Raw.base 0x9C c with a, b, c := r, x := (0 : BitVec 5) ++ bit1 sat ++ m.code ++ fmt.code }
  | .mmaf c cv a b => some { Raw.base 0xA0 c with a, b, x := cvX cv 0 0 }
  | .mmab c cv a b => some { Raw.base 0xA1 c with a, b, x := cvX cv 0 0 }
  | .mmah c cv a b => some { Raw.base 0xA2 c with a, b, x := cvX cv 0 0 }
  | .mmae4 c sc cv ba bb a b r d => some { Raw.base 0xA3 c with mod := (0 : BitVec 5) ++ bit1 sc, d, a, b, c := r, x := cvX cv ba bb }
  | .mmae5 c sc cv ba bb a b r d => some { Raw.base 0xA4 c with mod := (0 : BitVec 5) ++ bit1 sc, d, a, b, c := r, x := cvX cv ba bb }
  | .mman c ka kb cv ba bb a b r d => some { Raw.base 0xA5 c with mod := kb ++ ka, d, a, b, c := r, x := cvX cv ba bb }
  | .merr c d => some { Raw.base 0xA6 c with d }
  | .plpack c p d a => some { Raw.base 0xA7 c with mod := (0 : BitVec 3) ++ p, d, a }
  | .plunpk c k val d a stride chunk =>
    some { Raw.base 0xA8 c with mod := (0 : BitVec 2) ++ bit1 val ++ k, d, a, x := stride ++ chunk }
  | .bscale c tgt d a => some { Raw.base 0xA9 c with mod := (0 : BitVec 4) ++ tgt.code, d, a }
  | .sccv c tgt sat m dby sby d a b =>
    some { Raw.base 0xAA c with mod := (0 : BitVec 3) ++ bit1 sat ++ m.code, d, a, b, x := (0 : BitVec 5) ++ tgt.code ++ sby ++ dby }
  | .mred c bf init d a b r => some { Raw.base 0xAB c with d, a, b, c := r, x := (0 : BitVec 9) ++ bit1 init ++ bit1 bf }
  | .mrsc c bf a b r => some { Raw.base 0xAC c with a, b, c := r, x := (0 : BitVec 10) ++ bit1 bf }
  | .qpush c q a => some { Raw.base 0xB0 c with a, x := q.code ++ (0 : BitVec 8) }
  | .qpop c d q => some { Raw.base 0xB1 c with d, x := q.code ++ (0 : BitVec 8) }
  | .qtry c d q => some { Raw.base 0xB2 c with d, x := q.code ++ (0 : BitVec 8) }
  | .qlvl c d q => some { Raw.base 0xB3 c with d, x := q.code ++ (0 : BitVec 8) }
  | .cpyt c st a b r d => some { Raw.base 0xB4 c with mod := (0 : BitVec 5) ++ bit1 st, d, a, b, c := r }
  | .cpyl c dir a b r d => some { Raw.base 0xB5 c with mod := (0 : BitVec 4) ++ dir.code, d, a, b, c := r }
  | .cpyh c put a b r => some { Raw.base 0xB6 c with mod := (0 : BitVec 5) ++ bit1 put, a, b, c := r }
  | .gath c l2 a b => some { Raw.base 0xB7 c with mod := (0 : BitVec 5) ++ bit1 l2, a, b }
  | .scat c a b => some { Raw.base 0xB8 c with a, b }
  | .layx c a b => some { Raw.base 0xB9 c with a, b }
  | .waitc c cls n => some { Raw.base 0xBA c with mod := n, x := (0 : BitVec 7) ++ cls.code }
  | .send c g a b => some { Raw.base 0xBB c with mod := (0 : BitVec 5) ++ bit1 g, a, b }
  | .sendl c g a b => some { Raw.base 0xBC c with mod := (0 : BitVec 5) ++ bit1 g, a, b }
  | .postr c d a => some { Raw.base 0xBD c with d, a }
  | .canrv c d a => some { Raw.base 0xBE c with d, a }
  | .probe c d a => some { Raw.base 0xBF c with d, a }
  | .mfsr c w d num => some ({ Raw.base 0xE0 c with d }.withB ((0 : BitVec 4) ++ bit1 w) (.imm num))
  | .mtsr c w num a => some ({ Raw.base 0xE1 c with a }.withB ((0 : BitVec 4) ++ bit1 w) (.imm num))
  | .rte c act d a => some { Raw.base 0xE2 c with mod := (0 : BitVec 4) ++ act.code, d, a }
  | .ctxsv c d a b => some { Raw.base 0xE3 c with d, a, b }
  | .ctxld c d a b => some { Raw.base 0xE4 c with d, a, b }
  | .tinv c d a => some { Raw.base 0xE5 c with d, a }
  | .prsrs c act d a => some { Raw.base 0xE6 c with mod := (0 : BitVec 4) ++ act.code, d, a }
  | .halt c d a => some { Raw.base 0xE7 c with d, a }
  | .idle c d => some { Raw.base 0xE8 c with d }
  | .fwsig c d a => some { Raw.base 0xE9 c with d, a }
  | .keyld c d a b => some { Raw.base 0xEA c with d, a, b }
  | .tckt c clr d a b => some { Raw.base 0xEB c with mod := (0 : BitVec 5) ++ bit1 clr, d, a, b }
  | .scrub c tgt d a b => some { Raw.base 0xEC c with mod := (0 : BitVec 4) ++ tgt.code, d, a, b }
  | .dbgrd c d a b => some { Raw.base 0xED c with d, a, b }
  | .dbgwr c d a b r => some { Raw.base 0xEE c with d, a, b, c := r }
  | _ => none

/-- The word of a header (R81). -/
def encodeHeader (n : BitVec 4) (pipes : BitVec 3) (wait : BitVec 12) (sa sb : BitVec 4) : BitVec 80 :=
  (0 : BitVec 8) ++ n ++ pipes ++ wait ++ sa ++ sb ++ (0 : BitVec 45)

/-- The word of an instruction; `none` for an event (R73, R81). -/
def encode? : Instr → Option (BitVec 80)
  | .hdr n pipes wait sa sb => some (encodeHeader n pipes wait sa sb)
  | i => i.raw?.map Raw.word

/-- The ten bytes of a word, byte 0 first (R4). -/
def bytesOfWord (w : BitVec 80) : List Byte := leBytes 10 w.toNat

end Sys2Proof
end

