-- ==== Sys2Proof/Machine/Num.lean ====
section
/-! DEFINITION. Number formats and arithmetic (R53 to R72): exact values, decoding, the one rounding of R57, and the helpers of R58, R61, R63, R65 and R72. -/

namespace Sys2Proof.Machine

/-! ### Integer helpers (R61) -/

/-- `wrap(x, w)` as a natural number below 2^w (R61). -/
def wrapN (x : Int) (w : Nat) : Nat := (x % (2 ^ w : Nat)).toNat
/-- `zext(x, w)` of a bit pattern (R61). -/
def zext (x w : Nat) : Nat := x % 2 ^ w
/-- `sext(x, w)` of a bit pattern (R61). -/
def sext (x w : Nat) : Int := let v := x % 2 ^ w; if 2 * v < 2 ^ w then (v : Int) else (v : Int) - (2 ^ w : Nat)
/-- The bounds of R58. -/
def intMax (w : Nat) (signed : Bool) : Int := if signed then (2 ^ (w - 1) : Nat) - 1 else (2 ^ w : Nat) - 1
/-- The bounds of R58. -/
def intMin (w : Nat) (signed : Bool) : Int := if signed then -((2 ^ (w - 1) : Nat) : Int) else 0
/-- `sat(x, w, signed)` (R61). -/
def satI (x : Int) (w : Nat) (signed : Bool) : Int := max (intMin w signed) (min x (intMax w signed))
/-- ⌈a / b⌉ on naturals, for b > 0. -/
def ceilDiv (a b : Nat) : Nat := (a + (b - 1)) / b

/-! ### Exact values -/

/-- An exact value: NaN, a signed infinity, or ± n / d with d > 0; a zero keeps its sign (R53, R57). -/
inductive XR where
  | nan
  | inf (neg : Bool)
  | fin (neg : Bool) (n d : Nat)
  deriving DecidableEq, Repr

/-- A signed zero. -/
def XR.zero (neg : Bool) : XR := .fin neg 0 1
/-- NaN. -/
def XR.isNan : XR → Bool | .nan => true | _ => false
/-- A zero of either sign. -/
def XR.isZero : XR → Bool | .fin _ 0 _ => true | _ => false
/-- An infinity. -/
def XR.isInf : XR → Bool | .inf _ => true | _ => false
/-- The sign of a value that is not NaN. -/
def XR.neg : XR → Bool | .nan => false | .inf s => s | .fin s _ _ => s
/-- −x; a NaN stays a NaN (R146). -/
def XR.negate : XR → XR | .nan => .nan | .inf s => .inf (!s) | .fin s n d => .fin (!s) n d
/-- An integer as an exact value. -/
def XR.ofInt (i : Int) : XR := .fin (i < 0) i.natAbs 1

/-- The exact product, with a zero or infinite one signed by the exclusive or (R144); the flag says that it is invalid (R55). -/
def XR.mul (a b : XR) : XR × Bool :=
  match a, b with
  | .nan, .inf _ => (.nan, false)
  | .nan, _ => (.nan, false)
  | _, .nan => (.nan, false)
  | .inf s, .inf t => (.inf (s != t), false)
  | .inf s, .fin t n _ => if n = 0 then (.nan, true) else (.inf (s != t), false)
  | .fin t n _, .inf s => if n = 0 then (.nan, true) else (.inf (s != t), false)
  | .fin s n d, .fin t m e => (.fin (s != t) (n * m) (d * e), false)

/-- The exact signed numerator of a finite value over a denominator that its own divides. -/
def XR.over (x : XR) (den : Nat) : Int :=
  match x with | .fin s n d => (if s then -1 else 1) * ((n * (den / d) : Nat) : Int) | _ => 0

/-- The denominator of a value. -/
def XR.den : XR → Nat | .fin _ _ d => d | _ => 1

/-- `xsum(list)` with the zero rule of R72 (mode RN, RZ or RU) or of R144 under RD; the flag says that +∞ and −∞ met, no NaN beside them (R55). -/
def xsumM (mode : RMode) (l : List XR) : XR × Bool :=
  let pos := l.any fun x => x == .inf false
  let ng := l.any fun x => x == .inf true
  if l.any XR.isNan then (.nan, false)
  else if pos && ng then (.nan, true)
  else if pos then (.inf false, false)
  else if ng then (.inf true, false)
  else
    let den := l.foldl (fun a x => Nat.lcm a x.den) 1
    let num := l.foldl (fun a x => a + x.over den) (0 : Int)
    if num = 0 then
      if l.all fun x => x.isZero && x.neg then (XR.zero true, false)
      else if l.all fun x => x.isZero && !x.neg then (XR.zero false, false)
      else (XR.zero (mode == .rd), false)
    else (.fin (num < 0) num.natAbs den, false)

/-- `xsum(list)` (R72). -/
def xsum (l : List XR) : XR := (xsumM .rn l).1

/-- a < b on values that are not NaN; −0 and +0 are equal. -/
def XR.lt (a b : XR) : Bool :=
  match a, b with
  | .nan, _ => false
  | _, .nan => false
  | .inf s, .inf t => s && !t
  | .inf s, .fin _ _ _ => s
  | .fin _ _ _, .inf t => !t
  | .fin s n d, .fin t m e =>
    let x : Int := (if s then -1 else 1) * ((n * e : Nat) : Int)
    let y : Int := (if t then -1 else 1) * ((m * d : Nat) : Int)
    x < y

/-- a = b on values that are not NaN; −0 and +0 are equal. -/
def XR.eqv (a b : XR) : Bool := !a.isNan && !b.isNan && !a.lt b && !b.lt a

/-! ### Formats (R53, R54) -/

/-- Fraction bits. -/
def FFmt.frac : FFmt → Nat | .f64 => 52 | .f32 => 23 | .f16 => 10 | .bf16 => 7 | .f8e4 => 3 | .f8e5 => 2
/-- Exponent bits. -/
def FFmt.exp : FFmt → Nat | .f64 => 11 | .f32 => 8 | .f16 => 5 | .bf16 => 8 | .f8e4 => 4 | .f8e5 => 5
/-- Exponent bias. -/
def FFmt.bias : FFmt → Nat | .f64 => 1023 | .f32 => 127 | .f16 => 15 | .bf16 => 127 | .f8e4 => 7 | .f8e5 => 15
/-- Width in bits. -/
def FFmt.bits : FFmt → Nat | .f64 => 64 | .f32 => 32 | .f16 => 16 | .bf16 => 16 | .f8e4 => 8 | .f8e5 => 8
/-- The format has infinities. -/
def FFmt.hasInf : FFmt → Bool | .f8e4 => false | _ => true
/-- The bit pattern of the largest finite value, without sign. -/
def FFmt.maxBits (f : FFmt) : Nat :=
  match f with | .f8e4 => 0x7E | _ => (2 ^ FFmt.exp f - 1) * 2 ^ FFmt.frac f - 1
/-- The bit pattern of +∞, where the format has it. -/
def FFmt.infBits (f : FFmt) : Nat := (2 ^ FFmt.exp f - 1) * 2 ^ FFmt.frac f
/-- The sign bit in its place. -/
def FFmt.signBit (f : FFmt) (s : Bool) : Nat := if s then 2 ^ (FFmt.bits f - 1) else 0

/-- `cnan(fmt)` (R54). -/
def cnan : FFmt → Nat
  | .f64 => 0x7FF8000000000000 | .f32 => 0x7FC00000 | .f16 => 0x7E00 | .bf16 => 0x7FC0 | .f8e4 => 0x7F | .f8e5 => 0x7E

/-- 2^e as a pair of numerator and denominator. -/
def pow2 (e : Int) : Nat × Nat := if 0 ≤ e then (2 ^ e.toNat, 1) else (1, 2 ^ (-e).toNat)

/-- `dec(fmt, bits)` (R53). -/
def dec (f : FFmt) (bits : Nat) : XR :=
  let fr := FFmt.frac f
  let s := (bits / 2 ^ (FFmt.bits f - 1)) % 2 = 1
  let e := (bits / 2 ^ fr) % 2 ^ FFmt.exp f
  let m := bits % 2 ^ fr
  let emax := 2 ^ FFmt.exp f - 1
  if e = emax && FFmt.hasInf f then (if m = 0 then .inf s else .nan)
  else if e = emax && m = 7 then .nan
  else
    let (mant, ex) := if e = 0 then (m, 1) else (m + 2 ^ fr, e)
    let (a, b) := pow2 ((ex : Int) - FFmt.bias f - fr)
    .fin s (mant * a) b

/-- `is_snan(bits, fmt)` (R54). -/
def isSnan (f : FFmt) (bits : Nat) : Bool :=
  (dec f bits).isNan && FFmt.hasInf f && (bits / 2 ^ (FFmt.frac f - 1)) % 2 = 0

/-! ### Flags of `WSTAT[4:0]` (R59) -/

/-- Invalid. -/
def fNV : BitVec 12 := 1
/-- Divide by zero. -/
def fDZ : BitVec 12 := 2
/-- Overflow. -/
def fOF : BitVec 12 := 4
/-- Underflow. -/
def fUF : BitVec 12 := 8
/-- Inexact. -/
def fNX : BitVec 12 := 16
/-- A flag when the condition holds. -/
def flagIf (b : Bool) (f : BitVec 12) : BitVec 12 := if b then f else 0

/-! ### Rounding (R56 to R58) -/

/-- n / d rounded to a natural number by mode, for a value of the given sign. -/
def roundDiv (mode : RMode) (neg : Bool) (n d : Nat) : Nat :=
  let q := n / d
  let r := n % d
  let up : Bool :=
    match mode with
    | .rn => decide (d < 2 * r) || (decide (2 * r = d) && decide (q % 2 = 1))
    | .rz => false
    | .rd => neg && r != 0
    | .ru => !neg && r != 0
  if up then q + 1 else q

/-- ⌊log₂(n / d)⌋ for n, d > 0. -/
def log2Div (n d : Nat) : Int :=
  let l : Int := (Nat.log2 n : Int) - Nat.log2 d
  let (a, b) := pow2 l
  if n * b < d * a then l - 1 else l

/-- The bit pattern of a signed infinity, or `cnan` where the format has none (R57). -/
def infPat (f : FFmt) (s : Bool) : Nat := if FFmt.hasInf f then FFmt.signBit f s + FFmt.infBits f else cnan f

/-- The result of an overflow (R57 step 5). -/
def overflowPat (f : FFmt) (mode : RMode) (sat s : Bool) : Nat :=
  let big := FFmt.signBit f s + FFmt.maxBits f
  if sat then big
  else match mode with
    | .rn => infPat f s
    | .rz => big
    | .rd => if s then infPat f s else big
    | .ru => if s then big else infPat f s

/-- `round_fmt(x, fmt, mode, sat)` with the flags it raises (R57). -/
def roundFmt (x : XR) (f : FFmt) (mode : RMode) (sat : Bool) : Nat × BitVec 12 :=
  match x with
  | .nan => (cnan f, 0)
  | .inf s =>
    if sat then (FFmt.signBit f s + FFmt.maxBits f, fNX)
    else if FFmt.hasInf f then (infPat f s, 0)
    else (cnan f, fNV)
  | .fin s n d =>
    if n = 0 then (FFmt.signBit f s, 0)
    else
      let fr := FFmt.frac f
      let emin : Int := 1 - (FFmt.bias f : Int)
      let l := log2Div n d
      let st : Int := max l emin - fr
      let (a, b) := pow2 st
      let q := roundDiv mode s (n * b) (d * a)
      let inexact := q * (d * a) != n * b
      let pat := (st - (emin - fr)).toNat * 2 ^ fr + q
      if FFmt.maxBits f < pat then (overflowPat f mode sat s, fOF ||| fNX)
      else (FFmt.signBit f s + pat, flagIf inexact fNX ||| flagIf (decide (l < emin) && inexact) fUF)

/-- `round_rn(x, fmt)` without its flags. -/
def roundRn (x : XR) (f : FFmt) : Nat := (roundFmt x f .rn false).1

/-- `enc(fmt, v)` of a value the format represents exactly (R72). -/
def enc (f : FFmt) (x : XR) : Nat := roundRn x f

/-- `to_int(x, w, signed, mode)` with the flags it raises (R58). -/
def toInt (x : XR) (w : Nat) (signed : Bool) (mode : RMode) : Int × BitVec 12 :=
  match x with
  | .nan => (0, fNV)
  | .inf s => (if s then intMin w signed else intMax w signed, fNV)
  | .fin s n d =>
    let q := roundDiv mode s n d
    let v : Int := if s then -(q : Int) else q
    if v < intMin w signed then (intMin w signed, fNV)
    else if intMax w signed < v then (intMax w signed, fNV)
    else (v, flagIf (q * d != n) fNX)

/-- ⌊x⌋ of a finite value. -/
def XR.floorInt (x : XR) : Int :=
  match x with | .fin s n d => if s then -((ceilDiv n d : Nat) : Int) else ((n / d : Nat) : Int) | _ => 0

/-! ### Nested codes and block scales (R62 to R65) -/

/-- `nested_val(σ, m, k)` (R63). -/
def nestedVal (sg : Bool) (m k : Nat) : Int :=
  let t := m / 2 ^ (8 - k)
  let h := if k < 8 && t != 0 then 1 else 0
  let v : Int := ((2 * t + h) * 2 ^ (8 - k) / 2 : Nat)
  if sg then -v else v

/-- A block scale (R65). -/
inductive Sc8 where
  | zero
  | invalid
  | fin (n d : Nat)
  deriving DecidableEq, Repr

/-- `sc8_val(code)` (R65): bits 7 to 3 the exponent, bits 2 to 0 the fraction. -/
def sc8Val (code : Nat) : Sc8 :=
  let e := (code / 8) % 32
  let f := code % 8
  if e = 0 then .zero
  else if e = 31 then .invalid
  else
    let (a, b) := pow2 ((e : Int) - 20)
    .fin ((8 + f) * a) (8 * b)

/-! ### Exact FP operations with their flags -/

/-- Invalid for a signalling NaN among the operands (R55). -/
def snanFlag (f : FFmt) (l : List Nat) : BitVec 12 := flagIf (l.any fun b => isSnan f b) fNV

/-- A rounded sum of two operands (R146). -/
def fpAdd (f : FFmt) (mode : RMode) (a b : Nat) : Nat × BitVec 12 :=
  let (x, inv) := xsumM mode [dec f a, dec f b]
  let (r, fl) := roundFmt x f mode false
  (r, fl ||| flagIf inv fNV ||| snanFlag f [a, b])

/-- A rounded difference of two operands (R146). -/
def fpSub (f : FFmt) (mode : RMode) (a b : Nat) : Nat × BitVec 12 :=
  let (x, inv) := xsumM mode [dec f a, (dec f b).negate]
  let (r, fl) := roundFmt x f mode false
  (r, fl ||| flagIf inv fNV ||| snanFlag f [a, b])

/-- A rounded product of two operands (R146). -/
def fpMul (f : FFmt) (mode : RMode) (a b : Nat) : Nat × BitVec 12 :=
  let (x, inv) := (dec f a).mul (dec f b)
  let (r, fl) := roundFmt x f mode false
  (r, fl ||| flagIf inv fNV ||| snanFlag f [a, b])

/-- A fused multiply-add with one rounding (R146): 0 · ∞ + c is invalid whatever c is (R55). -/
def fpFma (f : FFmt) (mode : RMode) (a b c : Nat) : Nat × BitVec 12 :=
  let (p, inv1) := (dec f a).mul (dec f b)
  let (x, inv2) := xsumM mode [p, dec f c]
  let (r, fl) := roundFmt x f mode false
  (r, fl ||| flagIf (inv1 || (inv2 && !(dec f c).isNan)) fNV ||| snanFlag f [a, b, c])

/-- `mn` and `mx` of R148. -/
def fpMinMax (f : FFmt) (mx : Bool) (a b : Nat) : Nat :=
  let x := dec f a
  let y := dec f b
  if x.isNan && y.isNan then cnan f
  else if x.isNan then b
  else if y.isNan then a
  else if x.isZero && y.isZero then
    if mx then FFmt.signBit f (x.neg && y.neg) else FFmt.signBit f (x.neg || y.neg)
  else if mx then (if x.lt y then b else a)
  else (if y.lt x then b else a)

/-- A float comparison and its flag (R149). -/
def fpCmp (f : FFmt) (cmp : FCmp) (a b : Nat) : Bool × BitVec 12 :=
  let x := dec f a
  let y := dec f b
  let un := x.isNan || y.isNan
  let sn := isSnan f a || isSnan f b
  match cmp with
  | .eq => (x.eqv y, flagIf sn fNV)
  | .ne => (!x.eqv y, flagIf sn fNV)
  | .lt => (!un && x.lt y, flagIf un fNV)
  | .le => (!un && !y.lt x, flagIf un fNV)
  | .gt => (!un && y.lt x, flagIf un fNV)
  | .ge => (!un && !x.lt y, flagIf un fNV)
  | .num => (!un, flagIf sn fNV)
  | .nan => (un, flagIf sn fNV)

/-- The class of R150. -/
def fpClass (f : FFmt) (b : Nat) : Nat :=
  match dec f b with
  | .nan => if isSnan f b then 0 else 1
  | .inf s => if s then 2 else 9
  | .fin s n _ =>
    let sub := (b / 2 ^ FFmt.frac f) % 2 ^ FFmt.exp f = 0
    if n = 0 then (if s then 5 else 6)
    else if sub then (if s then 4 else 7)
    else (if s then 3 else 8)

/-- A finite non-zero value rounded to a whole multiple of 2^k (R151, R161). -/
def rndStep (f : FFmt) (mode : RMode) (s : Bool) (n d : Nat) (k : Int) : Nat × BitVec 12 :=
  let (a, b) := pow2 k
  let q := roundDiv mode s (n * b) (d * a)
  let inexact := q * (d * a) != n * b
  if q = 0 then (FFmt.signBit f s, flagIf inexact fNX)
  else
    let (r, fl) := roundFmt (.fin s (q * a) b) f mode false
    (r, fl ||| flagIf inexact fNX)

/-- k when x = 2^k (R151). -/
def XR.exp2? (x : XR) : Option Int :=
  match x with
  | .fin false n d =>
    if n = 0 then none
    else
      let l := log2Div n d
      let (a, b) := pow2 l
      if n * b = d * a then some l else none
  | _ => none

/-- FRND of one operand and a step (R151). -/
def fpRnd (f : FFmt) (mode : RMode) (a s : Nat) : Nat × BitVec 12 :=
  match (dec f s).exp2? with
  | none => (cnan f, fNV)
  | some k =>
    match dec f a with
    | .nan => (cnan f, snanFlag f [a])
    | .inf _ => (a, 0)
    | .fin sg n d => if n = 0 then (a, 0) else rndStep f mode sg n d k

/-- DRND: rounding to an integer (R161). -/
def fpRint (f : FFmt) (mode : RMode) (a : Nat) : Nat × BitVec 12 :=
  match dec f a with
  | .nan => (cnan f, snanFlag f [a])
  | .inf _ => (a, 0)
  | .fin sg n d => if n = 0 then (a, 0) else rndStep f mode sg n d 0

/-- FSCALB (R152). -/
def fpScalb (mode : RMode) (a b : Nat) : Nat × BitVec 12 :=
  let x := dec .f32 a
  let y := dec .f32 b
  if x.isNan || y.isNan then (cnan .f32, snanFlag .f32 [a, b])
  else
    let n : Int :=
      match y with
      | .inf s => if s then -512 else 512
      | _ => max (-512) (min 512 y.floorInt)
    match x with
    | .fin sg m d =>
      if m = 0 then (a, 0)
      else
        let (p, q) := pow2 n
        roundFmt (.fin sg (m * p) (d * q)) .f32 mode false
    | _ => (a, 0)

/-- A list of terms has +∞ and −∞ in it. -/
def bothInf (l : List XR) : Bool := (l.any fun x => x == .inf false) && l.any fun x => x == .inf true

/-- A dot product with an FP32 addend and one rounding (R166): a sum that meets +∞ and −∞ raises `NV`, also beside a quiet NaN (DEDUCED, log 120). -/
def fpDot (fa fb : FFmt) (mode : RMode) (as bs : List Nat) (c : Nat) : Nat × BitVec 12 :=
  let ps := (as.zip bs).map fun p => (dec fa p.1).mul (dec fb p.2)
  let terms := ps.map Prod.fst ++ [dec .f32 c]
  let (r, fl) := roundFmt (xsumM mode terms).1 .f32 mode false
  (r, fl ||| flagIf (bothInf terms || ps.any Prod.snd) fNV ||| snanFlag fa as ||| snanFlag fb bs ||| snanFlag .f32 [c])

/-! ### SFU functions (R153 to R156) -/

/-- ⌊√n⌋, by deciding its bits from bit `k` down. -/
def isqrtAux (n : Nat) : Nat → Nat → Nat
  | 0, r => r
  | k + 1, r => let t := r + 2 ^ k; isqrtAux n k (if t * t ≤ n then t else r)

/-- ⌊√n⌋. -/
def isqrt (n : Nat) : Nat := isqrtAux n (Nat.log2 n / 2 + 1) 0

/-- √(n / d) to 2^−k, with a stand-in strictly between two neighbours of that grid when it is not on it: every rounding
boundary of a format whose steps are coarser than the grid falls on the grid, so the stand-in rounds as the root does. -/
def sqrtX (n d k : Nat) : XR :=
  let m := n * 4 ^ k
  let r := isqrt (m / d)
  if r * r * d = m then .fin false r (2 ^ k) else .fin false (2 * r + 1) (2 ^ (k + 1))

/-- FSQRT (R154, R156). -/
def fpSqrt (mode : RMode) (a : Nat) : Nat × BitVec 12 :=
  match dec .f32 a with
  | .nan => (cnan .f32, snanFlag .f32 [a])
  | .inf s => if s then (cnan .f32, fNV) else (a, 0)
  | .fin s n d =>
    if n = 0 then (a, 0) else if s then (cnan .f32, fNV) else roundFmt (sqrtX n d 160) .f32 mode false

/-- FRSQ (R154, R156). -/
def fpRsq (mode : RMode) (a : Nat) : Nat × BitVec 12 :=
  match dec .f32 a with
  | .nan => (cnan .f32, snanFlag .f32 [a])
  | .inf s => if s then (cnan .f32, fNV) else (0, 0)
  | .fin s n d =>
    if n = 0 then (infPat .f32 s, fDZ) else if s then (cnan .f32, fNV) else roundFmt (sqrtX d n 160) .f32 mode false

/-- FDIV (R154). -/
def fpDiv (mode : RMode) (a b : Nat) : Nat × BitVec 12 :=
  let x := dec .f32 a
  let y := dec .f32 b
  let s := x.neg != y.neg
  match x, y with
  | .nan, _ => (cnan .f32, snanFlag .f32 [a, b])
  | _, .nan => (cnan .f32, snanFlag .f32 [a, b])
  | .inf _, .inf _ => (cnan .f32, fNV)
  | .inf _, .fin _ _ _ => (infPat .f32 s, 0)
  | .fin _ _ _, .inf _ => (FFmt.signBit .f32 s, 0)
  | .fin _ n d, .fin _ m e =>
    if m = 0 then (if n = 0 then (cnan .f32, fNV) else (infPat .f32 s, fDZ))
    else if n = 0 then (FFmt.signBit .f32 s, 0)
    else roundFmt (.fin s (n * e) (d * m)) .f32 mode false

/-- FRCP (R154, R156). -/
def fpRcp (mode : RMode) (a : Nat) : Nat × BitVec 12 :=
  match dec .f32 a with
  | .nan => (cnan .f32, snanFlag .f32 [a])
  | .inf s => (FFmt.signBit .f32 s, 0)
  | .fin s n d => if n = 0 then (infPat .f32 s, fDZ) else roundFmt (.fin s d n) .f32 mode false

/-- ln 2 · 2^w, from below by less than w + 1. -/
def ln2Fix (w : Nat) : Nat := ((List.range w).map fun k => 2 ^ w / ((k + 1) * 2 ^ (k + 1))).foldl (· + ·) 0

/-- atan(1/x) · 2^w, within 2 · w. -/
def atanInv (x w : Nat) : Int :=
  ((List.range (w / 2 + 1)).map fun k =>
    let t : Int := ((2 ^ w / ((2 * k + 1) * x ^ (2 * k + 1)) : Nat) : Int)
    if k % 2 = 0 then t else -t).foldl (· + ·) 0

/-- π · 2^w, within 2^(10) · w (Machin). -/
def piFix (w : Nat) : Nat := (16 * atanInv 5 w - 4 * atanInv 239 w).toNat

/-- Σ of a power series in fixed point: `t` is the term, `k` its number. -/
def seriesAux (step : Nat → Int → Int) : Nat → Nat → Int → Int → Int
  | 0, _, _, acc => acc
  | n + 1, k, t, acc => let t' := step k t; seriesAux step n (k + 1) t' (acc + t')

/-- e^(x / 2^w) · 2^w for 0 ≤ x < 2^w, within 2^12. -/
def expFix (w : Nat) (x : Int) : Int :=
  let one : Int := (2 ^ w : Nat)
  seriesAux (fun k t => t * x / one / (k + 1)) (w / 2 + 8) 0 one one

/-- 2^(n / d) · 2^(w − k) with k = ⌊n / d⌋ kept apart, for a value of the given sign, within 2^16. -/
def exp2Fix (w : Nat) (s : Bool) (n d : Nat) : Int × Int :=
  let v : Int := if s then -(n : Int) else n
  let k := v / (d : Int)
  let f := v - k * d
  let x := f * (ln2Fix w : Int) / (d : Int)
  (k, expFix w x)

/-- sin(x / 2^w) · 2^w for 0 ≤ x ≤ 2^(w+1), within 2^12. -/
def sinFix (w : Nat) (x : Int) : Int :=
  let one : Int := (2 ^ w : Nat)
  let x2 := x * x / one
  seriesAux (fun k t => -(t * x2 / one / ((2 * k + 2) * (2 * k + 3)))) (w / 4 + 8) 0 x x

/-- ln(n / d) · 2^w for 1 ≤ n / d < 2, within 2^12: 2 · atanh((n − d) / (n + d)). -/
def lnFix (w n d : Nat) : Int :=
  let one : Int := (2 ^ w : Nat)
  let z : Int := ((2 ^ w * (n - d) / (n + d) : Nat) : Int)
  let z2 := z * z / one
  2 * ((List.range (w / 3 + 4)).foldl
    (fun (p : Int × Int) (k : Nat) => (p.1 * z2 / one, p.2 + p.1 / (2 * (k : Int) + 1))) (z, 0)).2

/-- The FP32 rounding of a positive value known to lie within `e` of `v` over 2^w · 2^(−k), when both ends round alike;
a result of R155 is never exact. -/
def roundEnds (s : Bool) (v e : Int) (w : Nat) (k : Int) : Option (Nat × BitVec 12) :=
  if v - e ≤ 0 then none
  else
    let (a, b) := pow2 k
    let lo := roundFmt (.fin s ((v - e).toNat * a) (2 ^ w * b)) .f32 .rn false
    let hi := roundFmt (.fin s ((v + e).toNat * a) (2 ^ w * b)) .f32 .rn false
    if lo.1 = hi.1 then some (lo.1, lo.2 ||| hi.2 ||| fNX) else none

/-- One attempt at a transcendental function of a finite non-zero operand, with working precision w (R155). -/
def sfuTry (op w : Nat) (s : Bool) (n d : Nat) : Option (Nat × BitVec 12) :=
  let one : Int := (2 ^ w : Nat)
  let er : Int := (2 ^ 40 : Nat)
  match op with
  | 0x5C => -- 2^a
    if 200 * d ≤ n then
      (if s then some (0, fUF ||| fNX) else some (FFmt.infBits .f32, fOF ||| fNX))
    else
      let (k, v) := exp2Fix w s n d
      roundEnds false v er w k
  | 0x5D => -- log₂ a
    let l := log2Div n d
    let (p, q) := pow2 l
    let ln := lnFix w (n * q) (d * p)
    let v := l * one + ln * one / (ln2Fix w : Int)
    if v < 0 then roundEnds true (-v) er w 0 else roundEnds false v er w 0
  | 0x5E => -- sin 2πa
    let r := n % d
    let neg := d < 2 * r
    let h := if neg then d - r else r
    let t := if d < 4 * h then d - 2 * h else 2 * h
    roundEnds (s != neg) (sinFix w ((t : Int) * (piFix w : Int) / d)) er w 0
  | 0x5F => -- cos 2πa
    let r := n % d
    let h := if d < 2 * r then d - r else r
    let neg := d < 4 * h
    let t : Nat := if neg then 4 * h - d else d - 4 * h
    roundEnds neg (sinFix w ((t : Int) * (piFix w : Int) / (2 * d))) er w 0
  | 0x60 => -- tanh a
    if 64 * d ≤ n then some (FFmt.signBit .f32 s + 0x3F800000, fNX)
    else
      let y := exp2Fix w true (2 * n * 2 ^ w) (d * ln2Fix w)
      let e := y.2 / (2 ^ (-y.1).toNat : Nat)
      roundEnds s ((one - e) * one / (one + e)) er w 0
  | _ => -- 1 / (1 + e^−a)
    if 128 * d ≤ n then (if s then some (0, fUF ||| fNX) else some (0x3F800000, fNX))
    else
      let y := exp2Fix w true (n * 2 ^ w) (d * ln2Fix w)
      let e := y.2 / (2 ^ (-y.1).toNat : Nat)
      if s then roundEnds false (e * one / (one + e)) er w 0
      else roundEnds false (one * one / (one + e)) er w 0

/-- A transcendental function whose result is neither exact nor special (R155): the model's evaluation at two precisions,
and the opaque rounding where neither decides it. -/
def sfuInexact (op bits : Nat) (s : Bool) (n d : Nat) : Nat × BitVec 12 :=
  match sfuTry op 700 s n d with
  | some r => r
  | none =>
    match sfuTry op 1400 s n d with
    | some r => r
    | none => ((Config.sfuRound op (BitVec.ofNat 32 bits)).toNat, fNX)

/-- FEX2, FLG2, FSIN, FCOS, FTANH and FSIGM by opcode (R155, R156). -/
def fpSfu (op a : Nat) : Nat × BitVec 12 :=
  let one := 0x3F800000
  match dec .f32 a with
  | .nan => (cnan .f32, snanFlag .f32 [a])
  | .inf s =>
    match op with
    | 0x5C => (if s then 0 else FFmt.infBits .f32, 0)
    | 0x5D => if s then (cnan .f32, fNV) else (FFmt.infBits .f32, 0)
    | 0x5E => (cnan .f32, fNV)
    | 0x5F => (cnan .f32, fNV)
    | 0x60 => (FFmt.signBit .f32 s + one, 0)
    | _ => (if s then 0 else one, 0)
  | .fin s n d =>
    if n = 0 then
      match op with
      | 0x5C => (one, 0)
      | 0x5D => (infPat .f32 true, fDZ)
      | 0x5E => (a, 0)
      | 0x5F => (one, 0)
      | 0x60 => (a, 0)
      | _ => (0x3F000000, 0)
    else
      match op with
      | 0x5C =>
        if n % d = 0 && n / d ≤ 200 then
          let (p, q) := pow2 (if s then -((n / d : Nat) : Int) else ((n / d : Nat) : Int))
          roundFmt (.fin false p q) .f32 .rn false
        else sfuInexact op a s n d
      | 0x5D =>
        if s then (cnan .f32, fNV)
        else
          match (XR.fin false n d).exp2? with
          | some k => roundFmt (XR.ofInt k) .f32 .rn false
          | none => sfuInexact op a s n d
      | 0x5E =>
        if 2 * n % d = 0 then (FFmt.signBit .f32 s, 0)
        else if 4 * n % d = 0 then
          (FFmt.signBit .f32 (s != decide (4 * n / d % 4 = 3)) + one, 0)
        else sfuInexact op a s n d
      | 0x5F =>
        if 4 * n % d = 0 then
          match 4 * n / d % 4 with
          | 0 => (one, 0)
          | 2 => (FFmt.signBit .f32 true + one, 0)
          | _ => (0, 0)
        else sfuInexact op a s n d
      | _ => sfuInexact op a s n d

end Sys2Proof.Machine
end

