-- ==== Sys2Proof/Machine/State.lean ====
section
/-! DEFINITION. The state of the package: everything spec/ gives the machine, as plain data. Each field's comment ends with its width, the rule that names it, and its value at reset. -/

namespace Sys2Proof.Machine

/-! ### Waves -/

/-- One entry of a wave's PC table (R27). -/
structure PcEntry where
  /-- exited, or no thread in the lane (1 bit; R27; a start 0 or 1 by R258) -/
  x : Bool
  /-- blocked at BAR, BARW or SWAIT (1 bit; R27; 0) -/
  blk : Bool
  /-- clause starts that passed the thread over (6 bits; R27; 0) -/
  skip : Nat
  /-- clause address in 16-byte units (52 bits; R27; 0) -/
  cla : BitVec 52
  /-- slot within the clause (4 bits; R27; 0) -/
  slot : Nat
  deriving DecidableEq, Repr

/-- A held register (R41, R42). -/
structure Hold where
  /-- the register (8 bits; R41; none held) -/
  reg : Nat
  /-- its pre-value (32 lanes of 32 bits; R41; none held) -/
  pre : Row
  /-- the flag its operation allocated (R41; none held) -/
  flag : Option Nat
  /-- the holding operation (R41; none held) -/
  op : Nat
  /-- the result, once every lane has returned (R41; none held) -/
  result : Option Row
  /-- the lanes the operation writes (R41, R176; none held) -/
  lanes : LaneMask
  /-- `WSTAT` bits that reach `WSTAT` at acceptance (R60, R121; none held) -/
  raised : BitVec 12
  deriving DecidableEq, Repr

/-- A fixed-latency register write of the clause in progress (R39). -/
structure FixedWrite where
  /-- the slot that wrote (4 bits; R39; empty) -/
  slot : Nat
  /-- the register (8 bits; R39; empty) -/
  reg : Nat
  /-- the lanes written (32 bits; R39; empty) -/
  lanes : LaneMask
  /-- the values (R39; empty) -/
  row : Row
  deriving DecidableEq, Repr

/-- The clause a wave is executing (R33, R34, R50). -/
structure Clause where
  /-- its address in 16-byte units (52 bits; R33; none) -/
  cla : BitVec 52
  /-- its instruction count, 1 to 16 (R33; none) -/
  n : Nat
  /-- the header's flag A, 15 none (4 bits; R81; none) -/
  setA : Nat
  /-- the header's flag B, 15 none (4 bits; R81; none) -/
  setB : Nat
  /-- the slot to issue next (R34; none) -/
  slot : Nat
  /-- the run: the active lanes (32 bits; R34; none) -/
  run : LaneMask
  /-- the words of the slots, as read at the clause start (80 bits each; R84; none) -/
  words : List (BitVec 80)
  /-- fixed-latency writes of the clause, oldest first (R39; none) -/
  log : List FixedWrite
  /-- floating-point flags raised by fixed-latency instructions, with their slots (R60; none) -/
  fp : List (Nat × BitVec 12)
  deriving DecidableEq, Repr

/-- Why a wave issues nothing (R50, R248, R359). -/
inductive Stop where
  /-- it may issue -/
  | running
  /-- trapped at a clause check (R50) -/
  | trapCheck
  /-- trapped at the issue of a slot (R50) -/
  | trapSlot
  /-- stopped by HALT (R248) -/
  | halted
  /-- stopped by the die agent for a pre-emption, swap or save (R248, R360) -/
  | agent
  deriving DecidableEq, Repr

/-- What a blocked thread waits for (R109, R111). -/
inductive LaneWait where
  /-- the barrier instance `inst` of its level -/
  | bar (level inst : Nat)
  /-- a word: virtual address, 64-bit, comparison, comparand -/
  | word (va : Nat) (dbl : Bool) (cmp : SwCmp) (comparand : BitVec 64)
  /-- the same, its page resolved with POISON: it has no home and no wait-table entry until a restore (R111) -/
  | poisoned (va : Nat) (dbl : Bool) (cmp : SwCmp) (comparand : BitVec 64)
  deriving DecidableEq, Repr

/-- An entry of a push side (R213). -/
inductive PushEntry where
  /-- a marker, with the number it was pushed under -/
  | marker (id : Nat) (v : Word)
  /-- an engine command by its number -/
  | cmd (id : Nat)
  deriving DecidableEq, Repr

/-- An operation in an outstanding-operation counter (R217). -/
structure Outstanding where
  /-- its number (R217; none) -/
  id : Nat
  /-- the queue it went through (R214; none) -/
  q : Nat
  /-- it has completed; it retires in its turn (R217; none) -/
  done : Bool
  deriving DecidableEq, Repr

/-- A wave (R17, R26 to R51). -/
structure Wave where
  /-- privileged (1 bit; R239; no wave resident) -/
  priv : Bool
  /-- its context (10 bits; R342; no wave resident) -/
  ctx : Nat
  /-- its workgroup's number, 0 for firmware (R262; no wave resident) -/
  wg : Nat
  /-- its index within the workgroup (R262; no wave resident) -/
  index : Nat
  /-- `.regs`: registers declared per thread (8 bits; R18, R44; no wave resident) -/
  nregs : Nat
  /-- the PC table, lane 0 first (32 entries of 64 bits; R27; no wave resident) -/
  pct : List PcEntry
  /-- the registers v0 to v254; an absent one holds zero (R44; zero, R258) -/
  regs : FMap Row
  /-- the hold file, oldest first (up to 32; R42; empty) -/
  holds : List Hold
  /-- how many operations keep each of f0 to f11 busy (12 flags; R40; clear) -/
  flags : List Nat
  /-- `WSTAT` (12 bits; R122; 0) -/
  wstat : BitVec 12
  /-- the clause in progress (R34; none) -/
  clause : Option Clause
  /-- the four outstanding-operation counters: operations in issue order (up to 63 each; R217; empty) -/
  counters : List (List Outstanding)
  /-- the push sides of the eight queues (up to 8 entries each; R213; empty) -/
  push : List (List PushEntry)
  /-- the pop sides of the eight queues, entries of one or four words (R213; empty) -/
  pop : List (List (List Word))
  /-- records of `qer` were dropped since the last popped one (1 bit; R222; 0) -/
  ovf : Bool
  /-- completions held by the receive engine for want of room (R213; empty) -/
  heldRx : List (List Word)
  /-- the generation tag of its allocation (R49; 0) -/
  gen : Nat
  /-- why it is stopped (R50, R248; running) -/
  stop : Stop
  /-- a HALT that waits for the next clause start (1 bit; R248; 0) -/
  haltReq : Bool
  /-- it is in the active set (1 bit; R29; 0) -/
  active : Bool
  /-- counted clause starts (R29; 0) -/
  starts : Nat
  /-- when it issued last (R29; 0) -/
  lastIssue : Nat
  /-- since when it waits to start a clause (R29; 0) -/
  waitSince : Nat
  /-- pending arrivals: key lane · 8 + level (7 for the gang) ↦ instance (R109; none) -/
  pend : FMap Nat
  /-- what each blocked lane waits for (R109, R111; none) -/
  waits : FMap LaneWait
  /-- registers named by engine operations that have not released them: command ↦ registers (R43; none) -/
  locks : FMap (List Nat)
  /-- convergence registers at which this wave waits to be a member: cv ↦ the count of armings it found (R113; none) -/
  cvWait : FMap Nat
  /-- the PC and the run whose clause fetch was resolved with POISON while it was stopped: a clause of zero bytes is at hand for them (R380; none) -/
  zeroFetch : Option (Nat × LaneMask)
  deriving DecidableEq, Repr

/-- An outstanding operation of a wave: a variable-latency instruction, a phase, a maintenance or accumulator operation,
or a store or press operation that is not performed yet (R40, R49, R182, R219). -/
structure Op where
  /-- the issuing wave (R49; none) -/
  wave : Nat
  /-- the generation tag it was issued for (R49; none) -/
  gen : Nat
  /-- the workgroup (R355; none) -/
  wg : Nat
  /-- the core (R182; none) -/
  core : Nat
  /-- the instruction (R41; none) -/
  instr : Instr
  /-- the active lanes (R34; none) -/
  lanes : LaneMask
  /-- the thread's clause address at issue (R52; none) -/
  cla : BitVec 52
  /-- the flag it allocated (R40; none) -/
  flag : Option Nat
  /-- its destination registers (R41; none) -/
  dsts : List Nat
  /-- its source rows, captured at issue (R10; none) -/
  srcs : List Row
  /-- the result rows as far as they have returned (R41; none) -/
  vals : List Row
  /-- the lanes not performed yet (R174; none) -/
  todo : LaneMask
  /-- `WSTAT` bits that the result carries (R60, R121; none) -/
  raised : BitVec 12
  /-- a number the operation keeps: a size, an instance or a position (none) -/
  aux : Nat
  /-- it has been performed; only its return remains (R176; none) -/
  done : Bool
  /-- the ticket of its workgroup when it issued, which its accesses carry (64 bits; R410; none) -/
  ticket : BitVec 64
  /-- lanes that are translated on another die than the core's: the die whose cellar held their request (R383, R385; none) -/
  walkOn : FMap Nat
  deriving DecidableEq, Repr

/-! ### Workgroups -/

/-- A scratchpad line (R177, R287): 128 bytes and a state. -/
structure Line where
  /-- EMPTY, FULL or POISON (2 bits; R287; FULL, R269) -/
  st : LineState
  /-- the bytes (128 bytes; R287; zero, R269) -/
  data : List Byte
  deriving DecidableEq, Repr

/-- A member of an armed convergence register (R113): the wave that signed first in a named quarter. -/
structure Member where
  /-- the wave (R113; none) -/
  wave : Nat
  /-- lanes that signed (32 bits; R113; none) -/
  lanes : LaneMask
  /-- the MMAs by which its lanes signed, in order; empty if all signed with CVSIGN (R113, R199; none) -/
  mma : List Instr
  /-- its registers as the wave read them at its first signing MMA (R197; none) -/
  regs : FMap Row
  /-- registers the wave may use (R199; none) -/
  alloc : Nat
  /-- the flags its signing instructions allocated (R192; none) -/
  flags : List Nat
  /-- its entry in the matrix counter (R192; none) -/
  op : Nat
  /-- the number of its capture of A, 0 for none (R202, R302; none) -/
  cap : Nat
  deriving DecidableEq, Repr

/-- A convergence register (R113). -/
structure Cv where
  /-- the armed mask; `none` is IDLE (16 bits; R113; IDLE, R269) -/
  armed : Option (BitVec 16)
  /-- how often it has been armed (the model's own: it tells one arming from the next, R113; 0, R269) -/
  count : Nat
  /-- the members, by 4 · core index + quarter (R113; none) -/
  members : FMap Member
  deriving DecidableEq, Repr

/-- A barrier group's current instance at one level (R109). -/
structure Barrier where
  /-- the instance's number (R109; 0) -/
  inst : Nat
  /-- the threads recorded (R109; none) -/
  arrived : List Nat
  deriving DecidableEq, Repr

/-- A resident or saved workgroup (R260 to R270, R287, R362). -/
structure Workgroup where
  /-- its launch node, 0 for none (R346; none resident) -/
  node : Nat
  /-- its context (R342; none resident) -/
  ctx : Nat
  /-- its ordinal in the grid (R261, R277; none resident) -/
  ordinal : Nat
  /-- its identifier with the thread bits zero (64 bits; R261; none resident) -/
  ident : Nat
  /-- the gang it belongs to (R264; none resident) -/
  gang : Nat
  /-- its position within the gang, 0 to 15 (R264; none resident) -/
  pos : Nat
  /-- its die (R263; none resident) -/
  die : Nat
  /-- its cores, die · 48 + core, rising (R262; none resident) -/
  cores : List Nat
  /-- its slot on its first core, 0 to 63 (R240; none resident) -/
  slot : Nat
  /-- its waves in order (R262; none resident) -/
  waves : List Nat
  /-- threads, P (R261; none resident) -/
  threads : Nat
  /-- current scratchpad size in bytes on each of its cores, by core index (R173, R287; none resident) -/
  spSizes : List Nat
  /-- base of its region in each core's scratchpad array, by core index (R287; none resident) -/
  spBases : List Nat
  /-- scratchpad lines: core index · 2^20 + line; an absent line is FULL and zero (R269, R287; none resident) -/
  sp : FMap Line
  /-- first accumulator row owned (8 bits; R266; none resident) -/
  acc0 : Nat
  /-- accumulator rows owned (R20, R266; none resident) -/
  accN : Nat
  /-- its convergence registers (R112; none resident) -/
  cvs : List Cv
  /-- barrier instances: level · 2^14 + group (R109; none resident) -/
  bars : FMap Barrier
  /-- its gang ticket (64 bits; R410; 0) -/
  ticket : BitVec 64
  /-- its threads have started (R269; none resident) -/
  started : Bool
  /-- staging and pinning commands still outstanding (R269, R285; none resident) -/
  staging : List Nat
  /-- it has been killed (R249; none resident) -/
  killed : Bool
  /-- when it last became swappable (R272; none) -/
  swappable : Option Nat
  /-- it is placed for a firmware operation or saved: not schedulable (R251, R271; none resident) -/
  frozen : Bool
  /-- it was stopped because its session lapsed, and is saved whatever becomes of the session (R420; false) -/
  lapse : Bool
  deriving DecidableEq, Repr

/-- A wave of a saved workgroup, with its core index, quarter, outstanding operations and its registers (R362). -/
structure SavedWave where
  /-- the wave (R362; none saved) -/
  wave : Wave
  /-- the number under which its operations and parked requests name it while it is saved (R383; none saved) -/
  key : Nat
  /-- it was stopped by a trap or a HALT (R248; none saved) -/
  stop : Stop
  deriving DecidableEq, Repr

/-- A frame: a saved workgroup (R362). -/
structure Frame where
  /-- the workgroup block, the header and the scratchpad (R362; none saved) -/
  wg : Workgroup
  /-- the workgroup's number (R362; none saved) -/
  id : Nat
  /-- the wave blocks (R362; none saved) -/
  waves : List SavedWave
  /-- its accumulator cells: core index · 2^16 + row · 192 + column (R362; none saved) -/
  acc : FMap Word
  /-- each core's split (R364; none saved) -/
  ways : List Nat
  /-- sealed under the gang's frame key: the gang's frames in order (R251, R411; none saved) -/
  sealed : Bool
  /-- ready to return since (R273; none) -/
  ready : Option Nat
  /-- saved by a swap (R272), a pre-emption (R360), a lapse (R420) or CTXSV: which (R363; none saved) -/
  why : Nat
  /-- frame length in bytes (R362; none saved) -/
  length : Nat
  /-- another write has changed its bytes in the stack (R251; none saved) -/
  torn : Bool
  deriving DecidableEq, Repr

/-- A gang of resident workgroups (R264, R265). -/
structure Gang where
  /-- its launch node (R264; none resident) -/
  node : Nat
  /-- its workgroups in order (R264; none resident) -/
  wgs : List Nat
  /-- its cores, rising (R264; none resident) -/
  cores : List Nat
  /-- the current instance of the gang barrier (R109; 0) -/
  bar : Barrier
  deriving DecidableEq, Repr

/-! ### Cores and dies -/

/-- A cached 48-byte sector (R282). -/
structure Sector where
  /-- its bytes (48 bytes; R282; no sector cached) -/
  data : List Byte
  /-- dirty (1 bit; R282; no sector cached) -/
  dirty : Bool
  /-- the way it lies in (R19; no sector cached) -/
  way : Nat
  deriving DecidableEq, Repr

/-- A write-combining entry (R322). -/
structure WcbEntry where
  /-- the target package (8 bits; R322; empty) -/
  pkg : Nat
  /-- the window of that package (12 bits; R322, R396; empty) -/
  win : Nat
  /-- the line: its offset in the window, a multiple of 192 (40 bits; R322; empty) -/
  off : Nat
  /-- the key that the storing aperture presents (64 bits; R396; empty) -/
  key : BitVec 64
  /-- the context that stored (10 bits; R322, R395; empty) -/
  ctx : Nat
  /-- the bytes written: offset in the line ↦ byte (192 bytes and mask; R322; empty) -/
  bytes : FMap Byte
  deriving DecidableEq, Repr

/-- The matrix error log of a core (R205). -/
structure MerrLog where
  /-- `V` (1 bit; R205; 0) -/
  v : Bool
  /-- `CNT` (15 bits; R205; 0) -/
  cnt : Nat
  /-- `KIND` of the first error (4 bits; R205; 0) -/
  kind : Nat
  /-- `QTR` of the first error (2 bits; R205; 0) -/
  qtr : Nat
  /-- `ROW` of the first error (8 bits; R205; 0) -/
  row : Nat
  /-- `COL` of the first error (8 bits; R205; 0) -/
  col : Nat
  /-- `KIDX` of the first error (8 bits; R205; 0) -/
  kidx : Nat
  deriving DecidableEq, Repr

/-- A TLB entry (R369, R370). -/
structure TlbEntry where
  /-- its VMID (12 bits; R369; empty) -/
  vmid : Nat
  /-- its ASID (16 bits; R369; empty) -/
  asid : Nat
  /-- 0 stage 1, 1 stage 2, 2 combined (R369; empty) -/
  stage : Nat
  /-- first address translated (R369; empty) -/
  base : Nat
  /-- page size in bytes (R365; empty) -/
  size : Nat
  /-- first output address (R365; empty) -/
  out : Nat
  /-- `RD` (1 bit; R366; empty) -/
  rd : Bool
  /-- `WR` (1 bit; R366; empty) -/
  wr : Bool
  /-- `EX` (1 bit; R366; empty) -/
  ex : Bool
  /-- the stage-2 pages that a combined entry was built from: first intermediate address and size of each (R370; empty) -/
  via : List (Nat × Nat)
  deriving DecidableEq, Repr

/-- A core (R15 to R21). -/
structure Core where
  /-- scratchpad ways of the split (R19, R266; 0) -/
  spWays : Nat
  /-- its L1: sector address / 48 ↦ sector, physical (R282; empty) -/
  l1 : FMap Sector
  /-- its L1 TLB (64 entries; R21, R369; empty) -/
  tlb : List TlbEntry
  /-- its write-combining buffer, oldest first (16 entries; R322; empty) -/
  wcb : List WcbEntry
  /-- its accumulator store: row · 192 + column; an absent cell is zero (256 × 192 words; R20; DESIGN CHOICE 0, log 3) -/
  acc : FMap Word
  /-- its matrix error log (64 bits; R205; 0) -/
  merr : MerrLog
  /-- `GENDROP` (32 bits; R49, R242; 0) -/
  gendrop : Nat
  /-- the context the core was last given to (R204, R323; none) -/
  ctx : Option Nat
  /-- core-exclusive workgroup (R267; none) -/
  excl : Bool
  deriving DecidableEq, Repr

/-- A parked request's kind: who is answered at its replay (R375, R440). -/
inductive ReqKind where
  /-- some lanes of an operation -/
  | op (id : Nat) (lanes : LaneMask)
  /-- a wave's clause fetch, of a run at a PC (R28, R375) -/
  | fetch (wave pc : Nat) (run : LaneMask)
  /-- an engine command's access -/
  | cmd (id : Nat)
  /-- a launch node's read of its command, descriptor, semaphore or indirect words -/
  | node (id : Nat)
  /-- a queue's read of a command -/
  | take (ctx q : Nat)
  /-- the press's access to a launch's coverage map -/
  | press (node : Nat)
  /-- the SWAIT checks of some lanes -/
  | swait (wave : Nat) (lanes : LaneMask)
  /-- the pinning of a workgroup's ranges -/
  | pin (wg : Nat)
  /-- a landing of a received message -/
  | land (msg : Nat)
  /-- a fabric access at this target -/
  | fabric (acc : FabricAccess)
  deriving DecidableEq, Repr

/-- Where a parked request stands (R375, R377, R378). -/
inductive Place where | cellar | ring | held deriving DecidableEq, Repr

/-- A parked request (R375, R376). -/
structure Req where
  /-- its kind (R375; none parked) -/
  kind : ReqKind
  /-- VMID of its key (R372; none parked) -/
  vmid : Nat
  /-- ASID of its key (R372; none parked) -/
  asid : Nat
  /-- stage of its key, 0 or 1 (R372; none parked) -/
  stage : Nat
  /-- 48 KiB page of its key (R372; none parked) -/
  page : Nat
  /-- virtual page of the access (R376; none parked) -/
  vpage : Nat
  /-- virtual address of the access (R220, R373; none parked) -/
  va : Nat
  /-- the code of its kind of access (R373; none parked) -/
  acc : Nat
  /-- the context (R373; none parked) -/
  ctx : Nat
  /-- the requesting wave's key, if any (R376; none parked) -/
  wave : Option Nat
  /-- the generation tag (R49, R383; none parked) -/
  gen : Nat
  /-- the entry it follows (R376; none parked) -/
  follows : Option Nat
  /-- cellar, overflow ring or held at L2 ingress (R377, R378; none parked) -/
  place : Place
  /-- the resolution it awaits to be performed with (R380; none parked) -/
  res : Option ResAct
  /-- held for a full merge table: on no merge entry yet (R372; none parked) -/
  noEntry : Bool
  deriving DecidableEq, Repr

/-- A merge-table entry (R372). -/
structure MergeEntry where
  /-- VMID (12 bits; R372; empty) -/
  vmid : Nat
  /-- ASID (16 bits; R372; empty) -/
  asid : Nat
  /-- stage (1 bit; R372; empty) -/
  stage : Nat
  /-- 48 KiB page (R372; empty) -/
  page : Nat
  deriving DecidableEq, Repr

/-- An entry of the wait table (R111): a waiter of a word, or a waiter that has no entry yet. -/
structure Waiter where
  /-- the wave (R111; empty) -/
  wave : Nat
  /-- the lane (R111; empty) -/
  lane : Nat
  /-- physical address of the word (R111; empty) -/
  pa : Nat
  /-- it holds a wait-table entry; otherwise it is re-checked until it gains one (R111; empty) -/
  entered : Bool
  deriving DecidableEq, Repr

/-- A SWAIT check made through an import window that waits at its home (R111, R324). -/
structure RemoteWait where
  /-- the check, as the target sees it (R111, R397; none) -/
  acc : FabricAccess
  /-- physical address of the word (R111; none) -/
  pa : Nat
  /-- the exporter's context is protected (R395; none) -/
  prot : Bool
  /-- it holds a wait-table entry (R111; none) -/
  entered : Bool
  deriving DecidableEq, Repr

/-- A key end of a sealed link or memory interface (R413). -/
structure KeySlot where
  /-- current key and epoch (R413; none) -/
  cur : Option (Nat × List Byte)
  /-- next key and epoch (R413; none) -/
  nxt : Option (Nat × List Byte)
  /-- it sends under the next key; what comes under the current one is still taken (R413; false) -/
  sending : Bool
  deriving DecidableEq, Repr

/-- A part of a pinned L2 range that lies in one page (R285). -/
structure Pin where
  /-- the launch node (R285; empty) -/
  node : Nat
  /-- which of its ranges (2 bits; R285; empty) -/
  range : Nat
  /-- the context (R285; empty) -/
  ctx : Nat
  /-- first virtual address (R285; empty) -/
  va : Nat
  /-- first physical address (R285; empty) -/
  pa : Nat
  /-- length in bytes (R285; empty) -/
  len : Nat
  deriving DecidableEq, Repr

/-- A compute die (R12, R22). -/
structure Die where
  /-- its cycle counter `CYCLE` (64 bits; R22, R242; 0) -/
  cycle : BitVec 64
  /-- its L2: sector address / 48 ↦ sector (R282; empty) -/
  l2 : FMap Sector
  /-- its L2 TLB (8192 entries; R22, R369; empty) -/
  tlb : List TlbEntry
  /-- its walk caches: table entries, each with its level, as a mapping of the region it covers to its next table (R22, R369; empty) -/
  walks : List (Nat × TlbEntry)
  /-- its merge table (1024 entries; R372; empty) -/
  merge : List MergeEntry
  /-- its parked requests, in parking order, by number (R375 to R378; empty) -/
  reqs : FMap Req
  /-- `PRS_LIMIT` (32 bits; R242; DESIGN CHOICE 4096, log 3) -/
  prsLimit : Nat
  /-- `OVC_BASE` (64 bits; R242; DESIGN CHOICE 0, log 3) -/
  ovcBase : Nat
  /-- `OVC_SIZE` (32 bits; R242; DESIGN CHOICE 0, log 3) -/
  ovcSize : Nat
  /-- the place of the next overflow record in the ring (R377; 0) -/
  ovcNext : Nat
  /-- `TRB_BASE` (64 bits; R242; DESIGN CHOICE 0, log 3) -/
  trbBase : Nat
  /-- `TRB_SIZE` (32 bits; R242; DESIGN CHOICE 3, log 3) -/
  trbSize : Nat
  /-- `TRB_HEAD` (32 bits; R242; 0) -/
  trbHead : Nat
  /-- `TRB_TAIL` (32 bits; R242; 0) -/
  trbTail : Nat
  /-- `TRAPCNT` (32 bits; R242; 0) -/
  trapCnt : BitVec 32
  /-- trap records held for a full ring, oldest first (512 bits each; R244; empty) -/
  heldTraps : List (List Byte)
  /-- `EVMASK` (32 bits; R242; 0) -/
  evMask : BitVec 32
  /-- `EVPEND` (32 bits; R242; 0) -/
  evPend : BitVec 32
  /-- `TIMER` (64 bits; R242; all ones) -/
  timer : BitVec 64
  /-- a message from the management controller waits (R246; 0) -/
  mbxWaits : Bool
  /-- a holding spell is in progress (R378; 0) -/
  spell : Bool
  /-- `FSEQ`: the next fault record's number (32 bits; R373; 0) -/
  fseq : BitVec 32
  /-- fault records not yet written, with their function, in order (R374; empty) -/
  faults : List (Nat × List Byte)
  /-- its wait table and the waiters without an entry (4096 entries; R22, R111; empty) -/
  waiters : List Waiter
  /-- waiters of other packages, and of this one through its own windows (they share the wait table; R111, R324; empty) -/
  remoteWaits : List RemoteWait
  /-- its pinned ranges, page by page (up to 16 MiB in all; R285; empty) -/
  pins : List Pin
  /-- pre-claimed tiles of the die agent: node and tile handle, in the order obtained (R315; empty) -/
  preclaims : List (Nat × Nat)
  /-- keys of its link ends and memory interface: kind · 64 + slot (R255, R413; none) -/
  keys : FMap KeySlot
  /-- frame keys: slot ↦ key (R255; none) -/
  frameKeys : FMap (List Byte)
  /-- sealed-page imports waiting for the die firmware: context, page, import address, frame (R382; empty) -/
  imports : FMap (Nat × Nat × Nat × Nat)
  /-- its firmware is switching or stopped: what needs it is held (R428, R441; 0) -/
  fwHeld : Bool
  /-- its clock: lowered for temperature (R436; 0) -/
  throttled : Bool
  /-- its clock: lowered for its power share (R25; 0) -/
  shareLow : Bool
  /-- its clock: stretched by the droop detectors (R433; 0) -/
  stretched : Bool
  /-- its margins: slack in ps, voltage offset in mV, clock cap in MHz (R434; DESIGN CHOICE 0 0 1750, log 3) -/
  margin : Nat × Nat × Nat
  deriving DecidableEq, Repr

/-! ### Engines -/

/-- Stages of an engine command (R217, R221, R233). -/
inductive CmdStage where
  /-- on the push side -/
  | pushed
  /-- taken by its engine, its layout record not yet read (R223) -/
  | reading
  /-- taken by its engine -/
  | taken
  /-- a send whose header is under way -/
  | header
  /-- a send whose payload and end marker are under way -/
  | payload
  deriving DecidableEq, Repr

/-- An engine command (R213 to R233): a copy, gleaner, layout or send command, or a staging copy. -/
structure Cmd where
  /-- the issuing wave (R217; none) -/
  wave : Nat
  /-- the generation tag (R49, R220; none) -/
  gen : Nat
  /-- the workgroup (R225; none) -/
  wg : Nat
  /-- the core index within the workgroup (R225, R270; none) -/
  core : Nat
  /-- the instruction (R225; none) -/
  instr : Instr
  /-- its run-wide operands, in the order of its entry (R225; none) -/
  args : List Word
  /-- the flag it allocated and has not cleared (R100; none) -/
  flag : Option Nat
  /-- its stage (R221; none) -/
  stage : CmdStage
  /-- the layout record as the engine read it (R223; none) -/
  record : List Byte
  /-- the error it failed with: code, words 2 and 3 (R221, R222; none) -/
  err : Option (Nat × Word × Word)
  /-- pages read with POISON or unbacked: part of the data is zero or dropped (R220, R279; none) -/
  pois : Bool
  /-- addresses already resolved with POISON: 48 KiB pages (R220; none) -/
  poisPages : List Nat
  /-- its operand registers are released (R43; none) -/
  released : Bool
  /-- it stages a tile operand or pins a range: no counter, no queue (R270, R285; none) -/
  staging : Bool
  /-- lines of fabric memory that its targets have answered: physical address of the line ↦ 192 bytes (R321; none) -/
  lines : FMap (List Byte)
  /-- its writes are performed, but for those that the fabric has not answered (R219, R321; none) -/
  sent : Bool
  /-- the ticket of its workgroup when it issued, which its accesses carry (64 bits; R410; none) -/
  ticket : BitVec 64
  /-- pages whose parked part a REPLAY has completed: page ↦ its physical base, and its bytes as they were read then (R220, R376, R380; none) -/
  got : FMap (Nat × List Byte)
  /-- pages that it has written (R219, R220; none) -/
  wrote : List Nat
  deriving DecidableEq, Repr

/-- A hold on scratchpad lines that an engine reads (R202, R219): accesses that write them wait. -/
structure LineLock where
  /-- the command or matrix operation that reads (R202, R219; none) -/
  owner : Nat
  /-- the workgroup (R202; none) -/
  wg : Nat
  /-- the core index (R202; none) -/
  core : Nat
  /-- the first line (R202; none) -/
  lo : Nat
  /-- one past the last line (R202; none) -/
  hi : Nat
  /-- it is a matrix operation's capture of A, not an engine command's read (R202; none) -/
  capture : Bool
  deriving DecidableEq, Repr

/-- A matrix operation that has issued (R197 to R203). -/
structure MatOp where
  /-- the workgroup (R198; none) -/
  wg : Nat
  /-- the convergence register (R113; none) -/
  cv : Nat
  /-- the instruction (R191; none) -/
  instr : Instr
  /-- the core indices of the set (R198; none) -/
  cores : List Nat
  /-- its members, by 4 · core index + quarter (R113; none) -/
  members : FMap Member
  /-- the members whose operands the engine has read (R201; none) -/
  read : List Nat
  /-- the lines of A as the engine has read them: core index of the supplier ↦ lines (R202; none) -/
  aLines : FMap (List Line)
  deriving DecidableEq, Repr

/-! ### Contexts, queues and launches -/

/-- A queue's copy in force (R344). -/
structure Qcb where
  /-- `BASE` (64 bits; R344; no queue) -/
  base : Nat
  /-- `SLOTS` (32 bits; R344; no queue) -/
  slots : Nat
  /-- `PRIO` (2 bits; R344; no queue) -/
  prio : Nat
  /-- `MODE`: PACKET (1 bit; R344; no queue) -/
  packet : Bool
  /-- `DEVQ` (1 bit; R344; no queue) -/
  devq : Bool
  /-- `RUN` (1 bit; R344; no queue) -/
  run : Bool
  /-- `WGT` (8 bits; R344; no queue) -/
  wgt : Nat
  /-- `GRACE` (16 bits; R344; no queue) -/
  grace : Nat
  /-- `SEQ` (32 bits; R344; no queue) -/
  seq : Nat
  deriving DecidableEq, Repr

/-- A command queue (R343 to R346). -/
structure Queue where
  /-- the copy in force (R345; none in force) -/
  qcb : Option Qcb
  /-- the write count (64 bits; R343; 0) -/
  wc : Nat
  /-- the commands taken so far, as performed in `RDPTR` (64 bits; R344; 0) -/
  rd : Nat
  /-- ERROR: the `SEQ` of the copy in force when it was entered (R346; none) -/
  err : Option Nat
  /-- STOPPED by a lapsed session (R420; 0) -/
  lapsed : Bool
  /-- the last node made of the queue, for `ORD` (R351; none) -/
  last : Option Nat
  /-- commands taken in the round in progress (R354; 0) -/
  round : Nat
  deriving DecidableEq, Repr

/-- A posted receive (R234). -/
structure Posted where
  /-- the wave that posted it (R237; none posted) -/
  wave : Nat
  /-- that wave's generation (R237; none posted) -/
  gen : Nat
  /-- its workgroup (R234; none posted) -/
  wg : Nat
  /-- its core index (R234; none posted) -/
  core : Nat
  /-- the eight words of the entry (256 bits; R234; none posted) -/
  words : List Word
  /-- the number of the POSTR (R302; none posted) -/
  num : Nat
  deriving DecidableEq, Repr

/-- Where a message stands at its sender (R233, R326). -/
inductive SendState where
  /-- its header has not been sent: an earlier header of the pair is not accepted, or no port has room -/
  | waiting (n : Nat)
  /-- its header is on its way, after `n` refusals -/
  | flying (n : Nat)
  /-- its header was refused; the refusal is on its way -/
  | bounced (n : Nat)
  /-- its header was refused `n` times; the next retry waits for the interval -/
  | refused (n : Nat)
  /-- its header was accepted: payload and end marker follow -/
  | accepted
  /-- its end marker has been sent -/
  | marked
  /-- it has been acknowledged, or has ended with an error -/
  | ended
  deriving DecidableEq, Repr

/-- What became of a message at its destination (R235, R236). -/
inductive RecvState where
  /-- its header has not been accepted -/
  | none
  /-- it waits in the unexpected queue -/
  | unexpected
  /-- it was matched by a receive -/
  | matched (p : Posted)
  /-- it has landed -/
  | landed
  deriving DecidableEq, Repr

/-- A message (R233 to R237, R326 to R332). -/
structure Msg where
  /-- source package (8 bits; R232; none) -/
  srcPkg : Nat
  /-- source context (10 bits; R232; none) -/
  srcCtx : Nat
  /-- destination package (8 bits; R232; none) -/
  dstPkg : Nat
  /-- destination context (10 bits; R232; none) -/
  dstCtx : Nat
  /-- tag (32 bits; R232; none) -/
  tag : Word
  /-- length in bytes (22 bits; R232; none) -/
  len : Nat
  /-- sent with SENDL (1 bit; R233; none) -/
  lossy : Bool
  /-- the send command here, for a message of this package (R233; none) -/
  cmd : Option Nat
  /-- where it stands at the sender (R233; none) -/
  snd : SendState
  /-- the value of the sending die's `CYCLE` from which the header may be sent again (R326; none) -/
  retryAt : Nat
  /-- blocks sent: block ↦ 192 bytes; a block that is absent was not sent or was lost (R330; none) -/
  sent : FMap (List Byte)
  /-- the count of blocks that the end marker carries (R330; none) -/
  count : Nat
  /-- the next block to leave for another package (R233, R330; none) -/
  next : Nat
  /-- its number in the flits of its sender (R330; none) -/
  num : Nat
  /-- where it stands at the destination (R235; none) -/
  rcv : RecvState
  /-- blocks arrived: block ↦ 192 bytes (R236; none) -/
  arrived : FMap (List Byte)
  /-- its end marker has arrived (R236; none) -/
  ended : Bool
  /-- the order in which its end marker arrived, among the messages that have ended (R340; none) -/
  endAt : Nat
  /-- blocks of the receive buffer it takes (R326; none) -/
  blocks : Nat
  /-- of a SENDL to another package, the port of its route, fixed when its header is accepted; none once it has failed (R331; none) -/
  port : Option Nat
  /-- its header came over a SEAL port: what answers it leaves by SEAL ports (R395; none) -/
  prot : Bool
  /-- the bytes that its landing in a tensor has written, once it has (R236, R327; none) -/
  wrote : Option Nat
  deriving DecidableEq, Repr

/-- A context (R342). -/
structure Context where
  /-- `PTROOT` (64 bits; R342; no context) -/
  ptroot : Nat
  /-- `ASID` (16 bits; R342; no context) -/
  asid : Nat
  /-- `VMID` (12 bits; R342; no context) -/
  vmid : Nat
  /-- `HOMEIOD` (2 bits; R342; no context) -/
  homeIod : Nat
  /-- `PROT` (1 bit; R342; no context) -/
  prot : Bool
  /-- `PARTS` (8 bits; R342; no context) -/
  parts : Nat
  /-- `LRT` (64 bits; R342; no context) -/
  lrt : Nat
  /-- `LRTN` (16 bits; R342; no context) -/
  lrtn : Nat
  /-- `QTAB` (64 bits; R342; no context) -/
  qtab : Nat
  /-- `FRB` (64 bits; R342; no context) -/
  frb : Nat
  /-- `FRS` (64 bits; R342; no context) -/
  frs : Nat
  /-- `RXB` (64 bits; R342; no context) -/
  rxb : Nat
  /-- `RXN` (32 bits; R342; no context) -/
  rxn : Nat
  /-- `ACC0` to `ACC29`: package and context (R342; no context) -/
  accept : List (Nat × Nat)
  /-- the function that created it (R408; no context) -/
  owner : Nat
  /-- its queues (1 to 64; R342; no context) -/
  queues : List Queue
  /-- its posted receives, oldest first (up to 4096; R325; no context) -/
  posted : List Posted
  /-- its unexpected messages, oldest first (up to 1024; R325; no context) -/
  unexpected : List Nat
  /-- its aperture descriptors (256; R396; invalid) -/
  apertures : FMap Aperture
  /-- versions of its sealed pages: page ↦ version (R415; none) -/
  versions : FMap Nat
  /-- its page key's number of the key generator; `none` once destroyed (R415, R421; none) -/
  pageKey : Option Nat
  /-- it has ended (R408; no context) -/
  ended : Bool
  deriving DecidableEq, Repr

/-- A tile handed out or pre-claimed (R314, R315). -/
structure Tile where
  /-- origin of each dimension in granules (R116; none) -/
  org : List Nat
  /-- extent of each dimension in granules (R116; none) -/
  ext : List Nat
  /-- the granules it covers: linear indices (R313; none) -/
  granules : List Nat
  /-- the generation it was cut under (16 bits; R116; none) -/
  gen : Nat
  /-- the workgroup it was handed to; `none` while pre-claimed (R318; none) -/
  wg : Option Nat
  deriving DecidableEq, Repr

/-- The press of a tiled node (R307 to R320). -/
structure Press where
  /-- the extents in granules (R307; no tiled node) -/
  ext : List Nat
  /-- `CMAP` (56 bits; R308; no tiled node) -/
  cmap : Nat
  /-- `INIT` (1 bit; R308; no tiled node) -/
  init : Bool
  /-- the map has been read into the press (R313; no tiled node) -/
  loaded : Bool
  /-- granule codes that are not FREE: index ↦ 1 CLAIMED, 2 DONE (R313; no tiled node) -/
  map : FMap Nat
  /-- sch0 to sch14 of the generation in force (15 × 32 bits; R309; no tiled node) -/
  regs : List Word
  /-- the shadow set (15 × 32 bits; R310; no tiled node) -/
  shadow : List Word
  /-- the generation in force (16 bits; R309; 0) -/
  gen : Nat
  /-- the cursor: a tile number of the lattice, or past the last (R314; 0) -/
  cur : Nat
  /-- live handles (32 bits each; R314; none) -/
  tiles : FMap Tile
  /-- the next handle (R314; 1) -/
  next : Nat
  /-- the map is to be written at the end: it waits for its page (R313; 0) -/
  writing : Bool
  deriving DecidableEq, Repr

/-- Stages of a launch node (R350 to R356). -/
inductive NodeStage where
  /-- taken; it waits for predecessors and its semaphore -/
  | waiting
  /-- eligible -/
  | eligible
  /-- dispatched: its workgroups are placed -/
  | running
  /-- its end is in progress: the coverage map or the signal waits for its page -/
  | ending
  /-- completed -/
  | complete
  deriving DecidableEq, Repr

/-- A kernel descriptor (R349). -/
structure Kernel where
  /-- `ENTRY` (64 bits; R349; none) -/
  entry : Nat
  /-- `W0` to `W5` up to `NF` (R349; none) -/
  widths : List Nat
  /-- `TLV` (R349; none) -/
  tlv : Nat
  /-- `THR` (R349; none) -/
  thr : Nat
  /-- `CRS` (R349; none) -/
  crs : Nat
  /-- `GNG` (R349; none) -/
  gng : Nat
  /-- `REGS` (R349; none) -/
  regs : Nat
  /-- `CVN` (R349; none) -/
  cvn : Nat
  /-- `KIND` 0 matrix, 1 stream, 2 any (R349; none) -/
  kind : Nat
  /-- `KFLG` bits 0 to 2 (R349; none) -/
  flg : Nat
  /-- `SCR` (R349; none) -/
  scr : Nat
  /-- `ACR` (R349; none) -/
  acr : Nat
  /-- `SCH0` to `SCH14` (R349; none) -/
  sch : List Word
  /-- reserved bytes are zero (R353; none) -/
  clean : Bool
  deriving DecidableEq, Repr

/-- A launch node (R350 to R358). -/
structure Node where
  /-- its context (R350; none) -/
  ctx : Nat
  /-- its queue (R350; none) -/
  q : Nat
  /-- the 768 bytes of its command (R347; none) -/
  cmd : List Byte
  /-- `NODE` (32 bits; R347; none) -/
  num : Nat
  /-- the nodes it waits for (R351; none) -/
  preds : List Nat
  /-- its stage (R351; none) -/
  stage : NodeStage
  /-- when it became eligible (R354; none) -/
  order : Nat
  /-- its priority and the mode of its queue when taken (R354, R359; none) -/
  prio : Nat
  /-- PACKET mode (R361; none) -/
  packet : Bool
  /-- grace period in µs (R361; none) -/
  grace : Nat
  /-- its kernel (R349; none) -/
  kernel : Option Kernel
  /-- the grid extents after R352 (R352; none) -/
  ext : List Nat
  /-- first value of the ragged field, 0 without one (R352; none) -/
  first : Nat
  /-- workgroups of the launch (R261, R352; none) -/
  total : Nat
  /-- the next ordinal never started (R268; 0) -/
  nextWg : Nat
  /-- discarded idempotent ordinals to start again (R360; none) -/
  again : List Nat
  /-- workgroups retired (R355; 0) -/
  retired : Nat
  /-- when its first workgroup was placed (R359; none) -/
  startedAt : Option Nat
  /-- cores a workgroup of it ran on (R356; none) -/
  coresUsed : List Nat
  /-- status and reason of its end, once decided (R353, R356; none) -/
  status : Nat
  /-- reason of a refusal (R353; 0) -/
  reason : Nat
  /-- it has been killed: no workgroup starts (R357; 0) -/
  killed : Bool
  /-- the deadline of a grace period that runs, in the controller's µs (R361; none) -/
  graceAt : Option Nat
  /-- partitions reserved and committed (R358; none) -/
  parts : List Nat
  /-- the press of a tiled node (R307; none) -/
  press : Option Press
  /-- POISON or an unbacked address met on a read that reason 8 names (R353; 0) -/
  poisoned : Bool
  /-- physical address of its semaphore word, once that has been checked and found short (R351; none) -/
  semaAt : Option Nat
  /-- a re-check of the semaphore on a notify or a signal write found it met (R351; 0) -/
  semaMet : Bool
  /-- at its end, the number below which its cores' fabric writes are waited for, once their caches have been cleaned (R305, R356; 0) -/
  cleanTo : Nat
  deriving DecidableEq, Repr

/-! ### Functions, firmware and the host -/

/-- A function's registers (R374, R400, R407). -/
structure Func where
  /-- `FQBASE` (64 bits; R400; DESIGN CHOICE 0, log 3) -/
  fqBase : Nat
  /-- `FQSIZE` (32 bits; R400; DESIGN CHOICE 0, log 3) -/
  fqSize : Nat
  /-- `FQVEC` (32 bits; R400; DESIGN CHOICE 0, log 3) -/
  fqVec : Nat
  /-- `FQHEAD` (64 bits; R400; DESIGN CHOICE 0, log 3) -/
  fqHead : Nat
  /-- the tail (64 bits; R379; DESIGN CHOICE 0, log 3) -/
  fqTail : Nat
  /-- the fault queue is enabled (R374, R400; DESIGN CHOICE false, log 3) -/
  fqOn : Bool
  /-- `MBCMD` (64 bits; R407; 0) -/
  mbCmd : BitVec 64
  /-- `MBSTS` (64 bits; R407; 0) -/
  mbSts : BitVec 64
  /-- `MBVEC` (32 bits; R407; 0) -/
  mbVec : BitVec 32
  /-- `MBREQ`: an absent byte is zero (4032 bytes; R407; 0) -/
  mbReq : FMap Byte
  /-- `MBRSP` (4096 bytes; R407; 0) -/
  mbRsp : List Byte
  /-- the command in flight: `MBCMD` and the request payload as the management controller took them (R407; none) -/
  taken : Option (BitVec 64 × FMap Byte)
  deriving DecidableEq, Repr

/-- One slot of a unit in the image store (R406). -/
structure ImageSlot where
  /-- the image; `none` is empty (R406, R422; DESIGN CHOICE none, log 3) -/
  img : Option Image
  /-- it has been verified (R422; false) -/
  ok : Bool
  deriving DecidableEq, Repr

/-- A copy of a hand-over record (R426). -/
structure HandCopy where
  /-- `SEQ` (R426; none) -/
  seq : Nat
  /-- the image version that it hands over from (R426; none) -/
  fromV : Nat
  /-- the image version that it hands over to (R426; none) -/
  toV : Nat
  /-- the unit kind (R426; none) -/
  kind : Nat
  /-- the unit index (R426; none) -/
  idx : Nat
  /-- the format version (R426; none) -/
  format : Nat
  /-- the length of the sections in bytes (R426; none) -/
  len : Nat
  /-- the sections of the unit (R426; none) -/
  sections : List Byte
  /-- CRC-32C (R426; none) -/
  crc : Nat
  deriving DecidableEq, Repr

/-- A firmware unit (R405, R406, R425 to R429). -/
structure Unit where
  /-- slot A (R406; empty) -/
  slotA : ImageSlot
  /-- slot B (R406; empty) -/
  slotB : ImageSlot
  /-- the active slot is B (R406; 0) -/
  activeB : Bool
  /-- it runs its ROM image (R406; 1) -/
  rom : Bool
  /-- the slot to become active at the next reset (R408; none) -/
  next : Option Bool
  /-- it failed the last start (R429; 0) -/
  failed : Bool
  /-- copy A of its hand-over record (R426; none) -/
  handA : Option HandCopy
  /-- copy B (R426; none) -/
  handB : Option HandCopy
  /-- the record's commit word: `SEQ` of the copy in force (R426; 0) -/
  commit : Nat
  /-- the copy that the image in charge has read at its last restart (R425, R427; none) -/
  resumed : Option HandCopy
  deriving DecidableEq, Repr

/-- A live activation in progress (R425, R427, R432). -/
structure Activation where
  /-- unit kind (R425; none) -/
  kind : Nat
  /-- unit index (R425; none) -/
  idx : Nat
  /-- the function whose command waits (R425; none) -/
  fn : Nat
  /-- the deadline in the controller's µs (R427; none) -/
  deadline : Nat
  /-- the old image has committed its record and the new one starts; till then the old one finishes what it performs (R425; none) -/
  begun : Bool
  deriving DecidableEq, Repr

/-- A secured session (R419 to R421). -/
structure Session where
  /-- the function (R419; none) -/
  fn : Nat
  /-- its protected contexts (R419; none) -/
  ctxs : List Nat
  /-- `HBT` in s (R419; none) -/
  hbt : Nat
  /-- `GRC` in s (R419; none) -/
  grc : Nat
  /-- session key (R419; none) -/
  key : List Byte
  /-- the last counter (64 bits; R419; 0) -/
  counter : BitVec 64
  /-- when its period, or once it has lapsed its grace period, ends: the controller's µs (R419, R421; none) -/
  due : Nat
  /-- it has lapsed (R420; 0) -/
  lapsed : Bool
  /-- it has ended (R421; 0) -/
  ended : Bool
  deriving DecidableEq, Repr

/-- Phases of a start (R429, R430). -/
inductive BootPhase where
  /-- power removed, or not started -/
  | off
  /-- a start is in progress -/
  | starting
  /-- a start has succeeded -/
  | ready
  deriving DecidableEq, Repr

/-- A fabric port (R388 to R394, R414). -/
structure Port where
  /-- in service (R389; DESIGN CHOICE false, log 3) -/
  up : Bool
  /-- its peer's position (8 bits; R388; none) -/
  peer : Nat
  /-- an idle spare (R388; 0) -/
  spare : Bool
  /-- policy SEAL; CLEAR otherwise (R394; SEAL) -/
  sealPolicy : Bool
  /-- its key (R394, R414; none) -/
  key : List Byte
  /-- next `SEQ` to send, per class reliable, lossy, management (16 bits each; R392; 0) -/
  txSeq : List Nat
  /-- next `SEQ` expected, per class (16 bits each; R392; 0) -/
  rxSeq : List Nat
  /-- replay buffers of the reliable and management classes: `SEQ` ↦ the flit in clear, without its link fields (512 flits each; R393; empty) -/
  replay : List (FMap (List Byte))
  /-- an ACK of the class is owed (R393; 0) -/
  ackOwed : List Bool
  /-- flits sent under its key (64 bits; R394; 0) -/
  txCount : BitVec 64
  /-- flits received under its key (64 bits; R394; 0) -/
  rxCount : BitVec 64
  /-- when its CRC or authentication failures of the last millisecond were: the controller's µs (R389; none) -/
  failTimes : List Nat
  /-- replay timeouts in a row (R389; 0) -/
  timeouts : Nat
  /-- flits that wait for a slot of the port, in their arrival order: class, `SEQ`, and the flit in clear without its link fields (R390, R393; empty) -/
  queue : List (Nat × Nat × List Byte)
  /-- the next slot that both want is the lossy class's (R393; false) -/
  lossyNext : Bool
  /-- keys agreed since it came into service (R394, R414, R426; 0) -/
  epoch : Nat
  deriving DecidableEq, Repr

/-- What a unit of an IO die, or a SPAWN, has read and written of fabric memory for one access (R219, R236, R321). -/
structure UnitFabric where
  /-- the access (R321; none) -/
  kind : ReqKind
  /-- the lines that have been answered: the line's physical address ↦ its bytes, empty for an unbacked one (R279, R321; none) -/
  lines : FMap (List Byte)
  /-- its writes have been sent (R219, R321; none) -/
  wrote : Bool
  /-- pages whose parked access a REPLAY has completed: page ↦ its physical base, and its bytes as they were read then (R376, R380; none) -/
  got : FMap (Nat × List Byte)
  /-- pages that it has written (R219, R380; none) -/
  pages : List Nat
  deriving DecidableEq, Repr

/-- A request that this package has sent into the fabric and that is not answered (R321, R397). -/
structure FabricReq where
  /-- the operation or command it belongs to, if any (R321; none) -/
  op : Option Nat
  /-- the lanes of the operation that it serves, each with its physical address (R176, R321; none) -/
  lanes : FMap Nat
  /-- of an engine command's, the virtual address (R220, R321; 0) -/
  va : Nat
  /-- of a SWAIT check, the wave and the lane that wait (R111; none) -/
  waiter : Option (Nat × Nat)
  /-- of an access that a unit of an IO die or a SPAWN makes, for what (R219, R236, R321; none) -/
  unit : Option ReqKind
  /-- it is a clause fetch (R84; false) -/
  fetch : Bool
  /-- of a load, the bytes of the line that the core has drained since the load was sent: offset in the window ↦ byte (R292, R297; none) -/
  drained : FMap Byte
  /-- of a load, the core has refreshed, or has written the line, since it was sent: its answer fills no L1 (R293, R297; false) -/
  stale : Bool
  /-- the access, as the target sees it (R397; none) -/
  acc : FabricAccess
  /-- the target package (R396; none) -/
  pkg : Nat
  /-- its flit has been sent, or to this package's own window it has arrived; otherwise it waits at the source (R391; none) -/
  sent : Bool
  /-- its physical address at the requester (R278; none) -/
  pa : Nat
  /-- the core it comes from, and the context (R321, R322; none) -/
  core : Nat
  /-- the context of the access (R396; none) -/
  ctx : Nat
  deriving DecidableEq, Repr

/-- A row of a stack's memory that is throttled (R404). -/
structure HotRow where
  /-- the row's number in the stack (R404; none) -/
  row : Nat
  /-- requests waiting in the side queue of its bank, in arrival order (R404; none) -/
  queued : List ReqKind
  /-- the current interval has not used its activation (R404; none) -/
  permit : Bool
  /-- the request whose turn the interval is (R404; none) -/
  turn : Option ReqKind
  deriving DecidableEq, Repr

/-- The activations of a row of a stack's memory in the current window (R404). -/
structure RowWindow where
  /-- when the window began: the controller's µs (R404; none) -/
  start : Nat
  /-- the threshold that applies to the window (R404; none) -/
  hrt : Nat
  /-- activations counted (R404; none) -/
  count : Nat
  deriving DecidableEq, Repr

/-- One entry of the schedule tape: which event or wave moves next (the model's own, log 2). -/
inductive Turn where
  /-- an event of the device, the host or the environment -/
  | event (i : Instr)
  /-- the wave with this key issues -/
  | issue (wave : Nat)
  deriving DecidableEq, Repr

/-- What a flit carries besides its link fields (R392). -/
structure FlitBody where
  /-- `CLS`: its class (2 bits; R392) -/
  cls : Nat
  /-- `KIND` (6 bits; R392) -/
  kind : Nat
  /-- the destination package (8 bits; R392) -/
  dst : Nat
  /-- the source context (10 bits; R392) -/
  srcCtx : Nat
  /-- the destination context (10 bits; R392) -/
  dstCtx : Nat
  /-- the window (12 bits; R392) -/
  window : Nat
  /-- the offset in the window (40 bits; R392) -/
  offset : Nat
  /-- `PAY` (192 bytes; R392) -/
  pay : List Byte
  /-- `MASK`, bit 0 first (192 bits; R392) -/
  mask : List Bool
  deriving DecidableEq, Repr

/-- A flit's fields at its destination (R392). -/
structure Arrived where
  /-- `CLS`: its class (2 bits; R392) -/
  cls : Nat
  /-- `KIND` (6 bits; R392) -/
  kind : Nat
  /-- the source package (8 bits; R392) -/
  src : Nat
  /-- the source context (10 bits; R392) -/
  srcCtx : Nat
  /-- the destination context (10 bits; R392) -/
  dstCtx : Nat
  /-- its number in its flow (16 bits; R391, R392) -/
  eseq : Nat
  /-- the window (12 bits; R392) -/
  window : Nat
  /-- the offset in the window (40 bits; R392) -/
  offset : Nat
  /-- `PAY` (192 bytes; R392) -/
  pay : List Byte
  /-- `MASK`, bit 0 first (192 bits; R392) -/
  mask : List Bool
  /-- it came through a SEAL port (R394) -/
  sealed : Bool
  deriving DecidableEq, Repr

/-- The state of the package. -/
structure State where
  /-- the model's own step counter, the argument of its free values (log 2; DESIGN CHOICE 0) -/
  tick : Nat
  /-- the model's own schedule tape: the outside world's moves and the device's choices of timing (log 2; DESIGN CHOICE empty) -/
  agenda : List Turn
  /-- the model's own: the wave whose instruction `exec` gives (log 2; DESIGN CHOICE 0) -/
  cur : Nat
  /-- the next number for operations, commands, requests, messages, workgroups, gangs, nodes and frames (the model's own, log 2; DESIGN CHOICE 1) -/
  nextId : Nat
  /-- resident waves: ((die · 48 + core) · 4 + quarter) · 16 + slot (R17; none) -/
  waves : FMap Wave
  /-- outstanding operations by number, oldest first (R40; none) -/
  ops : FMap Op
  /-- resident workgroups by number (R262; none) -/
  wgs : FMap Workgroup
  /-- resident gangs by number (R264; none) -/
  gangs : FMap Gang
  /-- cores that differ from the reset core: die · 48 + core (1152 cores; R15; reset cores) -/
  cores : FMap Core
  /-- dies that differ from the reset die (24 dies; R12; reset dies) -/
  dies : FMap Die
  /-- frames: physical address ↦ saved workgroup (R362; none) -/
  frames : FMap Frame
  /-- engine commands by number (R217; none) -/
  cmds : FMap Cmd
  /-- scratchpad lines that engines read (R202, R219; none) -/
  locks : List LineLock
  /-- matrix operations that have issued, by number (R197; none) -/
  mops : FMap MatOp
  /-- contexts (1024; R342; none) -/
  ctxs : FMap Context
  /-- launch nodes by number (R350; none) -/
  nodes : FMap Node
  /-- messages by number (R233; none) -/
  msgs : FMap Msg
  /-- device memory behind the stacks, physical address ↦ byte; an unlisted byte reads zero (R278, R403; DESIGN CHOICE zero, log 1) -/
  mem : List Host.Cell
  /-- host memory, host physical address ↦ byte; an unlisted byte reads zero (R278, R401; DESIGN CHOICE zero, log 1) -/
  hostMem : List Host.Cell
  /-- host-side copies of device lines that a device write back-invalidates (R283; none) -/
  hostCopies : List Nat
  /-- `PAMT0` to `PAMT15` (256 bits each; R402; DESIGN CHOICE invalid, log 3) -/
  pamt : List PamtRange
  /-- the host-run table (64 runs; R401; DESIGN CHOICE empty, log 3) -/
  runs : List HostRun
  /-- the import table: window ↦ entry (4096 entries of 256 bits; R397; 0) -/
  imports : FMap ImportEntry
  /-- windows whose revocation waits for accesses still unanswered: window, function (R398; none) -/
  revoking : List (Nat × Nat)
  /-- stage-2 roots by VMID (R368; none) -/
  s2roots : FMap Nat
  /-- ASIDs bound: VMID · 65536 + ASID ↦ the function that bound it (R371; none) -/
  asids : FMap Nat
  /-- partitions: the dies of partition k (8; R400; DESIGN CHOICE none, log 3) -/
  parts : List (List Nat)
  /-- functions 0 to 8 (R400; reset functions) -/
  fns : List Func
  /-- MSI-X vectors raised, oldest first: function and vector (R399; none) -/
  irqs : List (Nat × Nat)
  /-- this package's position: row in bits 3 to 0, column in bits 7 to 4 (8 bits; R388; DESIGN CHOICE 0, log 3) -/
  pkg : Nat
  /-- fabric ports (48; R388; reset ports) -/
  ports : List Port
  /-- flits delivered to the wire, oldest first: port and flit (256 bytes each; R392; none) -/
  flitsOut : List (Nat × List Byte)
  /-- flits of this package that no port takes yet, oldest first, each with whether it needs a sealed port (R391; none) -/
  flitsWait : List (FlitBody × Bool)
  /-- the port, and the detour, that each reliable or management flow was last bound to: class · 65536 + source · 256 + destination (R389 to R391; none) -/
  flows : FMap (Nat × Option Nat)
  /-- next `ESEQ` per flow sent: class · 256 + destination (16 bits; R391; 0) -/
  eseqTx : FMap Nat
  /-- next `ESEQ` expected per flow received: class · 256 + source (16 bits; R391; 0) -/
  eseqRx : FMap Nat
  /-- how far the destination of a reliable flow of this package has acknowledged it: destination ↦ the next `ESEQ` it expects (16 bits; R391; 0) -/
  eseqAck : FMap Nat
  /-- flits that have arrived ahead of their turn in their flow, each with its 256 bytes (R391; none) -/
  early : List (Arrived × List Byte)
  /-- flits that arrived while the controller of their port switched, oldest first: port and flit (R428; none) -/
  heldFlits : List (Nat × List Byte)
  /-- the speed in GT/s and the width in lanes that CXL links 0 and 1 trained to, 0 where one has not (R399; DESIGN CHOICE 0, log 98) -/
  cxlLinks : List (Nat × Nat)
  /-- requests sent into the fabric and not answered (R321; none) -/
  fabricReqs : FMap FabricReq
  /-- what the units of the IO dies and SPAWN have at hand of fabric memory (R219, R321; none) -/
  unitFabric : List UnitFabric
  /-- answers to fabric accesses of other packages, oldest first: tag and data (R397; none) -/
  fabricAnswers : List (Nat × List Byte)
  /-- `LOSSDROP` (128 bits; R332; 0) -/
  lossdrop : BitVec 128
  /-- telemetry counters: identifier · 4096 + index (64 bits each; R435; 0) -/
  telem : FMap Nat
  /-- firmware units: kind · 32 + index (54 units; R405; ROM) -/
  units : FMap Unit
  /-- the compatibility manifest in force (R423; DESIGN CHOICE none, log 3) -/
  manifest : Option Manifest
  /-- the security floor of kinds 1 to 5, in fuses (R424; DESIGN CHOICE 0, log 3) -/
  floors : List Nat
  /-- the live activation in progress (R425; none) -/
  activation : Option Activation
  /-- mailbox commands and doorbells held while their controller switches (R428; none) -/
  heldBells : List (Nat × Nat × Nat × BitVec 64)
  /-- secured sessions by number (R419; none) -/
  sessions : FMap Session
  /-- keys drawn from the key generator this boot (R410, R412; 0) -/
  drawn : Nat
  /-- tickets given this boot (R410; none) -/
  tickets : List (BitVec 64)
  /-- wrapped keys that wait for the firmware of a die: (die · 2 + kind) · 64 + slot ↦ 64 bytes (R412; none) -/
  keyWraps : FMap (List Byte)
  /-- the key ends of the IO dies: (24 + IO die) · 128 + slot ↦ its keys (R412, R413; none) -/
  ioKeys : FMap KeySlot
  /-- the key ends of the base dies' memory interfaces: stack ↦ its keys (R405, R412, R413; none) -/
  baseKeys : FMap KeySlot
  /-- boot count (32 bits; R417; DESIGN CHOICE 0, log 3) -/
  bootCount : Nat
  /-- the start in progress or done (R429; off) -/
  boot : BootPhase
  /-- by when a start in progress must have succeeded: the controller's µs (R429; 0) -/
  startDue : Nat
  /-- when margins are next re-planned: the controller's µs (R434; 0) -/
  replanDue : Nat
  /-- of a re-plan in progress, when its last step was: the controller's µs (R434; none) -/
  replanStep : Option Nat
  /-- minimal mode (R430; 0) -/
  minimal : Bool
  /-- consecutive failed starts, in non-volatile storage (R429; DESIGN CHOICE 0, log 3) -/
  fails : Nat
  /-- the boot-failure record, in non-volatile storage (512 bits; R431; DESIGN CHOICE zero, log 3) -/
  bootRecord : BitVec 512
  /-- `HRT` of each stack (24; R404; 4096) -/
  hrt : List Nat
  /-- rows with a window of activations: stack · 2^24 + row (R23, R404; none) -/
  rowActs : FMap RowWindow
  /-- throttled rows: stack and row (R404; none) -/
  hotRows : List (Nat × HotRow)
  /-- power is removed (R436; 0) -/
  powerOff : Bool
  /-- the management controller's clock in µs (R361, R419, R427; DESIGN CHOICE 0, log 3) -/
  usec : Nat
  deriving DecidableEq, Repr

/-- Why a step stops with a fault. -/
inductive Fault where
  /-- `exec` was asked for a wave's instruction and the wave `cur` is not in a clause, or not resident: there is no thread
  to execute it for. Raised by every wave instruction. Safe: the hardware never issues an instruction without a wave. -/
  | noIssuingWave
  deriving DecidableEq, Repr

/-- Why a step is refused. -/
inductive Refusal where
  /-- an instruction whose meaning is not written yet, by its mnemonic. Raised by `exec`. Safe. -/
  | notModelled (mnemonic : String)
  deriving DecidableEq, Repr

/-- The core right after reset. -/
def Core.reset : Core :=
  { spWays := 0, l1 := [], tlb := [], wcb := [], acc := [],
    merr := { v := false, cnt := 0, kind := 0, qtr := 0, row := 0, col := 0, kidx := 0 },
    gendrop := 0, ctx := none, excl := false }

/-- The die right after reset. -/
def Die.reset : Die :=
  { cycle := 0, l2 := [], tlb := [], walks := [], merge := [], reqs := [], prsLimit := 4096, ovcBase := 0, ovcSize := 0, ovcNext := 0, trbBase := 0,
    trbSize := 3, trbHead := 0, trbTail := 0, trapCnt := 0, heldTraps := [], evMask := 0, evPend := 0,
    timer := BitVec.allOnes 64, mbxWaits := false, spell := false, fseq := 0, faults := [], waiters := [], remoteWaits := [], pins := [],
    preclaims := [], keys := [], frameKeys := [], imports := [], fwHeld := false, throttled := false, shareLow := false,
    stretched := false, margin := (0, 0, 1750) }

/-- A function right after reset. -/
def Func.reset : Func :=
  { fqBase := 0, fqSize := 0, fqVec := 0, fqHead := 0, fqTail := 0, fqOn := false, mbCmd := 0, mbSts := 0, mbVec := 0,
    mbReq := [], mbRsp := [], taken := none }

/-- A port right after reset. -/
def Port.reset : Port :=
  { up := false, peer := 0, spare := false, sealPolicy := true, key := [], txSeq := [0, 0, 0], rxSeq := [0, 0, 0],
    replay := [[], [], []], ackOwed := [false, false, false], txCount := 0, rxCount := 0,
    failTimes := [], timeouts := 0, queue := [], lossyNext := false, epoch := 0 }

/-- A unit right after reset: its ROM image (R406). -/
def Unit.reset : Unit :=
  { slotA := ⟨none, false⟩, slotB := ⟨none, false⟩, activeB := false, rom := true, next := none, failed := false, handA := none, handB := none, commit := 0, resumed := none }

/-- A range of the address-map table that is not valid. -/
def pamtInvalid : PamtRange :=
  { cmask := 0, cbase := 0, smask := 0, v := false, host := false, gran := 0, size := 0, base := 0 }

/-- The package right after reset. -/
def State.reset : State :=
  { tick := 0, agenda := [], cur := 0, nextId := 1, waves := [], ops := [], wgs := [], gangs := [], cores := [], dies := [],
    frames := [], cmds := [], locks := [], mops := [], ctxs := [], nodes := [], msgs := [], mem := [], hostMem := [],
    hostCopies := [], pamt := List.replicate 16 pamtInvalid, runs := [], imports := [], revoking := [], s2roots := [],
    asids := [], parts := List.replicate 8 [], fns := List.replicate 9 Func.reset, irqs := [], pkg := 0,
    ports := List.replicate 48 Port.reset, flitsOut := [], flitsWait := [], flows := [], eseqTx := [], eseqRx := [], eseqAck := [], early := [], heldFlits := [],
    cxlLinks := [(0, 0), (0, 0)], fabricReqs := [], unitFabric := [],
    fabricAnswers := [], lossdrop := 0, telem := [], units := [], manifest := none, floors := [0, 0, 0, 0, 0],
    activation := none, heldBells := [], sessions := [], drawn := 0, tickets := [], keyWraps := [], ioKeys := [], baseKeys := [], bootCount := 0, boot := .off, startDue := 0, replanDue := 0, replanStep := none, minimal := false,
    fails := 0, bootRecord := 0, hrt := List.replicate 24 4096, rowActs := [], hotRows := [], powerOff := false, usec := 0 }

end Sys2Proof.Machine
end

