-- ==== Sys2Proof/Machine/Ops.lean ====
section
/-! DEFINITION. Named operations over the state: accessors, device and host memory, the address map, the caches, events pending, taking a trap and returning from one. -/

namespace Sys2Proof.Machine

/-! ### Lists in order -/

/-- An element put before the first one that it does not follow. -/
def insertBy {α : Type} (le : α → α → Bool) (x : α) : List α → List α
  | [] => [x]
  | y :: t => if le x y then x :: y :: t else y :: insertBy le x t
/-- A list in order; elements that compare equal keep their order. -/
def sortBy {α : Type} (le : α → α → Bool) (l : List α) : List α := l.foldr (insertBy le) []

/-- A list without repeats, in the order of first appearance. -/
def dedup {α : Type} [BEq α] (l : List α) : List α := l.foldl (fun acc x => if acc.contains x then acc else acc ++ [x]) []

/-! ### Accessors -/

/-- The core with key `die · 48 + core`. -/
def State.core (s : State) (k : Nat) : Core := FMap.getD s.cores k Core.reset
/-- The state with core `k` changed. -/
def State.modCore (s : State) (k : Nat) (f : Core → Core) : State := { s with cores := FMap.set s.cores k (f (s.core k)) }
/-- The die `d`. -/
def State.die (s : State) (d : Nat) : Die := FMap.getD s.dies d Die.reset
/-- The state with die `d` changed. -/
def State.modDie (s : State) (d : Nat) (f : Die → Die) : State := { s with dies := FMap.set s.dies d (f (s.die d)) }
/-- The resident wave with key `k`. -/
def State.wave? (s : State) (k : Nat) : Option Wave := FMap.get? s.waves k
/-- The state with wave `k` replaced. -/
def State.setWave (s : State) (k : Nat) (w : Wave) : State := { s with waves := FMap.set s.waves k w }
/-- The state with wave `k`, if resident, changed. -/
def State.modWave (s : State) (k : Nat) (f : Wave → Wave) : State :=
  match s.wave? k with | some w => s.setWave k (f w) | none => s
/-- The workgroup with number `n`. -/
def State.wg? (s : State) (n : Nat) : Option Workgroup := FMap.get? s.wgs n
/-- The state with workgroup `n`, if resident, changed. -/
def State.modWg (s : State) (n : Nat) (f : Workgroup → Workgroup) : State :=
  match s.wg? n with | some w => { s with wgs := FMap.set s.wgs n (f w) } | none => s
/-- The context with number `n`. -/
def State.ctx? (s : State) (n : Nat) : Option Context := FMap.get? s.ctxs n
/-- The state with context `n`, if present, changed. -/
def State.modCtx (s : State) (n : Nat) (f : Context → Context) : State :=
  match s.ctx? n with | some c => { s with ctxs := FMap.set s.ctxs n (f c) } | none => s
/-- The launch node with number `n`. -/
def State.node? (s : State) (n : Nat) : Option Node := FMap.get? s.nodes n
/-- The state with node `n`, if present, changed. -/
def State.modNode (s : State) (n : Nat) (f : Node → Node) : State :=
  match s.node? n with | some c => { s with nodes := FMap.set s.nodes n (f c) } | none => s
/-- The state with operation `n`, if outstanding, changed. -/
def State.modOp (s : State) (n : Nat) (f : Op → Op) : State :=
  match FMap.get? s.ops n with | some c => { s with ops := FMap.set s.ops n (f c) } | none => s
/-- The state with engine command `n`, if outstanding, changed. -/
def State.modCmd (s : State) (n : Nat) (f : Cmd → Cmd) : State :=
  match FMap.get? s.cmds n with | some c => { s with cmds := FMap.set s.cmds n (f c) } | none => s
/-- The state with message `n`, if present, changed. -/
def State.modMsg (s : State) (n : Nat) (f : Msg → Msg) : State :=
  match FMap.get? s.msgs n with | some c => { s with msgs := FMap.set s.msgs n (f c) } | none => s
/-- Element `n` of a list changed. -/
def modAt {α : Type} (l : List α) (n : Nat) (f : α → α) : List α :=
  match l, n with
  | [], _ => []
  | x :: t, 0 => f x :: t
  | x :: t, k + 1 => x :: modAt t k f
/-- The function with number `n` (0 physical, k + 1 partition k; R400). -/
def State.fn (s : State) (n : Nat) : Func := List.getD s.fns n Func.reset
/-- The state with function `n` changed. -/
def State.modFn (s : State) (n : Nat) (f : Func → Func) : State := { s with fns := modAt s.fns n f }
/-- The next number for a new entry, and the state that has used it (log 2). -/
def State.fresh (s : State) : Nat × State := (s.nextId, { s with nextId := s.nextId + 1 })
/-- A telemetry counter raised by one, saturating (R435). -/
def State.count (s : State) (id idx : Nat) : State :=
  { s with telem := FMap.set s.telem (id * 4096 + idx) (min (2 ^ 64 - 1) (FMap.getD s.telem (id * 4096 + idx) 0 + 1)) }

/-- The core of a wave key (R17). -/
def waveCore (k : Nat) : Nat := k / 64
/-- The die of a wave key. -/
def waveDie (k : Nat) : Nat := k / 64 / 48
/-- The core number within the die. -/
def waveCoreIn (k : Nat) : Nat := k / 64 % 48
/-- The quarter of a wave key. -/
def waveQtr (k : Nat) : Nat := k / 16 % 4
/-- The slot of a wave key within its quarter. -/
def waveSlot (k : Nat) : Nat := k % 16
/-- The key of a wave. -/
def waveKey (die core qtr slot : Nat) : Nat := ((die * 48 + core) * 4 + qtr) * 16 + slot
/-- A core is a stream core (R15). -/
def streamCore (core : Nat) : Bool := 40 ≤ core % 48
/-- The ways of a core's local SRAM (R19). -/
def coreWays (core : Nat) : Nat := if streamCore core then 32 else 16

/-- Bits `lo` to `lo + n − 1` of a number. -/
def bits (v lo n : Nat) : Nat := v / 2 ^ lo % 2 ^ n
/-- The positions of the set bits of a number below `n`, rising. -/
def setBits (v n : Nat) : List Nat := (List.range n).filter fun i => v.testBit i

/-- Two ranges of addresses meet. -/
def meets (a n b m : Nat) : Bool := decide (a < b + m) && decide (b < a + n)

/-! ### Memory as a canonical list of cells (R4) -/

/-- Bytes by address: addresses strictly rising, no entry equal to what an unlisted address reads as. -/
abbrev Memory := List Host.Cell

/-- What an unlisted address reads as (DESIGN CHOICE zero, log 1). -/
def Memory.unlisted : Byte := 0

/-- The byte at address `a`. -/
def Memory.get : Memory → Nat → Byte
  | [], _ => Memory.unlisted
  | (j, v) :: t, a => if j = a then v else Memory.get t a

/-- The memory with byte `v` at `a`, in canonical form. -/
def Memory.put : Memory → Nat → Byte → Memory
  | [], a, v => if v = Memory.unlisted then [] else [(a, v)]
  | (j, w) :: t, a, v =>
    if a < j then (if v = Memory.unlisted then (j, w) :: t else (a, v) :: (j, w) :: t)
    else if j = a then (if v = Memory.unlisted then t else (a, v) :: t)
    else (j, w) :: Memory.put t a v

/-- The canonical form holds: addresses rise and no entry reads as an unlisted address. -/
def Memory.wf : Memory → Bool
  | [] => true
  | [(_, v)] => v != Memory.unlisted
  | (a, v) :: (b, w) :: t => v != Memory.unlisted && decide (a < b) && Memory.wf ((b, w) :: t)

/-- `n` bytes from address `a`. -/
def Memory.read (m : Memory) (a n : Nat) : List Byte := (List.range n).map fun i => m.get (a + i)

/-- Bytes written from address `a` on. -/
def Memory.write (m : Memory) (a : Nat) : List Byte → Memory
  | [] => m
  | b :: t => Memory.write (m.put a b) (a + 1) t

/-! ### The address map (R278, R279, R401 to R403) -/

/-- What stands behind a physical address. -/
inductive Backing where
  /-- device memory, with its home die -/
  | dev (die : Nat)
  /-- host memory: home die of the device's copies, host physical address -/
  | host (die hpa : Nat)
  /-- fabric memory: aperture descriptor and offset -/
  | fabric (idx off : Nat)
  /-- unbacked, with the home die when the address has one -/
  | none (die : Option Nat)
  deriving DecidableEq, Repr

/-- The range of the address-map table that covers `a` (R402). -/
def State.pamtFor (s : State) (a : Nat) : Option PamtRange :=
  s.pamt.find? fun r => r.v && decide (r.base ≤ a) && decide (a < r.base + r.size)

/-- The home die a range gives an address (R403). -/
def pamtHome (r : PamtRange) (a : Nat) : Nat :=
  let st := setBits r.smask.toNat 24
  st.getD ((a - r.base) / (192 * 2 ^ r.gran) % st.length) 0

/-- The host physical address of a device-side host address (R401). -/
def State.hostAddr (s : State) (da : Nat) : Option Nat :=
  match s.runs.find? fun r => decide (r.db ≤ da) && decide (da < r.db + r.len) with
  | some r => some (r.hb + (da - r.db))
  | none => none

/-- What stands behind physical address `a` (R278, R279, R403). -/
def State.backing (s : State) (a : Nat) : Backing :=
  match bits a 48 4 with
  | 15 => .fabric (bits a 40 8) (bits a 0 40)
  | 14 =>
    match s.pamtFor a with
    | some r =>
      if r.host then
        match s.hostAddr (bits a 0 48) with
        | some h => .host (pamtHome r a) h
        | none => .none (some (pamtHome r a))
      else .none none
    | none => .none none
  | _ =>
    match s.pamtFor a with
    | some r => if r.host then .none none else .dev (pamtHome r a)
    | none => .none none

/-- The home die of a backed local or host address (R278). -/
def State.home? (s : State) (a : Nat) : Option Nat :=
  match s.backing a with
  | .dev d => some d
  | .host d _ => some d
  | .fabric _ _ => none
  | .none d => d

/-- The translating die of an IO die (R440). -/
def translatingDie (iod : Nat) : Nat := match iod with | 0 => 0 | 1 => 3 | 2 => 18 | _ => 21

/-! ### The links of the package (R12, R13) -/

/-- The ends of the 50 die-to-die links: along the rows, along the columns, and to the IO dies, which stand as dies 24 to 27 (R12, R13). -/
def dieLinks : List (Nat × Nat) :=
  ((List.range 24).filter fun d => d % 6 < 5).map (fun d => (d, d + 1)) ++ (List.range 18).map (fun d => (d, d + 6)) ++
    (List.range 4).flatMap fun i => (List.range 3).map fun k => (translatingDie i + k, 24 + i)
/-- The links of a die, in that order: a link's place in the list is its key slot (DESIGN CHOICE, log 73). -/
def linksOf (die : Nat) : List (Nat × Nat) := dieLinks.filter fun l => l.1 == die || l.2 == die
/-- The key slots of a die (R13, R255): kind 0, one for each of its links; kind 1, one, for its memory interface; kind 2, of gang frame keys, as
many as the device has. -/
def hasKeySlot (die kind slot : Nat) : Bool :=
  match kind with
  | 0 => decide (slot < (linksOf die).length)
  | 1 => slot == 0 && decide (die < 24)
  | 2 => Config.frameKeySlot die slot
  | _ => false
/-- The other end of a link: die and key slot. -/
def farEnd (die slot : Nat) : Option (Nat × Nat) :=
  ((linksOf die)[slot]?).map fun l =>
    let d := if l.1 = die then l.2 else l.1
    (d, ((linksOf d).findIdx? (· == l)).getD 0)

/-- A link end without a key. -/
def KeySlot.empty : KeySlot := ⟨none, none, false⟩
/-- A key loaded as the next one (R413); one that the end sends under already is its current key. -/
def KeySlot.load (k : KeySlot) (e : Nat × List Byte) : KeySlot := ⟨if k.sending then k.nxt else k.cur, some e, false⟩
/-- An end has the key of an epoch. -/
def KeySlot.has (k : KeySlot) (epoch : Nat) : Bool := (k.nxt.any fun e => e.1 == epoch) || (k.cur.any fun e => e.1 == epoch)
/-- An end sends under the key of an epoch. -/
def KeySlot.sends (k : KeySlot) (epoch : Nat) : Bool := (if k.sending then k.nxt else k.cur).any fun e => e.1 == epoch
/-- A step of a link end (R413): with the next key loaded at both ends it sends under it; the first flit of that epoch from the far end has it drop
the old one. -/
def KeySlot.step (me far : KeySlot) : KeySlot :=
  match me.nxt with
  | some e => if far.sends e.1 then ⟨some e, none, false⟩ else if far.has e.1 then { me with sending := true } else me
  | none => me

/-- An unbacked access counted (R279): by the home die, else by the die that translated. -/
def State.countUnbacked (s : State) (home : Option Nat) (die : Nat) : State := s.count 0x03 (home.getD die)

/-! ### Sectors, caches and homes (R282 to R284, R291, R292) -/

/-- The number of bytes of a sector (R282). -/
def sectorBytes : Nat := 48

/-- The class of a fabric address: its aperture shifts the residue of R281 by `2^14` times this, since `2^40` leaves `2^14` modulo 49152. -/
def fabClass (pa : Nat) : Nat := bits pa 40 8 % 3

/-- The place of a byte of a window among the sectors of a class: with the shift, it has the residue of its physical address (R281). -/
def fabPlace (cls off : Nat) : Nat := off % 2 ^ 40 + cls % 3 * 2 ^ 14

/-- The cache key of a sector of fabric memory: by package, window and place, so that two apertures of one class on one window name one
sector, and its set, sector and byte are those of its address (R21, R281, R282, R396; log 4). A key of other memory is the sector's
physical address / 48. -/
def fabKey (a : Aperture) (cls off : Nat) : Nat := 2 ^ 60 + ((a.pkg % 256 * 4096 + a.win % 4096) * 3 + cls % 3) * 2 ^ 36 + fabPlace cls off / 48

/-- The keys that a byte of a window may lie under: one for each class. -/
def fabKeys (a : Aperture) (off : Nat) : List Nat := [fabKey a 0 off, fabKey a 1 off, fabKey a 2 off]

/-- The physical address of a sector key; of a fabric sector, an address of the fabric region. -/
def secAddr (key : Nat) : Nat := if 2 ^ 60 ≤ key then 15 * 2 ^ 48 else key * 48

/-- The 192-byte line of a sector key: four sectors (R282). -/
def keyLine (key : Nat) : Nat := key / 4

/-- `off(a)`, the residue of an address modulo 49152, as the hardware forms it (R281). -/
def offOf (a : Nat) : Nat := a / 2 ^ 14 % 3 * 2 ^ 14 + a % 2 ^ 14
/-- The L1 set of an address, 0 to 255 (R281). -/
def l1Set (a : Nat) : Nat := offOf a / 192
/-- The sector of an address within its line (R281). -/
def l1Sector (a : Nat) : Nat := offOf a % 192 / 48
/-- The L1 set of a sector key: that of its address; of fabric memory, of its place, which has the residue of its address (R281). -/
def keySet (key : Nat) : Nat := keyLine key % 256

/-- The first byte of the 192-byte line of a fabric address (R322). -/
def fabricLine (pa : Nat) : Nat := pa - bits pa 0 40 % 192

/-- Bytes `lo …` of a sector replaced. -/
def splice (old : List Byte) (lo : Nat) (new : List Byte) : List Byte :=
  old.take lo ++ new ++ old.drop (lo + new.length)

/-- The 8 bytes of an entry of a PC table (R27). -/
def PcEntry.bytes (e : PcEntry) : List Byte :=
  leBytes 8 (e.slot % 16 + e.cla.toNat * 2 ^ 4 + e.skip % 64 * 2 ^ 56 + e.blk.toNat * 2 ^ 62 + e.x.toNat * 2 ^ 63)

/-- The PC tables of a frame: where each stands in the frame, and its 256 bytes, lane 0 first (R27, R362). The blocks of the waves
stand behind the header and the workgroup block, in order. -/
def pcTables (off : Nat) : List SavedWave → List (Nat × List Byte)
  | [] => []
  | x :: t => (off, x.wave.pct.flatMap PcEntry.bytes) :: pcTables (off + 3072 + 128 * x.wave.holds.length) t

/-- A frame that covers an address (R362): its PC tables lie as R27 gives them, its other bytes are the device's own, and of a sealed
frame every byte. -/
def State.frameByte? (s : State) (a : Nat) : Option Byte :=
  match s.frames.find? fun f => decide (f.1 ≤ a) && decide (a < f.1 + f.2.length) with
  | some f =>
    match if f.2.sealed then none else (pcTables 384 f.2.waves).find? fun p => decide (f.1 + p.1 ≤ a) && decide (a < f.1 + p.1 + 256) with
    | some p => some (List.getD p.2 (a - f.1 - p.1) 0)
    | none => some (List.getD (Config.frameBytes f.1) (a - f.1) 0)
  | none => none

/-- The sector as the stack or the host holds it (R403, R401). -/
def State.rawSector (s : State) (key : Nat) : List Byte :=
  match s.backing (secAddr key) with
  | .dev _ => (List.range 48).map fun i =>
      match s.frameByte? (secAddr key + i) with | some b => b | none => Memory.get s.mem (secAddr key + i)
  | .host _ h => Memory.read s.hostMem h 48
  | _ => List.replicate 48 0

/-- The sector at its DEV home (R283): the home L2's copy, or what stands behind it. -/
def State.homeSector (s : State) (key : Nat) : List Byte :=
  match s.home? (secAddr key) with
  | some d => match FMap.get? (s.die d).l2 key with | some c => c.data | none => s.rawSector key
  | none => List.replicate 48 0

/-- A byte at its DEV home. -/
def State.homeByte (s : State) (pa : Nat) : Byte := List.getD (s.homeSector (pa / 48)) (pa % 48) 0

/-- `n` bytes at their DEV home: an engine's read (R219). An unbacked byte reads zero. -/
def State.homeRead (s : State) (pa n : Nat) : List Byte := (List.range n).map fun i => s.homeByte (pa + i)

/-- One of the things the device may choose, by a free choice. -/
def pickOf {α : Type} (n : Nat) (l : List α) (d : α) : α := l.getD (n % l.length) d

/-- The host's copies of a device line are back-invalidated when a device write reaches the home (R283). -/
def State.backInvalidate (s : State) (key : Nat) : State :=
  { s with hostCopies := s.hostCopies.filter fun l => l != secAddr key / 192 }

/-! ### Rows of the stacks (R403, R404) -/

/-- The stack of an address and the row of it that holds the address, by its channel, bank and row (R403). -/
def pamtRow (r : PamtRange) (a : Nat) : Nat × Nat :=
  let o := a - r.base
  let g := 192 * 2 ^ r.gran
  let j := o / g / (setBits r.smask.toNat 24).length
  let ch := setBits r.cmask.toNat 32
  let ca := 3072 * r.cbase + j / ch.length * g + o % g
  (pamtHome r a, ch.getD (j % ch.length) 0 * 2 ^ 19 + ca / 3072)

/-- A telemetry counter raised by a number, saturating (R435). -/
def State.countBy (s : State) (id idx n : Nat) : State :=
  { s with telem := FMap.set s.telem (id * 4096 + idx) (min (2 ^ 64 - 1) (FMap.getD s.telem (id * 4096 + idx) 0 + n)) }

/-- An activation of a row counted in its window of 32 ms, which keeps the threshold that held when it began (R404). -/
def State.countRow (s : State) (stack row : Nat) : State :=
  let key := stack * 2 ^ 24 + row
  let new : RowWindow := match FMap.get? s.rowActs key with
    | some w => if s.usec < w.start + 32000 then { w with count := w.count + 1 } else ⟨s.usec, s.hrt.getD stack 4096, 1⟩
    | none => ⟨s.usec, s.hrt.getD stack 4096, 1⟩
  { s with rowActs := FMap.set s.rowActs key new }

/-- The row of device memory that an address lies in (R404): stack and row. -/
def State.rowOf? (s : State) (a : Nat) : Option (Nat × Nat) :=
  match s.pamtFor a with
  | some r => if r.host then none else some (pamtRow r a)
  | none => none

/-- A throttled row changed. -/
def State.modRow (s : State) (stack row : Nat) (f : HotRow → HotRow) : State :=
  { s with hotRows := s.hotRows.map fun h => if h.1 = stack ∧ h.2.row = row then (h.1, f h.2) else h }

/-- A request activates the row of an address (R404): of a throttled row it takes the activation of the interval. -/
def State.activate (s : State) (a : Nat) : State :=
  match s.rowOf? a with
  | some (stack, row) => (s.modRow stack row fun h => { h with permit := false, turn := none }).countRow stack row
  | none => s

/-- A line that leaves an L2 activates its row; it is written to a throttled row with that row's next activation (R404; log 94). -/
def State.activateOut (s : State) (a : Nat) : State :=
  match s.rowOf? a with
  | some (stack, row) => if s.hotRows.any fun h => h.1 == stack && h.2.row == row then s else s.countRow stack row
  | none => s

/-- A row of an address is throttled, and the interval's activation is not the request's to take (R404): it is used, or another's turn, or others
are in the side queue. -/
def State.rowShut (s : State) (who : ReqKind) (a : Nat) : Bool :=
  match s.rowOf? a with
  | some (stack, row) => s.hotRows.any fun h => h.1 == stack && h.2.row == row &&
      !(h.2.permit && (h.2.turn == some who || (h.2.turn.isNone && h.2.queued.isEmpty)))
  | none => false

/-- A request enters the side queue of a throttled row, in its arrival order, and is counted as delayed, once (R404). -/
def State.joinRow (s : State) (who : ReqKind) (a : Nat) : State :=
  match s.rowOf? a with
  | some (stack, row) =>
    if s.hotRows.any fun h => h.1 == stack && h.2.row == row && !(h.2.turn == some who || h.2.queued.contains who) then
      (s.modRow stack row fun h => { h with queued := h.queued ++ [who] }).count 0x12 stack
    else s
  | none => s

/-- The home L2 has no copy of an address's sector: its row must be activated. -/
def State.missesHome (s : State) (a : Nat) : Bool := match s.home? a with | some d => (FMap.get? (s.die d).l2 (a / 48)).isNone | none => false
/-- A row is activated for an access at the home that finds no copy there. -/
def State.touch (s : State) (a : Nat) : State := if s.missesHome a then s.activate a else s
/-- A core's L1 or its die's L2 has a sector. -/
def State.coreHas (s : State) (core key : Nat) : Bool := (FMap.get? (s.core core).l1 key).isSome || (FMap.get? (s.die (core / 48)).l2 key).isSome

/-- One address of each row that ranges of bytes need from memory. -/
def State.rowAddrs (s : State) (l : List (Nat × Nat)) : List Nat :=
  (l.flatMap fun p => ((List.range (if p.2 = 0 then 0 else (p.1 + p.2 - 1) / 48 - p.1 / 48 + 1)).map fun i => 48 * (p.1 / 48 + i)).filter s.missesHome).foldl
    (fun acc a => if acc.any fun b => s.rowOf? b == s.rowOf? a then acc else acc ++ [a]) []

/-- A request for ranges of bytes at the home (R404): its rows are activated, unless one of them keeps it in a side queue. -/
def State.rowGate (s : State) (who : ReqKind) (l : List (Nat × Nat)) : Bool × State :=
  let rows := s.rowAddrs l
  match rows.filter (s.rowShut who) with
  | [] => (true, rows.foldl State.activate s)
  | shut => (false, shut.foldl (fun t a => t.joinRow who a) s)

/-- A whole sector written to the stack or to the host (R282, R283). -/
def State.writeBehind (s : State) (key : Nat) (data : List Byte) : State :=
  match s.backing (secAddr key) with
  | .dev _ =>
    ({ s with mem := Memory.write s.mem (secAddr key) data,
              frames := s.frames.map fun (f : Nat × Frame) =>
                if f.1 ≤ secAddr key ∧ secAddr key < f.1 + f.2.length ∧ data ≠ s.rawSector key then (f.1, { f.2 with torn := true }) else f }
      : State).activateOut (secAddr key)
  | .host _ h => { s with hostMem := Memory.write s.hostMem h data }
  | _ => s

/-- A pinned address of a die's L2 (R286). -/
def State.pinned (s : State) (die pa : Nat) : Bool :=
  (s.die die).pins.any fun p => decide (p.pa ≤ pa) && decide (pa < p.pa + p.len)

/-- The 192-byte lines that 64 MiB hold (R22, R24, R282). -/
def l2Lines : Nat := 349525
/-- An L2 holds as many lines as it can, and not that of a sector (R282). -/
def Die.l2Full (d : Die) (key : Nat) : Bool :=
  decide (l2Lines ≤ d.l2.length) && !(d.l2.any fun p => keyLine p.1 == keyLine key) &&
  decide (l2Lines ≤ (dedup (d.l2.map fun p => keyLine p.1)).length)

/-- A sector stored in an L2 that has room for it. -/
def State.setL2 (s : State) (d key : Nat) (data : List Byte) (dirty : Bool) : State :=
  s.modDie d fun x => { x with l2 := FMap.set x.l2 key ⟨data, dirty, 0⟩ }

/-- A sector leaves an L2 by eviction (R282, R284): a dirty one is written to the next level: from its home to its stack or the host,
from another die to its home's copy, or behind the home where it holds none. -/
def State.l2Out (s : State) (d key : Nat) (c : Sector) : State :=
  let s1 := s.modDie d fun x => { x with l2 := FMap.erase x.l2 key }
  match if c.dirty then s.home? (secAddr key) else none with
  | none => s1
  | some h =>
    if h = d then s1.writeBehind key c.data
    else
      match FMap.get? (s.die h).l2 key with
      | some _ => (s1.setL2 h key c.data true).backInvalidate key
      | none => (s1.writeBehind key c.data).backInvalidate key

/-- Room in an L2 for the line of a sector (R282, R286): where it is full, a line leaves that is not pinned; which one is the device's
choice. -/
def State.l2Room (s : State) (d key : Nat) : State :=
  if (s.die d).l2Full key then
    let ls := ((s.die d).l2.filter fun p => !s.pinned d (secAddr p.1)).map fun p => keyLine p.1
    let v := pickOf (Config.freeChoice s.tick) (dedup ls) 0
    ((s.die d).l2.filter fun p => keyLine p.1 == v).foldl (fun t p => t.l2Out d p.1 p.2) s
  else s

/-- A sector put into an L2, which makes room for it. -/
def State.putL2 (s : State) (d key : Nat) (data : List Byte) (dirty : Bool) : State := (s.l2Room d key).setL2 d key data dirty

/-- A whole sector written at its home L2, dirty (R282); an unbacked sector is dropped. -/
def State.writeHomeSector (s : State) (key : Nat) (data : List Byte) : State :=
  match s.home? (secAddr key) with
  | some d => (s.putL2 d key data true).backInvalidate key
  | none => s

/-- A sector of the home L2 cleaned to its stack or to the host; the copy stays, clean (R183, R283). -/
def State.cleanHome (s : State) (key : Nat) : State :=
  match s.home? (secAddr key) with
  | none => s
  | some d =>
    match FMap.get? (s.die d).l2 key with
    | some c => if c.dirty then (s.putL2 d key c.data false).writeBehind key c.data else s
    | none => s

/-- Bytes within one sector written at the DEV home (R219, R291); of host memory, performed at SYS through the home L2,
whose copy, if there is one, is updated and stays valid (R283). -/
def State.homeWriteIn (s : State) (pa : Nat) (bs : List Byte) : State :=
  match s.backing pa with
  | .dev d => ((s.putL2 d (pa / 48) (splice (s.homeSector (pa / 48)) (pa % 48) bs) true).backInvalidate (pa / 48))
  | .host d h =>
    let s1 := { s with hostMem := Memory.write s.hostMem h bs }
    match FMap.get? (s.die d).l2 (pa / 48) with
    | some c => s1.putL2 d (pa / 48) (splice c.data (pa % 48) bs) c.dirty
    | none => s1
  | _ => s

/-- A list of bytes cut at the sector boundaries: address and bytes of each part. -/
def cutSectors (fuel pa : Nat) (bs : List Byte) : List (Nat × List Byte) :=
  match fuel with
  | 0 => []
  | k + 1 =>
    if bs.isEmpty then []
    else
      let n := 48 - pa % 48
      (pa, bs.take n) :: cutSectors k (pa + n) (bs.drop n)

/-- Bytes written at their DEV home, or at SYS for host memory: an engine's write (R219, R300). -/
def State.homeWrite (s : State) (pa : Nat) (bs : List Byte) : State :=
  (cutSectors (bs.length / 48 + 2) pa bs).foldl (fun t p => t.homeWriteIn p.1 p.2) s

/-- Bytes written at SYS and at the home (R374, R350, R356): as an engine's write, and a device line is left in the home L2. -/
def State.sysWrite (s : State) (pa : Nat) (bs : List Byte) : State := s.homeWrite pa bs

/-- A host physical write by the device to a ring in host memory (R374): an address the host gives is a host address. -/
def State.hostWrite (s : State) (hpa : Nat) (bs : List Byte) : State := { s with hostMem := Memory.write s.hostMem hpa bs }

/-- A whole sector leaves an L1 for the next level (R282): the issuing die's L2, which is the home or a copy. -/
def State.l1Out (s : State) (core key : Nat) (data : List Byte) : State :=
  match s.home? (secAddr key) with
  | some d => if d = core / 48 then s.writeHomeSector key data else s.putL2 (core / 48) key data true
  | none => s

/-- The ways of a core that serve as L1 (R19). -/
def State.l1Ways (s : State) (core : Nat) : List Nat :=
  let sp := (s.core core).spWays
  (List.range (coreWays core - sp)).map (sp + ·)

/-- What a way of an L1 holds in the set of a line: the sectors of one line (R19, R281). -/
def State.inWay (s : State) (core key way : Nat) : List (Nat × Sector) :=
  (s.core core).l1.filter fun p => keySet p.1 == keySet key && p.2.way == way

/-- The way that the line of a sector takes in an L1, and the L1 with room for it there (R19, R282): a way whose set is free, else
a line leaves its set, its dirty sectors written to the next level. Which way is the device's choice. -/
def State.l1Room (s : State) (core key : Nat) : Nat × State :=
  let ws := s.l1Ways core
  match ws.filter fun w => (s.inWay core key w).isEmpty with
  | w :: t => (pickOf (Config.freeChoice s.tick) (w :: t) w, s)
  | [] =>
    let way := pickOf (Config.freeChoice s.tick) ws 0
    let out := s.inWay core key way
    let s1 := out.foldl (fun t p => if p.2.dirty then t.l1Out core p.1 p.2.data else t) s
    (way, s1.modCore core fun x => { x with l1 := x.l1.filter fun p => !(out.any fun q => q.1 == p.1) })

/-- A sector put into an L1: beside the sectors of its line, or in a way that has room for the line. -/
def State.putL1 (s : State) (core key : Nat) (data : List Byte) (dirty : Bool) : State :=
  let (way, s1) := match (s.core core).l1.find? fun p => keyLine p.1 == keyLine key with
    | some p => (p.2.way, s)
    | none => s.l1Room core key
  s1.modCore core fun x => { x with l1 := FMap.set x.l1 key ⟨data, dirty, way⟩ }

/-- A sector read by a core (R291): its L1, else the issuing die's L2, else the home; a miss fills every level, but not
the L1 under NA (R176). -/
def State.coreSector (s : State) (core key : Nat) (na : Bool) : List Byte × State :=
  match FMap.get? (s.core core).l1 key with
  | some c => (c.data, s)
  | none =>
    match FMap.get? (s.die (core / 48)).l2 key with
    | some c => (c.data, if na then s else s.putL1 core key c.data false)
    | none =>
      let data := s.homeSector key
      let s1 := match s.home? (secAddr key) with
        | some d =>
          let t := match FMap.get? (s.die d).l2 key with | some _ => s | none => (s.putL2 d key data false).activate (secAddr key)
          if d = core / 48 then t else t.putL2 (core / 48) key data false
        | none => s
      (data, if na then s1 else s1.putL1 core key data false)

/-- `n` bytes within one sector, read by a core. -/
def State.coreRead (s : State) (core pa n : Nat) (na : Bool) : List Byte × State :=
  let (d, s1) := s.coreSector core (pa / 48) na
  ((d.drop (pa % 48)).take n, s1)

/-- Bytes within one sector, stored by a core: performed in its L1, which fills first (R282, R291). -/
def State.coreWrite (s : State) (core pa : Nat) (bs : List Byte) : State :=
  let (d, s1) := s.coreSector core (pa / 48) false
  s1.putL1 core (pa / 48) (splice d (pa % 48) bs) true

/-- A key names fabric memory (R278). -/
def fabricKey (key : Nat) : Bool := bits (secAddr key) 48 4 == 15

/-- One sector of a core's L1 cleaned outward: to the issuing die's L2, or with `toHome` on to its DEV home (R182, R183). -/
def State.cleanL1 (s : State) (core key : Nat) (toHome : Bool) : State :=
  match FMap.get? (s.core core).l1 key with
  | some c =>
    if c.dirty then
      let s1 := s.putL1 core key c.data false
      match s.home? (secAddr key) with
      | some d =>
        if d = core / 48 then s1.writeHomeSector key c.data
        else if toHome then (s1.putL2 (core / 48) key c.data false).writeHomeSector key c.data
        else s1.putL2 (core / 48) key c.data true
      | none => s1
    else s
  | none => s

/-- A dirty copy in a non-home L2 cleaned to its DEV home. -/
def State.cleanCopy (s : State) (die key : Nat) : State :=
  match FMap.get? (s.die die).l2 key with
  | some c =>
    if c.dirty && s.home? (secAddr key) != some die then (s.putL2 die key c.data false).writeHomeSector key c.data else s
  | none => s

/-- A sector of host memory. -/
def State.hostKey (s : State) (key : Nat) : Bool :=
  match s.backing (secAddr key) with | .host _ _ => true | _ => false

/-- The scopes above CORE in order of reach: 1 GANG and DIE, 2 DEV, 3 SYS (R283). -/
def Scope.reach : Scope → Nat | .core => 0 | .gang => 1 | .die => 1 | .dev => 2 | .sys => 3

/-- A publish of a core's stores at a scope (R182, R283): every dirty L1 sector reaches the home of the scope; at DEV and
above, dirty copies in the issuing die's L2 reach their home too; at SYS, host sectors are written to the host. -/
def State.publish (s : State) (core : Nat) (sc : Scope) : State :=
  if Scope.reach sc = 0 then s
  else
    let s1 := (FMap.keys (s.core core).l1).foldl (fun t k => t.cleanL1 core k (2 ≤ Scope.reach sc)) s
    if Scope.reach sc = 1 then s1
    else
      let s2 := (FMap.keys (s1.die (core / 48)).l2).foldl (fun t k => t.cleanCopy (core / 48) k) s1
      if Scope.reach sc = 2 then s2
      else s2.dies.foldl (fun t p => (FMap.keys p.2.l2).foldl (fun u k => if u.hostKey k then u.cleanHome k else u) t) s2

/-- The fabric reads of a core that `p` selects fill no L1 when they are answered: their data is older than what has been asked for since. -/
def State.staleReads (s : State) (core : Nat) (p : FabricReq → Bool) : State :=
  { s with fabricReqs := s.fabricReqs.map fun (r : Nat × FabricReq) =>
      if r.2.core = core && r.2.acc.kind == 0 && p r.2 then (r.1, { r.2 with stale := true }) else r }

/-- A refresh of a core at a scope (R182, R283): copies between the core and the home of the scope are discarded, a dirty
one first written outward as an eviction writes it; a fabric line under way fills no L1 (R293, R297). At SYS those of host memory in the home L2 are among them; copies in the L2
of another die that is not their home stay. -/
def State.refresh (s : State) (core : Nat) (sc : Scope) : State :=
  if Scope.reach sc = 0 then s
  else
    let s1 := (FMap.keys (s.core core).l1).foldl (fun t k => t.cleanL1 core k false) (s.staleReads core fun _ => true)
    let s2 := s1.modCore core fun c => { c with l1 := [] }
    if Scope.reach sc = 1 then s2
    else
      let die := core / 48
      let s3 := (FMap.keys (s2.die die).l2).foldl (fun t k => t.cleanCopy die k) s2
      let s4 := s3.modDie die fun d => { d with l2 := d.l2.filter fun p => s3.home? (secAddr p.1) == some die }
      if Scope.reach sc = 2 then s4
      else
        let s5 := s4.dies.foldl (fun t p => (FMap.keys p.2.l2).foldl (fun u k => if u.hostKey k then u.cleanHome k else u) t) s4
        s5.dies.foldl (fun t p => t.modDie p.1 fun d =>
          { d with l2 := d.l2.filter fun q => !(s5.hostKey q.1 && s5.home? (secAddr q.1) == some p.1) }) s5

/-! ### Events pending (R246) -/

/-- `EVPEND` bits: TRP 0, HLT 1, FLT 2, OVF 3, MBX 4, TMR 5. -/
def State.raiseEv (s : State) (die : Nat) (bit : Nat) : State :=
  s.modDie die fun d => { d with evPend := d.evPend ||| ((1 : BitVec 32) <<< bit) }

/-- Parked requests in the cellar of a die (`PRS_USED`, R242). -/
def Die.prsUsed (d : Die) : Nat := (d.reqs.filter fun p => p.2.place == .cellar).length
/-- Overflow records of a die (`OVC_USED`, R242). -/
def Die.ovcUsed (d : Die) : Nat := (d.reqs.filter fun p => p.2.place == .ring).length
/-- Requests held at L2 ingress (R378). -/
def Die.heldReqs (d : Die) : Nat := (d.reqs.filter fun p => p.2.place == .held).length

/-- The bits of `EVPEND` whose condition holds at this moment (R246, R378). -/
def Die.evNow (d : Die) : BitVec 32 :=
  (if d.trbHead ≠ d.trbTail then 1 else 0) ||| (if d.spell then 8 else 0) ||| (if d.mbxWaits then 16 else 0) |||
  (if d.timer.toNat ≤ d.cycle.toNat then 32 else 0)

/-- `EVPEND` with every bit whose condition holds (R246). -/
def Die.settle (d : Die) : Die := { d with evPend := d.evPend ||| d.evNow }

/-! ### Taking a trap and returning from one (R50 to R52, R244, R249) -/

/-- The 64-byte trap record (R52). -/
def trapRecord (word : BitVec 80) (detail pc lanes asid vmid key cls : Nat) : List Byte :=
  leBytes 64 (cls * 2 ^ 160 + waveDie key * 2 ^ 175 + waveCoreIn key * 2 ^ 180 + waveQtr key * 2 ^ 186 + waveSlot key * 2 ^ 188 +
    vmid * 2 ^ 196 + asid * 2 ^ 208 + lanes * 2 ^ 224 + pc * 2 ^ 256 + detail % 2 ^ 64 * 2 ^ 320 + word.toNat * 2 ^ 432)

/-- Trap records written into the ring while it has room, oldest first (R244). -/
def State.drainTraps (s : State) (die : Nat) : List (List Byte) → State
  | [] => s
  | r :: t =>
    let d := s.die die
    if (d.trbHead + 1) % d.trbSize = d.trbTail then
      s.modDie die fun x => { x with heldTraps := r :: t }
    else
      let s1 := s.homeWrite (d.trbBase + 64 * d.trbHead) r
      State.drainTraps (s1.modDie die fun x =>
        { x with trbHead := (x.trbHead + 1) % x.trbSize, trapCnt := x.trapCnt + 1, heldTraps := t,
                 evPend := x.evPend ||| 1 }) die t

/-- A trap record delivered: written, or held behind the records already held (R244). -/
def State.deliverTrap (s : State) (die : Nat) (r : List Byte) : State :=
  State.drainTraps s die ((s.die die).heldTraps ++ [r])

/-- The number of the workgroup's core index for a core (R262). -/
def Workgroup.coreIdx (g : Workgroup) (core : Nat) : Nat := (g.cores.findIdx? (· == core)).getD 0
/-- The scratchpad size of a workgroup on one of its cores (R173, R287). -/
def Workgroup.size (g : Workgroup) (ci : Nat) : Nat := g.spSizes.getD ci 0

/-- Taking a trap (R50, R51, R52): the run is recorded in the PC table at (`cla`, `slot`), the wave stops, the clause ends
there, and the die's firmware receives a trap record. `check` tells a trap of the clause check from one at issue. A trap of the
firmware wave itself holds all that needs the die's firmware (R441). A privileged wave has no context: `ASID` and `VMID` of its
record are zero (DESIGN CHOICE, log 104). -/
def State.takeTrap (s : State) (key : Nat) (check : Bool) (cls : Nat) (detail : Nat) (word : BitVec 80)
    (run : LaneMask) (cla : BitVec 52) (slot : Nat) : State :=
  match s.wave? key with
  | none => s
  | some w =>
    let (asid, vmid) := match s.ctx? w.ctx with | some c => (c.asid, c.vmid) | none => (0, 0)
    let pct := (laneNums.zip w.pct).map fun p => if run.has p.1 then { p.2 with cla := cla, slot := slot } else p.2
    let s1 := s.setWave key { w with pct := pct, stop := (if check then .trapCheck else .trapSlot), active := false,
                                     clause := if check then none else w.clause }
    let s2 := if w.priv then s1.modDie (waveDie key) fun d => { d with fwHeld := true } else s1
    s2.deliverTrap (waveDie key)
      (trapRecord word detail (cla.toNat * 16 + slot) run.toNat asid vmid key cls)

/-- The clause address at which threads go on that leave a clause without a taken transfer (R33). -/
def fallThrough (cla : BitVec 52) (n : Nat) : BitVec 52 := cla + BitVec.ofNat 52 (ceilDiv (10 * (n + 1)) 16)

end Sys2Proof.Machine
end

