-- ==== Sys2Proof/Machine/Flags.lean ====
section
/-! DEFINITION. Completion flags, held registers, the clause's fixed-latency writes and `WSTAT` (R37 to R43, R60, R121, R122). -/

namespace Sys2Proof.Machine

/-! ### `WSTAT` bits (R122) -/

/-- a UNIFORM branch disagreed -/
def wUNIV : BitVec 12 := 0x020
/-- a read of a gated row -/
def wGRD : BitVec 12 := 0x040
/-- zero read from a poisoned line or a POISON resolution -/
def wEERR : BitVec 12 := 0x080
/-- second arrival at a barrier level -/
def wBOV : BitVec 12 := 0x100
/-- convergence misuse -/
def wCVE : BitVec 12 := 0x200
/-- press misuse -/
def wPRX : BitVec 12 := 0x400
/-- an MRSC met a zero count -/
def wMZC : BitVec 12 := 0x800

/-- `WSTAT` bits set. -/
def Wave.raise (w : Wave) (f : BitVec 12) : Wave := { w with wstat := w.wstat ||| f }

/-! ### Completion flags (R40) -/

/-- Flag `f` is busy. -/
def Wave.busy (w : Wave) (f : Nat) : Bool := decide (0 < List.getD w.flags f 0)
/-- One more operation keeps flag `f` busy. -/
def Wave.takeFlag (w : Wave) (f : Nat) : Wave := { w with flags := modAt w.flags f (· + 1) }
/-- One operation of flag `f` has finished. -/
def Wave.dropFlag (w : Wave) (f : Nat) : Wave := { w with flags := modAt w.flags f (· - 1) }
/-- The flag that `AL` names in the clause in progress: the header's flag A or B (R40, R81). -/
def Clause.flagOf (cl : Clause) (al : BitVec 2) : Option Nat :=
  if al = 1 then some cl.setA else if al = 2 then some cl.setB else none

/-! ### Registers (R39, R41, R44) -/

/-- The value a register had when the clause started, or was accepted with since. -/
def Wave.base (w : Wave) (r : Nat) : Row := FMap.getD w.regs r Row.zero
/-- The hold on register `r`. -/
def Wave.hold? (w : Wave) (r : Nat) : Option Hold := w.holds.find? fun h => h.reg == r
/-- The fixed-latency writes of a register at the slots `p` admits, in slot order, laid over a value (R39). -/
def logOver (log : List FixedWrite) (r : Nat) (p : Nat → Bool) (v : Row) : Row :=
  log.foldl (fun acc e => if e.reg == r && p e.slot then Row.merge e.lanes acc e.row else acc) v
/-- The value that every fixed-latency write of the clause so far leaves. -/
def Wave.latest (w : Wave) (r : Nat) : Row :=
  match w.clause with
  | some cl => logOver cl.log r (fun _ => true) (w.base r)
  | none => w.base r
/-- A source read with producer distance `d` (R39, R41, R44): `vz` is zero, a held register its pre-value; otherwise the
last fixed-latency write at a slot no higher than s − d, or with d = 0 the value at the clause start. -/
def Wave.read (w : Wave) (d r : Nat) : Row :=
  if r = 255 then Row.zero
  else
    match w.hold? r with
    | some h => h.pre
    | none =>
      match w.clause with
      | some cl => logOver cl.log r (fun k => decide (0 < d) && decide (k + d ≤ cl.slot)) (w.base r)
      | none => w.base r

/-- The clause's log without the writes of register `r`. -/
def Wave.forget (w : Wave) (r : Nat) : Wave :=
  { w with clause := w.clause.map fun cl => { cl with log := cl.log.filter fun e => e.reg != r } }

/-- A held register accepted (R41): the result stands in its lanes from now on, and its status reaches `WSTAT` (R60, R121). -/
def Wave.accept (w : Wave) (r : Nat) : Wave :=
  match w.hold? r with
  | some h =>
    match h.result with
    | some v =>
      (({ w with regs := FMap.set w.regs r (Row.merge h.lanes h.pre v),
                 holds := w.holds.filter fun x => x.reg != r } : Wave).forget r).raise h.raised
    | none => w
  | none => w

/-- The registers of several holds accepted. -/
def Wave.acceptAll (w : Wave) (rs : List Nat) : Wave := rs.foldl Wave.accept w

/-- Every held register of flag `f` accepted (R41). -/
def Wave.acceptFlag (w : Wave) (f : Nat) : Wave :=
  w.acceptAll ((w.holds.filter fun h => h.flag == some f).map Hold.reg)

/-- Every register of the flags of a mask accepted. -/
def Wave.acceptMask (w : Wave) (m : BitVec 12) : Wave := (setBits m.toNat 12).foldl Wave.acceptFlag w

/-- A flag of a mask is busy. -/
def Wave.anyBusy (w : Wave) (m : BitVec 12) : Bool := (setBits m.toNat 12).any w.busy

/-- The destination registers may be written now: none of them is held without its result (R41), none is named by an
engine operation that has not released it (R43). -/
def Wave.dstReady (w : Wave) (ds : List Nat) : Bool :=
  (ds.all fun r => match w.hold? r with | some h => h.result.isSome | none => true) &&
  (ds.all fun r => w.locks.all fun p => !p.2.contains r)

/-- Registers a multi-register destination names; `vz` names none (R44, R45). -/
def dstGroup (d : Reg) (n : Nat) : List Nat := if d = 255 then [] else (List.range n).map (d.toNat + ·)

/-- The holds accepted first so that the destinations `ds` fit the hold file: the oldest, not the destinations' own (R42). -/
def Wave.victims (w : Wave) (ds : List Nat) : List Hold :=
  let order := w.holds.filter fun h => !ds.contains h.reg
  order.take (order.length + ds.length - 32)

/-- The hold file has room for `ds` once its oldest holds are accepted, and these have their results (R42). -/
def Wave.roomReady (w : Wave) (ds : List Nat) : Bool := (w.victims ds).all fun h => h.result.isSome

/-- The destinations' own holds, then the oldest holds, accepted (R41, R42). -/
def Wave.makeRoom (w : Wave) (ds : List Nat) : Wave :=
  (w.acceptAll ds).acceptAll ((w.victims ds).map Hold.reg)

/-- Register `r` becomes held by operation `op` (R41): its value at this moment is the pre-value; a fixed-latency write of a lower slot of the
clause counts as landed, whatever the producer distance (DESIGN CHOICE, log 105). -/
def Wave.addHold (w : Wave) (flag : Option Nat) (op : Nat) (lanes : LaneMask) (r : Nat) : Wave :=
  { w with holds := w.holds ++ [⟨r, w.latest r, flag, op, none, lanes, 0⟩] }

/-- A fixed-latency result recorded (R39): the register is accepted first if it is held (R41). -/
def Wave.fixedWrite (w : Wave) (slot : Nat) (act : LaneMask) (d : Nat) (row : Row) : Wave :=
  if d = 255 ∨ act = 0 then w
  else
    let w1 := w.accept d
    { w1 with clause := w1.clause.map fun cl => { cl with log := cl.log ++ [⟨slot, d, act, row⟩] } }

/-- Floating-point flags of a fixed-latency instruction: they reach `WSTAT` when its result is written (R60). -/
def Wave.fixedFlags (w : Wave) (slot : Nat) (f : BitVec 12) : Wave :=
  if f = 0 then w else { w with clause := w.clause.map fun cl => { cl with fp := cl.fp ++ [(slot, f)] } }

/-- The fixed-latency results of a clause written (R37, R39). -/
def Wave.drain (w : Wave) : Wave :=
  match w.clause with
  | none => w
  | some cl =>
    { w with
      regs := cl.log.foldl (fun m e => FMap.set m e.reg (Row.merge e.lanes (FMap.getD m e.reg Row.zero) e.row)) w.regs,
      wstat := cl.fp.foldl (fun acc p => acc ||| p.2) w.wstat,
      clause := none }

/-- The PC table with the lanes of `m` at entries given by `f`. -/
def Wave.setPcs (w : Wave) (m : LaneMask) (f : Nat → PcEntry → PcEntry) : Wave :=
  { w with pct := (laneNums.zip w.pct).map fun p => if m.has p.1 then f p.1 p.2 else p.2 }

/-- The PC of a lane as one number: clause address, then slot (R26). -/
def Wave.pcOf (w : Wave) (L : Nat) : Nat := match w.pct[L]? with | some e => e.cla.toNat * 16 + e.slot | none => 0

/-- A wave that stops in the middle of a clause (R26, R360): the PC table records the run at its slot; the clause stays with the wave, with what
its slots have written and the flags that they have raised, so that R39 and R60 hold for the slots to come. -/
def Wave.suspend (w : Wave) : Wave :=
  match w.clause with
  | none => w
  | some cl => w.setPcs cl.run (fun _ e => { e with cla := cl.cla, slot := cl.slot })

/-- A stopped wave goes on (R26, R249, R363): in its clause, if it stopped in one, at its slot and for its run. -/
def Wave.resume (w : Wave) (tick : Nat) : Wave :=
  match w.clause with
  | none => { w with stop := .running, waitSince := tick }
  | some cl => { w.setPcs cl.run (fun _ e => { e with slot := 0 }) with stop := .running, waitSince := tick }

/-- The end of a clause: results are written, and every thread of the run continues at `next` of its lane (R32, R33, R37). -/
def Wave.endClause (w : Wave) (cl : Clause) (next : Nat → BitVec 52) : Wave :=
  w.drain.setPcs cl.run fun L e => { e with cla := next L, slot := 0 }

/-- The end of a slot: the next slot, or the end of the clause with the run at its fall-through (R33, R34). -/
def Wave.endSlot (w : Wave) (cl : Clause) : Wave :=
  if cl.slot + 1 < cl.n then { w with clause := w.clause.map fun c => { c with slot := cl.slot + 1 } }
  else w.endClause cl fun _ => fallThrough cl.cla cl.n

end Sys2Proof.Machine
end

