-- ==== Sys2Proof/WellFormed.lean ====
section
/-! DEFINITION. Which instruction terms an instruction word can carry (R74, R76, R80, R85 and the entries): the encoder writes a word for each, and the decoder reads it back. -/

namespace Sys2Proof

/-- `CF` names f0 to f11 or none (R73). -/
def cfOk (cf : BitVec 4) : Bool := cf.toNat < 12 || cf == 15

/-- The common fields are legal: `AL`, `CF` and predicate (R73, R80), with `AL` = 0 where no flag may be named (R100). -/
def Ctl.ok (c : Ctl) (alloc : Bool) : Bool :=
  (c.al != 3 && (alloc || c.al == 0)) && cfOk c.cf && (c.pr != 255 || (c.pb == 0 && !c.pn))

/-- The fields of form L are legal; JMP, CALL and MOVI name no flag in `AL` (R100, R124). -/
def CtlL.ok (c : CtlL) : Bool := c.al == 0 && cfOk c.cf

/-- The B operand of IADD64 and ISUB64 (R127). -/
def b64Ok (x : Ext64) (b : SrcB) : Bool :=
  match b with | .reg r => x != .pair || Reg.aligned r 2 | .imm _ => x == .pair

/-- The barrier operand in form I or A is always encodable (R107). -/
def BarSel.ok (_ : BarSel) : Bool := true

/-- The new-value register is named only by CAS (R179). -/
def casOk (op : AtomOp) (n : Reg) : Bool := op == .cas || n == 0

/-- Notify is allowed at DEV and SYS only (R179). -/
def ntfOk (ntf : Bool) (s : Scope) : Bool := !ntf || s == .dev || s == .sys

/-- The group size under `.B64` (R179). -/
def dblRegs (dbl : Bool) : Nat := bif dbl then 2 else 1

/-- `MOD[0]` of a reduction: a sign for MIN and MAX only; a rounding mode for FADD only (R171). -/
def redOk (op : RedOp) (s : Bool) (m : RMode) : Bool := (!s || op == .min || op == .max) && (m == .rn || op == .fadd)

/-- A selector immediate is listed (R114). -/
def selOk (listedSel : Nat → Bool) (s : SrcSel) : Bool :=
  match s with | .reg _ => true | .imm v => listedSel v.toNat

/-- Well-formed instructions: the terms that stand for a word of R85's complement. An event has no word and is always well-formed. -/
def Instr.wf : Instr → Bool
  | .hdr _ _ _ sa sb => cfOk sa && cfOk sb
  | .nop c => c.ok false
  | .bra c _ _ => c.ok false
  | .jmp c _ => c.ok
  | .jmpi c a => c.ok false && Reg.aligned a 2
  | .call c d _ => c.ok && Reg.aligned d 2
  | .calli c d a => c.ok false && Reg.aligned d 2 && Reg.aligned a 2
  | .ret c a => c.ok false && Reg.aligned a 2
  | .exit c => c.ok false
  | .waitf c _ => c.ok false
  | .yieldI c => c.ok false
  | .bar c s => c.ok true && s.ok
  | .bara c s => c.ok true && s.ok
  | .barw c s => c.ok true && s.ok
  | .swait c _ dbl d m => c.ok true && Reg.aligned m.a 2 && Reg.aligned d (dblRegs dbl)
  | .swake c m => c.ok true && Reg.aligned m.a 2
  | .cvset c _ _ => c.ok true
  | .cvsign c _ => c.ok true
  | .getid c w d s => c.ok false && selOk getidListed s && (!w || Reg.aligned d 2)
  | .getenv c w d s => c.ok false && selOk getenvListed s && (!w || Reg.aligned d 2)
  | .claim c d => c.ok true && Reg.aligned d 8
  | .tret c _ _ => c.ok true
  | .schrd c _ _ _ => c.ok true
  | .schwr c _ _ => c.ok true
  | .schcm c _ => c.ok true
  | .spawn c _ a _ => c.ok true && Reg.aligned a 2
  | .brk c _ => c.ok false
  | .trap c _ => c.ok false
  | .errrd c _ _ => c.ok true
  | .iadd c _ _ _ _ => c.ok false
  | .isub c _ _ _ _ => c.ok false
  | .isum c _ _ _ _ _ => c.ok false
  | .iadds c _ _ _ _ _ => c.ok false
  | .imul c _ _ _ _ => c.ok false
  | .imulh c t _ _ _ => c.ok false && t.isWord
  | .imad c _ _ _ _ _ => c.ok false
  | .imadw c t d _ _ r => c.ok false && t.isWord && Reg.aligned d 2 && Reg.aligned r 2
  | .iadd64 c x d a b => c.ok false && Reg.aligned d 2 && Reg.aligned a 2 && b64Ok x b
  | .isub64 c x d a b => c.ok false && Reg.aligned d 2 && Reg.aligned a 2 && b64Ok x b
  | .imin c _ _ _ _ => c.ok false
  | .imax c _ _ _ _ => c.ok false
  | .iabs c _ t _ _ => c.ok false && t.isSigned
  | .ineg c _ _ _ _ => c.ok false
  | .idiv c _ _ _ _ => c.ok true
  | .irem c _ _ _ _ => c.ok true
  | .and c _ _ _ => c.ok false
  | .or c _ _ _ => c.ok false
  | .xor c _ _ _ => c.ok false
  | .andn c _ _ _ => c.ok false
  | .blut c _ _ _ _ _ => c.ok false
  | .shl c _ _ _ => c.ok false
  | .shr c _ _ _ => c.ok false
  | .sar c _ _ _ => c.ok false
  | .rot c _ _ _ _ => c.ok false
  | .fshf c _ _ _ _ _ => c.ok false
  | .bfx c _ _ _ _ => c.ok false
  | .bfi c _ _ _ _ => c.ok false
  | .popc c _ _ => c.ok false
  | .clz c _ _ => c.ok false
  | .ctz c _ _ => c.ok false
  | .brev c _ _ => c.ok false
  | .icmp c _ _ _ _ _ _ _ => c.ok false
  | .sel c _ _ _ _ _ => c.ok false
  | .lea c _ z _ d a b =>
    c.ok false && Reg.aligned d 2 && Reg.aligned a 2 && (match b with | .reg _ => true | .imm _ => !z)
  | .mov c d s => c.ok false && (match s with | .pair a => Reg.aligned d 2 && Reg.aligned a 2 | _ => true)
  | .movi c _ _ => c.ok
  | .pset c _ _ _ _ _ _ => c.ok false
  | .bmsk c _ _ _ => c.ok false
  | .fadd c _ _ _ _ => c.ok false
  | .fsub c _ _ _ _ => c.ok false
  | .fmul c _ _ _ _ => c.ok false
  | .ffma c _ _ _ _ _ => c.ok false
  | .fmin c _ _ _ => c.ok false
  | .fmax c _ _ _ => c.ok false
  | .fcmp c _ _ _ _ _ _ => c.ok false
  | .fclass c _ _ _ _ b => c.ok false && (match b with | .reg _ => true | .imm v => v.extractLsb' 10 6 == 0)
  | .frnd c _ _ _ _ => c.ok false
  | .fscalb c _ _ _ _ => c.ok false
  | .fclamp c _ _ _ _ => c.ok false
  | .frcp c _ _ _ => c.ok true
  | .frsq c _ _ _ => c.ok true
  | .fsqrt c _ _ _ => c.ok true
  | .fdiv c _ _ _ _ => c.ok true
  | .fex2 c _ _ => c.ok true
  | .flg2 c _ _ => c.ok true
  | .fsin c _ _ => c.ok true
  | .fcos c _ _ => c.ok true
  | .ftanh c _ _ => c.ok true
  | .fsigm c _ _ => c.ok true
  | .hadd2 c _ _ _ _ _ => c.ok false
  | .hmul2 c _ _ _ _ _ => c.ok false
  | .hfma2 c _ _ _ _ _ _ => c.ok false
  | .hmnmx2 c _ _ _ _ _ => c.ok false
  | .hcmp2 c _ _ _ bit _ _ _ => c.ok false && !bit.getLsbD 0
  | .dadd c _ d a b => c.ok false && Reg.aligned d 2 && Reg.aligned a 2 && Reg.aligned b 2
  | .dmul c _ d a b => c.ok false && Reg.aligned d 2 && Reg.aligned a 2 && Reg.aligned b 2
  | .dfma c _ d a b r => c.ok false && Reg.aligned d 2 && Reg.aligned a 2 && Reg.aligned b 2 && Reg.aligned r 2
  | .dmnmx c _ d a b => c.ok false && Reg.aligned d 2 && Reg.aligned a 2 && Reg.aligned b 2
  | .dcmp c _ _ _ _ a b => c.ok false && Reg.aligned a 2 && Reg.aligned b 2
  | .drnd c _ d a => c.ok false && Reg.aligned d 2 && Reg.aligned a 2
  | .fcvt c dst src sat _ dsel ssel d a =>
    c.ok false && src.selOk ssel && dst.selOk dsel && (!sat || dst.isF8) && Reg.aligned d dst.regs && Reg.aligned a src.regs
  | .f2i c it ft _ ssel d a => c.ok false && ft.selOk ssel && Reg.aligned d it.regs && Reg.aligned a ft.regs
  | .i2f c ft it sat _ dsel d a =>
    c.ok false && ft.selOk dsel && (!sat || ft.isF8) && Reg.aligned d ft.regs && Reg.aligned a it.regs
  | .dot2 c _ _ _ _ _ _ => c.ok false
  | .dot4 c _ _ _ _ _ _ _ => c.ok false
  | .shfl c _ w _ _ b => c.ok false && w.toNat < 6 && (match b with | .reg _ => true | .imm v => v.extractLsb' 5 11 == 0)
  | .vote c _ _ _ _ => c.ok false
  | .bcast c _ _ _ _ => c.ok false
  | .lred c op s m _ _ => c.ok false && redOk op s m
  | .lscan c op _ s m _ _ => c.ok false && redOk op s m
  | .matchL c dbl _ a => c.ok false && Reg.aligned a (dblRegs dbl)
  | .actm c _ => c.ok false
  | .ldg c size _ d m => c.ok true && Reg.aligned m.a 2 && Reg.aligned d size.regs
  | .stg c size d m => c.ok true && size.storable && Reg.aligned m.a 2 && Reg.aligned d size.regs
  | .lds c size d _ => c.ok true && Reg.aligned d size.regs
  | .sts c size d _ => c.ok true && size.storable && Reg.aligned d size.regs
  | .ldr c size d _ => c.ok true && Reg.aligned d size.regs
  | .str c size d _ => c.ok true && size.storable && Reg.aligned d size.regs
  | .atomg c op dbl s ntf d a b n =>
    c.ok true && ntfOk ntf s && casOk op n && Reg.aligned a 2 && Reg.aligned d (dblRegs dbl) &&
      Reg.aligned b (dblRegs dbl) && Reg.aligned n (dblRegs dbl)
  | .redg c op dbl s ntf a b =>
    c.ok true && ntfOk ntf s && op != .xchg && op != .cas && Reg.aligned a 2 && Reg.aligned b (dblRegs dbl)
  | .atoms c op dbl d _ b n =>
    c.ok true && casOk op n && Reg.aligned d (dblRegs dbl) && Reg.aligned b (dblRegs dbl) && Reg.aligned n (dblRegs dbl)
  | .phase c _ _ => c.ok true
  | .cmaint c _ _ a _ => c.ok true && Reg.aligned a 2
  | .pref c _ m => c.ok true && Reg.aligned m.a 2
  | .waycfg c _ _ => c.ok true
  | .spmark c _ _ _ => c.ok true
  | .sptest c _ _ => c.ok true
  | .accld c _ _ _ => c.ok true
  | .accst c _ _ _ => c.ok true
  | .accz c _ => c.ok true
  | .acccp c _ _ => c.ok true
  | .acccv c fmt sat _ _ _ _ => c.ok true && fmt.isNarrow && (!sat || fmt.isF8)
  | .mmaf c _ _ _ => c.ok true
  | .mmab c _ _ _ => c.ok true
  | .mmah c _ _ _ => c.ok true
  | .mmae4 c sc _ ba bb _ _ r d => c.ok true && (sc || (r == 0 && d == 0 && ba == 0 && bb == 0))
  | .mmae5 c sc _ ba bb _ _ r d => c.ok true && (sc || (r == 0 && d == 0 && ba == 0 && bb == 0))
  | .mman c ka kb _ _ _ _ _ _ _ => c.ok true && ka != 7 && kb != 7
  | .merr c d => c.ok true && Reg.aligned d 2
  | .plpack c _ _ a => c.ok true && a.toNat % 8 == 0
  | .plunpk c k _ _ _ stride _ => c.ok true && k != 7 && stride != 0
  | .bscale c _ _ _ => c.ok true
  | .sccv c tgt sat _ _ _ _ _ _ => c.ok true && !(sat && tgt == .n)
  | .mred c _ _ _ _ _ _ => c.ok true
  | .mrsc c _ _ _ _ => c.ok true
  | .qpush c q _ => c.ok true && q != .qxr && q != .qtk && q != .qer
  | .qpop c d _ => c.ok true && d.toNat % 4 == 0
  | .qtry c d _ => c.ok true && d.toNat % 4 == 0
  | .qlvl c _ _ => c.ok true
  | .cpyt c st _ _ _ d => c.ok true && (st || d == 0)
  | .cpyl c dir a b _ d =>
    c.ok true && (dir == .sg || dir == .gg || d == 0) && (dir == .sg || dir == .ss || Reg.aligned a 2) &&
      (dir == .gs || dir == .ss || Reg.aligned b 2)
  | .cpyh c _ _ _ _ => c.ok true
  | .gath c l2 a b => c.ok true && Reg.aligned a 2 && Reg.aligned b (dblRegs l2)
  | .scat c a _ => c.ok true && Reg.aligned a 2
  | .layx c _ b => c.ok true && Reg.aligned b 2
  | .waitc c _ _ => c.ok true
  | .send c g a b => c.ok true && Reg.aligned a 4 && Reg.aligned b (dblRegs g)
  | .sendl c g a b => c.ok true && Reg.aligned a 4 && Reg.aligned b (dblRegs g)
  | .postr c _ a => c.ok true && Reg.aligned a 8
  | .canrv c _ _ => c.ok true
  | .probe c d a => c.ok true && Reg.aligned d 4 && Reg.aligned a 4
  | .mfsr c w d num => c.ok true && (sregInfo num.toNat).any (fun p => p.1 == w) && Reg.aligned d (dblRegs w)
  | .mtsr c w num a => c.ok false && (sregInfo num.toNat).any (fun p => p.1 == w && p.2) && Reg.aligned a (dblRegs w)
  | .rte c _ _ _ => c.ok true
  | .ctxsv c _ _ b => c.ok true && Reg.aligned b 2
  | .ctxld c _ _ b => c.ok true && Reg.aligned b 2
  | .tinv c _ a => c.ok true && a.toNat % 4 == 0
  | .prsrs c _ _ a => c.ok true && Reg.aligned a 4
  | .halt c _ _ => c.ok true
  | .idle c _ => c.ok true
  | .fwsig c _ a => c.ok true && Reg.aligned a 2
  | .keyld c _ _ b => c.ok true && Reg.aligned b 2
  | .tckt c _ _ _ b => c.ok true && Reg.aligned b 2
  | .scrub c tgt _ _ b => c.ok true && (if tgt == .mem then Reg.aligned b 2 else b == 0)
  | .dbgrd c d _ _ => c.ok true && Reg.aligned d 2
  | .dbgwr c _ _ _ _ => c.ok true
  | _ => true

end Sys2Proof
end

