-- ==== Sys2Proof/Machine/Operands.lean ====
section
/-! DEFINITION. Every operand form (R10, R44, R75 to R80, R99, R172, R173) and the common course of an issue (R34 to R43, R50). -/

namespace Sys2Proof.Machine

/-- Form L carries no predicate (R75). -/
def CtlL.full (c : CtlL) : Ctl := ⟨c.pd, c.al, c.cf, 255, 0, false⟩

/-- The active lanes of an instruction: the run, narrowed by the predicate, which is read as a source (R34, R80, R259). -/
def activeLanes (w : Wave) (cl : Clause) (c : Ctl) : LaneMask :=
  if c.pr = 255 then cl.run
  else
    let p := w.read c.pd.toNat c.pr.toNat
    cl.run &&& LaneMask.ofPred fun L => (Row.lane p L).getLsbD c.pb.toNat != c.pn

/-- An instruction at its issue: the wave after the consumed flag was accepted, its clause, its active lanes. -/
structure Issue where
  key : Nat
  w : Wave
  cl : Clause
  pd : Nat
  act : LaneMask

/-- The lowest active lane (R99). -/
def Issue.low (x : Issue) : Nat := (LaneMask.lanes x.act).headD 0
/-- A source row (R39, R41). -/
def Issue.row (x : Issue) (r : Reg) : Row := x.w.read x.pd r.toNat
/-- A register of lane `L`. -/
def Issue.v (x : Issue) (r : Reg) (L : Nat) : Word := Row.lane (x.row r) L
/-- The second register of a pair; of `vz.d`, `vz` (R44). -/
def nextReg (r : Reg) (k : Nat) : Reg := if r = 255 then 255 else r + BitVec.ofNat 8 k
/-- A register pair of lane `L` (R44). -/
def Issue.vd (x : Issue) (r : Reg) (L : Nat) : Nat := (x.v r L).toNat + 2 ^ 32 * (x.v (nextReg r 1) L).toNat
/-- A run-wide register (R99). -/
def Issue.u (x : Issue) (r : Reg) : Nat := (x.v r x.low).toNat
/-- A run-wide pair (R99). -/
def Issue.ud (x : Issue) (r : Reg) : Nat := x.vd r x.low
/-- `n` consecutive run-wide registers (R45). -/
def Issue.us (x : Issue) (r : Reg) (n : Nat) : List Word := (List.range n).map fun k => x.v (nextReg r k) x.low

/-- The immediate class S as a 32-bit operand (R77). -/
def immS (v : BitVec 16) : Word := v.signExtend 32
/-- The immediate class Z (R77). -/
def immZ (v : BitVec 16) : Word := v.zeroExtend 32
/-- The immediate class F: an FP32 pattern (R77). -/
def immF (v : BitVec 16) : Word := v ++ (0 : BitVec 16)

/-- Source B of lane `L` under an immediate class (R75 to R77). -/
def Issue.b (x : Issue) (b : SrcB) (cls : BitVec 16 → Word) (L : Nat) : Word :=
  match b with | .reg r => x.v r L | .imm v => cls v
/-- Source B, run-wide. -/
def Issue.ub (x : Issue) (b : SrcB) (L : Nat) : Nat := (x.b b immZ L).toNat

/-- Bytes of an access (R79). -/
def Size.bytes : Size → Nat | .s8 => 1 | .z8 => 1 | .s16 => 2 | .z16 => 2 | .b32 => 4 | .b64 => 8 | .b128 => 16

/-- The scaled signed offset of a form-M operand (R75, R79). -/
def memOffset (m : MemRef) (n : Nat) : Int := m.off.toInt * (n : Int)
/-- The index: `sext(V(B), 32)`, 0 for `vz` (R173). -/
def Issue.index (x : Issue) (r : Reg) (L : Nat) : Int := if r = 255 then 0 else (x.v r L).toInt
/-- A global effective address (R173). -/
def Issue.eaG (x : Issue) (m : MemRef) (n L : Nat) : Nat :=
  (((x.vd m.a L : Int) + x.index m.b L + memOffset m n) % (2 ^ 56 : Nat)).toNat
/-- A scratchpad or window effective address, exact (R173). -/
def Issue.eaS (x : Issue) (m : MemRef) (n L : Nat) : Int :=
  ((x.v m.a L).toNat : Int) + x.index m.b L + memOffset m n

/-! ### The course of an issue -/

/-- The outcome of a wave instruction: the wave `cur` is in a clause, the consumed flag is clear and its registers are
accepted (R41), the destinations may be written; then `f`. A wave that must wait keeps its clause, and the state is
unchanged (R34). With no wave to execute it, the fault `noIssuingWave`. -/
def onIssue (c : Ctl) (ds : List Nat) (s : State) (f : Issue → State) : Host.Outcome State Fault Refusal :=
  match s.wave? s.cur with
  | none => .fault .noIssuingWave
  | some w0 =>
    match w0.clause with
    | none => .fault .noIssuingWave
    | some cl =>
      if c.cf.toNat < 12 && w0.busy c.cf.toNat then .next s
      else
        let w := if c.cf.toNat < 12 then w0.acceptFlag c.cf.toNat else w0
        let cl := w.clause.getD cl
        let act := activeLanes w cl c
        if act ≠ 0 && !w.dstReady ds then .next s
        else .next (f ⟨s.cur, w, cl, c.pd.toNat, act⟩)

/-- The instruction at the slot in progress traps at its issue (R50): nothing of it is performed. -/
def Issue.trap (x : Issue) (s : State) (cls detail : Nat) : State :=
  (s.setWave x.key x.w).takeTrap x.key false cls detail (List.getD x.cl.words x.cl.slot 0) x.cl.run x.cl.cla x.cl.slot

/-- The slot ends with the wave as given. -/
def Issue.done (x : Issue) (s : State) (w : Wave) : State :=
  s.setWave x.key { w.endSlot x.cl with lastIssue := s.tick }

/-- A fixed-latency instruction (R38, R39, R60): destination rows `f` of each register, and the flags raised in each active lane. -/
def fixedOp (c : Ctl) (d : Reg) (n : Nat) (s : State) (f : Issue → Nat → Nat → Word) (fl : Issue → Nat → BitVec 12) :
    Host.Outcome State Fault Refusal :=
  onIssue c (dstGroup d n) s fun x =>
    let ws := (dstGroup d n).zipIdx.foldl
      (fun w p => w.fixedWrite x.cl.slot x.act p.1 (Row.ofLanes fun L => if x.act.getLsbD L then f x p.2 L else 0)) x.w
    let flags := (LaneMask.lanes x.act).foldl (fun acc L => acc ||| fl x L) 0
    x.done s (ws.fixedFlags x.cl.slot flags)

/-- A fixed-latency instruction of one result register that raises no flag. -/
def fixed1 (c : Ctl) (d : Reg) (s : State) (f : Issue → Nat → Word) : Host.Outcome State Fault Refusal :=
  fixedOp c d 1 s (fun x _ L => f x L) fun _ _ => 0

/-- A fixed-latency instruction of one result register, with flags: each lane gives bits and flags. -/
def fixedF (c : Ctl) (d : Reg) (s : State) (f : Issue → Nat → Nat × BitVec 12) : Host.Outcome State Fault Refusal :=
  fixedOp c d 1 s (fun x _ L => BitVec.ofNat 32 (f x L).1) fun x L => (f x L).2

/-- A fixed-latency instruction of a register pair, with flags. -/
def fixedF2 (c : Ctl) (d : Reg) (s : State) (f : Issue → Nat → Nat × BitVec 12) : Host.Outcome State Fault Refusal :=
  fixedOp c d 2 s (fun x k L => BitVec.ofNat 32 ((f x L).1 / 2 ^ (32 * k))) fun x L => (f x L).2

/-- The ticket of a workgroup (R410); of one that is gone, 0 (R411). -/
def State.ticketOf (s : State) (wgn : Nat) : BitVec 64 := match s.wg? wgn with | some g => g.ticket | none => 0

/-- An operation that outlives its issue (R40, R41): it takes its flag, its destinations become held, and it is listed with
its captured sources; the slot ends. The operation's number comes back with the state. -/
def Issue.addOp (x : Issue) (s : State) (c : Ctl) (i : Instr) (ds : List Nat) (srcs vals : List Row) (raised : BitVec 12)
    (aux : Nat) (done : Bool) : Nat × State :=
  let (id, s1) := s.fresh
  let flag := x.cl.flagOf c.al
  let w1 := x.w.makeRoom ds
  let w2 := match flag with | some f => w1.takeFlag f | none => w1
  let w3 := ds.foldl (fun w r => w.addHold flag id x.act r) w2
  let op : Op := { wave := x.key, gen := x.w.gen, wg := x.w.wg, core := waveCore x.key, instr := i, lanes := x.act, cla := x.cl.cla,
                   flag := flag, dsts := ds, srcs := srcs, vals := vals, todo := if done then 0 else x.act, walkOn := [], raised := raised,
                   aux := aux, done := done, ticket := s.ticketOf x.w.wg }
  (id, { x.done s1 w3 with ops := FMap.set s1.ops id op })

/-- A variable-latency instruction whose results are known at its issue (R38, R41): they return with VARIABLE_RESULT_RETURN. -/
def varOp (c : Ctl) (i : Instr) (d : Reg) (n : Nat) (s : State) (f : Issue → List Row × BitVec 12) :
    Host.Outcome State Fault Refusal :=
  onIssue c (dstGroup d n) s fun x =>
    if x.act = 0 then x.done s x.w
    else if !x.w.roomReady (dstGroup d n) then s
    else
      let (rows, fl) := f x
      (x.addOp s c i (dstGroup d n) [] rows fl 0 true).2

/-- An operation that is performed after its issue: its sources are captured now (R10, R41). -/
def laterOp (c : Ctl) (i : Instr) (ds : List Nat) (s : State) (srcs : Issue → List Row) (aux : Issue → Nat)
    (check : Issue → Option (Nat × Nat)) (after : Nat → Issue → State → State) : Host.Outcome State Fault Refusal :=
  onIssue c ds s fun x =>
    if x.act = 0 then x.done s x.w
    else
      match check x with
      | some (cls, detail) => x.trap s cls detail
      | none =>
        if !x.w.roomReady ds then s
        else
          let (id, s1) := x.addOp s c i ds (srcs x) (List.replicate ds.length Row.zero) 0 (aux x) false
          after id x s1

/-! ### Waves that have freed their resources (R104) -/

/-- The key that stands in a workgroup's list for a wave that has freed its resources. -/
def freedKey : Nat := 2 ^ 32

/-- Something of a wave is outstanding (R104, R355): an operation, a command, a counter entry or a parked request. -/
def State.waveBusy (s : State) (key : Nat) (w : Wave) : Bool :=
  s.ops.any (fun p => p.2.wave == key) || s.cmds.any (fun p => p.2.wave == key) || w.counters.any (fun l => !l.isEmpty) ||
  s.dies.any fun d => d.2.reqs.any fun r => r.2.wave == some key

/-- Every thread of a wave has exited. -/
def Wave.exited (w : Wave) : Bool := w.pct.all fun e => e.x

/-- A user wave all of whose threads have exited and of which nothing is outstanding has freed its resources (R104). -/
def State.gone (s : State) (key : Nat) (w : Wave) : Bool := !w.priv && w.exited && !s.waveBusy key w

/-- The wave that holds a slot: one that has freed its resources does not (R104). -/
def State.seated? (s : State) (key : Nat) : Option Wave := (s.wave? key).filter fun w => !s.gone key w

/-- Waves that have freed their resources leave their slots for others (R104). -/
def State.freeGone (s : State) : State :=
  s.waves.foldl (fun t p =>
    if t.gone p.1 p.2 then
      { t with waves := FMap.erase t.waves p.1 }.modWg p.2.wg fun g => { g with waves := g.waves.map fun k => if k = p.1 then freedKey else k }
    else t) s

/-- A wave waits in IDLE: its core issues nothing for it (R245). -/
def State.idling (s : State) (key : Nat) : Bool :=
  s.ops.any fun p => p.2.wave == key && !p.2.done && (match p.2.instr with | .idle .. => true | _ => false)

end Sys2Proof.Machine
end

