-- ==== Sys2Proof/Machine/Xlate.lean ====
section
/-! DEFINITION. Translation, the TLBs, the merge table, fault records and the cellar (spec/22, R277 to R281, R365 to R378). -/

namespace Sys2Proof.Machine

/-- Kinds of access, in the order of the codes of `ACC` (R373). -/
inductive Acc where | load | store | atomic | fetch | engRead | engWrite | pressRead | pressWrite deriving DecidableEq, Repr

/-- The code of R373; a press access is 6 whether it reads or writes. -/
def Acc.code : Acc → Nat
  | .load => 0 | .store => 1 | .atomic => 2 | .fetch => 3 | .engRead => 4 | .engWrite => 5 | .pressRead => 6 | .pressWrite => 6
/-- The access needs `RD` (R366, R367). -/
def Acc.needsRd : Acc → Bool | .load => true | .atomic => true | .engRead => true | .pressRead => true | _ => false
/-- The access needs `WR` (R366, R367). -/
def Acc.needsWr : Acc → Bool | .store => true | .atomic => true | .engWrite => true | .pressWrite => true | _ => false
/-- The access needs `EX` (R366). -/
def Acc.needsEx : Acc → Bool | .fetch => true | _ => false

/-- A translation fault (R367, R372, R373). -/
structure XFault where
  reason : Nat
  lvl : Nat
  /-- 0 stage 1, 1 stage 2 -/
  stage : Nat
  /-- stage 2: the faulting intermediate physical address -/
  ipa : Nat
  deriving DecidableEq, Repr

/-- A page that a walk found (R365, R366). -/
structure Page where
  base : Nat
  size : Nat
  out : Nat
  rd : Bool
  wr : Bool
  ex : Bool
  deriving DecidableEq, Repr

/-- The smallest page (R280). -/
def pageBytes : Nat := 49152
/-- The page size of a level (R365). -/
def levelBytes (lvl : Nat) : Nat := if lvl = 3 then 49152 else if lvl = 2 then 49152 * 64 else 49152 * 65536
/-- The index of a level (R365). -/
def levelIndex (p lvl : Nat) : Nat :=
  if lvl = 0 then p / 2 ^ 28 else if lvl = 1 then p / 2 ^ 16 % 4096 else if lvl = 2 then p / 2 ^ 6 % 1024 else p % 64

/-- What a table entry holds at a level (R366, R367). -/
inductive Entry where
  | invalid
  | malformed
  | table (next : Nat)
  | page (frame : Nat) (rd wr ex : Bool)
  deriving DecidableEq, Repr

/-- An entry read at a level (R366, R367). -/
def decodeEntry (e lvl : Nat) : Entry :=
  if e % 2 = 0 then .invalid
  else if bits e 56 8 ≠ 0 ∨ bits e 6 7 ≠ 0 then .malformed
  else
    match bits e 1 2 with
    | 0 => if lvl = 3 ∨ bits e 3 3 ≠ 0 then .malformed else .table (bits e 13 43 * 512)
    | 1 =>
      let f := bits e 13 38
      if lvl = 0 ∨ bits e 51 5 ≠ 0 ∨ (lvl = 1 ∧ f % 65536 ≠ 0) ∨ (lvl = 2 ∧ f % 64 ≠ 0) then .malformed
      else .page (f * 49152) (e.testBit 3) (e.testBit 4) (e.testBit 5)
    | _ => .malformed

/-- A local or host address that is backed (R279). -/
def State.backed (s : State) (pa : Nat) : Bool :=
  match s.backing pa with | .none _ => false | _ => true

/-- A page frame is backed (R279, R280): the frame of a host page lies whole in one host run. -/
def State.frameBacked (s : State) (out n : Nat) : Bool :=
  s.backed out && (bits out 48 4 != 14 || s.runs.any fun r => decide (r.db ≤ bits out 0 48) && decide (bits out 0 48 + n ≤ r.db + r.len))

/-- What a walk may use of the TLBs and walk caches, and what it leaves to be cached (R369): whole mappings, and table entries with
their levels, each as a mapping of the region it covers to its next table. -/
structure XCache where
  maps : List TlbEntry
  tables : List (Nat × TlbEntry)
  deriving DecidableEq, Repr

/-- Two collections together. -/
def XCache.add (x y : XCache) : XCache := ⟨x.maps ++ y.maps, x.tables ++ y.tables⟩

/-- Where a walk stands: which stage of which address space it translates an address in (R365, R368). -/
structure Space where
  vmid : Nat
  asid : Nat
  stage : Nat
  deriving DecidableEq, Repr

/-- An entry belongs to an address space and covers an address: of stage 2, an entry of stage 2; of stage 1, one of stage 1 or combined. -/
def Space.covers (x : Space) (e : TlbEntry) (addr : Nat) : Bool :=
  e.vmid == x.vmid && (x.stage == 1 || e.asid == x.asid) && (e.stage == 1) == (x.stage == 1) &&
  decide (e.base ≤ addr) && decide (addr < e.base + e.size)

/-- The bytes that an entry of a level covers (R365). -/
def regionBytes (lvl : Nat) : Nat := if lvl = 0 then 49152 * 2 ^ 28 else levelBytes lvl

/-- A table walk (R365, R367) from `lvl` on: `tr` gives the physical address of a table entry, the stage-2 pages it was translated
by, and what that leaves to be cached. A cached table entry is used in place of one in memory (R369); it names every stage-2 page on the
path to it, so that a change of any of them drops it (R370). The frame's own backing is checked where the walk's outputs are physical. -/
def walkFrom (s : State) (known : XCache) (tr : Nat → Except XFault (Nat × List (Nat × Nat) × XCache)) (phys : Bool) (sp : Space)
    (addr ipa : Nat) (chk : Page → Option Nat) : Nat → Nat → Nat → List (Nat × Nat) → XCache → Except XFault (Page × List (Nat × Nat) × XCache)
  | 0, _, _, _, _ => .error ⟨5, 3, sp.stage, ipa⟩
  | fuel + 1, lvl, tbl, via, new =>
    match known.tables.find? fun w => w.1 == lvl && sp.covers w.2 addr with
    | some w => walkFrom s known tr phys sp addr ipa chk fuel (lvl + 1) w.2.out w.2.via new
    | none =>
      match tr (tbl + 8 * levelIndex (addr / pageBytes) lvl) with
      | .error f => .error f
      | .ok (pa, v, more) =>
        if !s.backed pa || bits pa 48 4 = 15 then .error ⟨6, lvl, sp.stage, ipa⟩
        else
          match decodeEntry (leNat (s.homeRead pa 8)) lvl with
          | .invalid => .error ⟨1, lvl, sp.stage, ipa⟩
          | .malformed => .error ⟨5, lvl, sp.stage, ipa⟩
          | .table next =>
            let n := regionBytes lvl
            let e : TlbEntry := ⟨sp.vmid, sp.asid, if (via ++ v).isEmpty then sp.stage else 2, addr / n * n, n, next, false, false, false, via ++ v⟩
            walkFrom s known tr phys sp addr ipa chk fuel (lvl + 1) next (via ++ v) ((new.add more).add ⟨[], [(lvl, e)]⟩)
          | .page out rd wr ex =>
            let n := levelBytes lvl
            if phys && !s.frameBacked out n then .error ⟨6, lvl, sp.stage, ipa⟩
            else
              let pg : Page := ⟨addr / n * n, n, out, rd, wr, ex⟩
              match chk pg with | some r => .error ⟨r, lvl, sp.stage, ipa⟩ | none => .ok (pg, via ++ v, new.add more)

/-- The permission that a page lacks for an access (R367). -/
def lacks (a : Acc) (p : Page) : Option Nat :=
  if a.needsRd && !p.rd then some 2 else if a.needsWr && !p.wr then some 3 else if a.needsEx && !p.ex then some 4 else none

/-- The page of a cached entry. -/
def TlbEntry.page (e : TlbEntry) : Page := ⟨e.base, e.size, e.out, e.rd, e.wr, e.ex⟩
/-- A page as an entry of an address space. -/
def Page.entry (p : Page) (x : Space) (via : List (Nat × Nat)) : TlbEntry :=
  ⟨x.vmid, x.asid, x.stage, p.base, p.size, p.out, p.rd, p.wr, p.ex, via⟩

/-- Stage 2 of a VMID (R368): intermediate physical to physical, by a cached entry that grants the access (R369), or by a walk. -/
def stage2 (s : State) (known : XCache) (vmid ipa : Nat) (a : Acc) : Except XFault (Page × XCache) :=
  let sp : Space := ⟨vmid, 0, 1⟩
  match known.maps.find? fun e => sp.covers e ipa && (lacks a e.page).isNone with
  | some e => .ok (e.page, ⟨[], []⟩)
  | none =>
    match FMap.get? s.s2roots vmid with
    | none => .error ⟨6, 0, 1, ipa⟩
    | some root =>
      if 341 < ipa / pageBytes / 2 ^ 28 then .error ⟨7, 0, 1, ipa⟩
      else
        match walkFrom s known (fun t => .ok (t, [], ⟨[], []⟩)) true sp ipa ipa (lacks a) 4 0 root [] ⟨[], []⟩ with
        | .error f => .error f
        | .ok (p, _, new) => .ok (p, new.add ⟨[p.entry sp []], []⟩)

/-- The address a page gives (R365). -/
def Page.addr (p : Page) (a : Nat) : Nat := p.out + (a - p.base)

/-- A table address of a context as a physical address (R368). -/
def State.tableAddr (s : State) (c : Context) (a : Nat) : Option Nat :=
  if c.vmid = 0 then some a else match stage2 s ⟨[], []⟩ c.vmid a .engRead with | .ok p => some (p.1.addr a) | .error _ => none

/-- Entries of a table of a level (R365). -/
def tableEntries (lvl : Nat) : Nat := if lvl = 0 then 8192 else if lvl = 1 then 4096 else if lvl = 2 then 1024 else 64

/-- Entries of a table that a walk may read: of the top one not those beyond the last index of a virtual address (R365). -/
def walkEntries (lvl : Nat) : Nat := if lvl = 0 then 5462 else tableEntries lvl

/-- An address lies in one of a context's stage-1 tables, from the table `tbl` of a level on, `fuel` levels deep (R365, R382). -/
def State.tableHas (s : State) (c : Context) (pa : Nat) : Nat → Nat → Nat → Bool
  | 0, _, _ => false
  | fuel + 1, lvl, tbl => (List.range (tableEntries lvl)).any fun i =>
    match s.tableAddr c (tbl + 8 * i) with
    | none => false
    | some p => (decide (p ≤ pa) && decide (pa < p + 8)) ||
      (decide (i < walkEntries lvl) &&
        match decodeEntry (leNat (s.homeRead p 8)) lvl with | .table next => s.tableHas c pa fuel (lvl + 1) next | _ => false)

/-- An address lies in a stage-1 table of a protected context, which only firmware writes (R382). -/
def State.inTables (s : State) (pa : Nat) : Bool := s.ctxs.any fun c => c.2.prot && !c.2.ended && s.tableHas c.2 pa 4 0 c.2.ptroot

/-- The bytes that a write of anyone but the firmware leaves at an address: those of a protected context's tables stay (R382; what becomes of such a
write is a DESIGN CHOICE, log 114). -/
def State.kept (s : State) (pa : Nat) (bs : List Byte) : List Byte :=
  bs.zipIdx.map fun b => if s.inTables (pa + b.2) then s.homeByte (pa + b.2) else b.1

/-- A whole walk for a context (R367, R368): the mapping as a TLB entry would hold it, the physical address, and what else the walk
leaves to be cached (R369). A combined entry names every stage-2 page that it was built from (R370). -/
def walk (s : State) (known : XCache) (c : Context) (va : Nat) (a : Acc) : Except XFault (TlbEntry × Nat × XCache) :=
  let sp : Space := ⟨c.vmid, c.asid, 0⟩
  if 5461 < va / pageBytes / 2 ^ 28 then .error ⟨7, 0, 0, 0⟩
  else if c.vmid = 0 then
    match walkFrom s known (fun t => .ok (t, [], ⟨[], []⟩)) true sp va 0 (lacks a) 4 0 c.ptroot [] ⟨[], []⟩ with
    | .error f => .error f
    | .ok (p, _, new) => .ok (p.entry sp [], p.addr va, new)
  else
    let tr := fun t => (stage2 s known c.vmid t .engRead).map fun r => (r.1.addr t, [(r.1.base, r.1.size)], r.2)
    match walkFrom s known tr false sp va 0 (lacks a) 4 0 c.ptroot [] ⟨[], []⟩ with
    | .error f => .error f
    | .ok (p, via, new) =>
      match stage2 s known c.vmid (p.addr va) a with
      | .error f => .error f
      | .ok (q, more) =>
        let n := min p.size q.size
        let b := va / n * n
        .ok (⟨c.vmid, c.asid, 2, b, n, q.addr (p.addr b), p.rd && q.rd, p.wr && q.wr, p.ex && q.ex, via ++ [(q.base, q.size)]⟩,
          q.addr (p.addr va), new.add more)

/-- A TLB entry serves an access (R369, R370). -/
def tlbServes (e : TlbEntry) (c : Context) (va : Nat) (a : Acc) : Bool :=
  Space.covers ⟨c.vmid, c.asid, 0⟩ e va && (lacks a e.page).isNone

/-- A walk made on a die, for a core or for an engine, from what `known` gives, and cached if it succeeds: a failed walk leaves nothing
(R369). From a full TLB the oldest entry leaves, and the walk caches hold 8192 entries (DESIGN CHOICE, log 133). -/
def walkNow (s : State) (known : XCache) (core : Option Nat) (die : Nat) (c : Context) (va : Nat) (a : Acc) : Except XFault Nat × State :=
  match walk s known c va a with
  | .error f => (.error f, s)
  | .ok (e, pa, new) =>
    let s1 := s.modDie die fun d => { d with tlb := (e :: new.maps ++ d.tlb).take 8192, walks := (new.tables ++ d.walks).take 8192 }
    let s2 := match core with
      | some k => s1.modCore k fun x => { x with tlb := (e :: x.tlb).take 64 }
      | none => s1
    (.ok pa, s2)

/-- A translation made on a die, for a core or for an engine (R369): cached, or walked and cached. An entry that lacks the
permission is not used: the access walks. -/
def translate (s : State) (core : Option Nat) (die : Nat) (c : Context) (va : Nat) (a : Acc) : Except XFault Nat × State :=
  let l1 := match core with | some k => (s.core k).tlb | none => []
  match (l1 ++ (s.die die).tlb).find? fun e => tlbServes e c va a with
  | some e => (.ok (e.out + (va - e.base)), s)
  | none => walkNow s ⟨(s.die die).tlb, (s.die die).walks⟩ core die c va a

/-- What the TLBs and walk caches of a die, and of a core, hold of a virtual address of a context is dropped, with the stage-2 entries of
its VMID: the next translation reads every table entry at its home (R370, R381). -/
def State.forgetPage (s : State) (core : Option Nat) (die vmid asid va : Nat) : State :=
  let old := fun (e : TlbEntry) => Space.covers ⟨vmid, asid, 0⟩ e va || (e.stage == 1 && e.vmid == vmid)
  let s1 := s.modDie die fun d => { d with tlb := d.tlb.filter fun e => !old e, walks := d.walks.filter fun w => !old w.2 }
  match core with
  | some k => s1.modCore k fun x => { x with tlb := x.tlb.filter fun e => !old e }
  | none => s1

/-! ### Parking (R372 to R378) -/

/-- A fault record (R373). -/
def faultRecord (va : Nat) (c : Context) (ctx die : Nat) (f : XFault) (acc fseq : Nat) : List Byte :=
  let asid := if f.stage = 0 then c.asid else 0
  leBytes 64 (fseq * 2 ^ 288 + die * 2 ^ 337 + ctx * 2 ^ 342 + c.prot.toNat * 2 ^ 358 + acc * 2 ^ 359 + f.lvl * 2 ^ 362 +
    f.reason * 2 ^ 364 + f.stage * 2 ^ 368 + c.vmid * 2 ^ 372 + asid * 2 ^ 384 + (if f.stage = 1 then f.ipa else 0) % 2 ^ 52 * 2 ^ 400 +
    va % 2 ^ 56 * 2 ^ 456)

/-- The function that owns a context's partition (R374, R379, R400): partition k is function k + 1's; of a context of no or of several
partitions, the function that created it, which owns them all. -/
def Context.ownerFn (c : Context) : Nat := match setBits c.parts 8 with | [k] => k + 1 | _ => c.owner

/-- A fault record emitted on a die (R372 to R374): queued for the function's ring, with `EVPEND.FLT`. -/
def State.emitFault (s : State) (die fn : Nat) (r : Nat → List Byte) : State :=
  s.modDie die fun d => { d with faults := d.faults ++ [(fn, r d.fseq.toNat)], fseq := d.fseq + 1, evPend := d.evPend ||| 4 }

/-- The merge entry of a key exists on a die. -/
def Die.hasMerge (d : Die) (vmid asid stage page : Nat) : Bool :=
  d.merge.any fun m => m.vmid == vmid && m.asid == asid && m.stage == stage && m.page == page

/-- Where a newly parked request goes (R377, R378). -/
def Die.placeFor (d : Die) : Place :=
  if d.spell then .held
  else if d.prsUsed < d.prsLimit ∧ d.ovcUsed = 0 then .cellar
  else if d.ovcUsed < d.ovcSize then .ring
  else .held

/-- A holding spell begins (R378): `EVPEND.OVF` and the cellar-overflow vector of the hypervisor's function, once. -/
def State.startSpell (s : State) (die : Nat) : State :=
  if (s.die die).spell then s
  else
    let s1 := s.modDie die fun d => { d with spell := true, evPend := d.evPend ||| 8 }
    { s1 with irqs := s1.irqs ++ [(0, Config.overflowVector)] }

/-- A holding spell ends when no request is held (R378). -/
def State.endSpell (s : State) (die : Nat) : State :=
  if (s.die die).spell && !(s.die die).reqs.any fun r => r.2.place == .held && !r.2.noEntry then s.modDie die fun d => { d with spell := false } else s

/-- An overflow record is written whole into the ring (R377): its 768 bytes are the device's own (log 107). -/
def State.spill (s : State) (die : Nat) : State :=
  let d := s.die die
  (s.homeWrite (d.ovcBase + 768 * (d.ovcNext % max 1 d.ovcSize)) ((List.range 768).map (Config.overflowByte s.nextId))).modDie die fun d =>
    { d with ovcNext := d.ovcNext + 1 }

/-- A request takes its place on a die (R377, R378). -/
def State.enterReq (s : State) (die id : Nat) (r : Req) : State :=
  let s1 := s.modDie die fun d => { d with reqs := FMap.set d.reqs id r }
  match r.place with
  | .cellar => s1
  | .ring => s1.spill die
  | .held => if r.noEntry then s1 else s1.startSpell die

/-- A request parked on a die (R372, R375 to R378): on its key's merge entry, which the first miss creates with a fault
record; with the table full, held until an entry frees. -/
def State.park (s : State) (die : Nat) (kind : ReqKind) (ctx : Nat) (c : Context) (va : Nat) (f : XFault) (acc : Acc)
    (wave : Option Nat) (gen : Nat) : State :=
  let asid := if f.stage = 0 then c.asid else 0
  let page := if f.stage = 0 then va / pageBytes else f.ipa / pageBytes
  let d := s.die die
  let joins := d.hasMerge c.vmid asid f.stage page
  let full := !joins && decide (Config.mergeEntries ≤ d.merge.length)
  let s1 :=
    if joins || full then s
    else
      (s.modDie die fun d => { d with merge := d.merge ++ [⟨c.vmid, asid, f.stage, page⟩] }).emitFault die
        (if f.stage = 0 then c.ownerFn else 0) (faultRecord va c ctx die f acc.code)
  let (id, s2) := s1.fresh
  let pl := if full then .held else (s2.die die).placeFor
  let r : Req := { kind := kind, vmid := c.vmid, asid := asid, stage := f.stage, page := page, vpage := va / pageBytes, va := va,
                   acc := acc.code, ctx := ctx,
                   wave := wave, gen := gen, follows := none, place := pl, res := none, noEntry := full }
  s2.enterReq die id r

/-- A younger access of a thread to a page on which it has a parked request parks behind it (R174, R376): it takes the
key, and the resolution if there is one, of the entry it follows; its address and its kind of access are its own (R373). -/
def State.parkBehind (s : State) (die id : Nat) (r : Req) (kind : ReqKind) (va : Nat) (acc : Acc) : State :=
  let (n, s1) := s.fresh
  s1.enterReq die n { r with kind := kind, va := va, acc := acc.code, follows := some id, place := if r.noEntry then .held else (s1.die die).placeFor }

/-- The parked requests of a die that a predicate selects, oldest first. -/
def Die.parked (d : Die) (p : Req → Bool) : List (Nat × Req) := d.reqs.filter fun x => p x.2

/-- An operation or a check of some lanes of a mask that is older than `id` (R376). -/
def ReqKind.olderOn (k : ReqKind) (lanes : LaneMask) (id n : Nat) : Bool :=
  match k with
  | .op j m => m &&& lanes != 0 && decide (j < id)
  | .swait _ m => m &&& lanes != 0 && decide (n < id)
  | _ => false

/-- The last parked request of a wave's lanes on a virtual page that is older than the operation `id`, on whichever die it stands
(R376, R385): die, number and request. -/
def State.lastOn (s : State) (key vpage : Nat) (lanes : LaneMask) (id : Nat) : Option (Nat × Nat × Req) :=
  (sortBy (fun x y => decide (x.2.1 ≤ y.2.1)) (s.dies.flatMap fun p =>
    (p.2.parked fun r => r.wave == some key && r.vpage == vpage).filterMap fun x =>
      if x.2.kind.olderOn lanes id x.1 then some (p.1, x) else none)).getLast?

/-- The request that a lane parks behind (R376): its own last one on the page; of lanes that load one address, else that of another of them, so
that they see one value (R176). The lanes are given in that order. -/
def State.lastBehind (s : State) (key vpage : Nat) (lanes : List Nat) (id : Nat) : Option (Nat × Nat × Req) :=
  lanes.findSome? fun L => s.lastOn key vpage (LaneMask.single L) id

/-- Lanes parked each behind the entry that it follows: one further entry for each entry that is followed (R375, R376). `va` gives a lane's address. -/
def State.parkEach (s : State) (l : List (Nat × Nat × Nat × Req)) (va : Nat → Nat) (acc : Acc) (kind : LaneMask → ReqKind) : State :=
  (dedup (l.map fun p => p.2.2.1)).foldl (fun t rid =>
    match l.filter fun p => p.2.2.1 == rid with
    | p :: q => t.parkBehind p.2.1 rid p.2.2.2 (kind (LaneMask.ofPred ((p :: q).map Prod.fst).contains)) (va p.1) acc
    | [] => t) s

/-- Some lane of a mask has a parked request (R109, R182, R218). -/
def State.parkedLanes (s : State) (key : Nat) (lanes : LaneMask) : Bool :=
  s.dies.any fun p => p.2.reqs.any fun x => x.2.wave == some key &&
    (match x.2.kind with | .op _ m => m &&& lanes != 0 | .swait _ m => m &&& lanes != 0 | _ => false)

/-- Some lane of a mask has a parked request of an operation older than `id` (R111, R117). -/
def State.parkedBefore (s : State) (key : Nat) (lanes : LaneMask) (id : Nat) : Bool :=
  s.dies.any fun p => p.2.reqs.any fun x => x.2.wave == some key && x.2.kind.olderOn lanes id x.1

/-- A parked request leaves the cellar (R380). -/
def State.unpark (s : State) (die id : Nat) : State := (s.modDie die fun d => { d with reqs := FMap.erase d.reqs id }).endSpell die

/-- A merge entry ends once no requester is left on it that awaits a resolution (R372). -/
def State.reapMerge (s : State) (die : Nat) : State :=
  let live := fun (d : Die) (m : MergeEntry) => d.reqs.any fun x =>
    x.2.res == none && !x.2.noEntry && x.2.vmid == m.vmid && x.2.asid == m.asid && x.2.stage == m.stage && x.2.page == m.page
  s.modDie die fun d => { d with merge := d.merge.filter (live d) }

/-- Every parked request whose entry `p` selects is dropped (R357, R360): its merge entry ends if it was the last. -/
def State.dropReqs (s : State) (p : Req → Bool) : State :=
  s.dies.foldl (fun t x =>
    if x.2.reqs.any fun r => p r.2 then
      ((t.modDie x.1 fun d => { d with reqs := d.reqs.filter fun r => !p r.2 }).reapMerge x.1).endSpell x.1
    else t) s

/-! ### The private window (R277) -/

/-- The first address of the private window. -/
def privateBase : Nat := 0xFF000000000000

/-- The address a thread's access to the private window becomes; `none` at or above `SPB` (R277). -/
def remap (n : Node) (wg : Workgroup) (t va : Nat) : Option Nat :=
  if va < privateBase then some va
  else
    let spb := leNat ((n.cmd.drop 56).take 4)
    if va - privateBase < spb then
      some ((leNat ((n.cmd.drop 48).take 8) + (wg.ordinal * wg.threads + t) * spb + (va - privateBase)) % 2 ^ 56)
    else none

end Sys2Proof.Machine
end

