-- ==== Sys2Proof/Machine/Wire.lean ====
section
/-! DEFINITION. Flits, ports and the requests this package sends into the fabric (spec/24, R388 to R396; R321 to R323). -/

namespace Sys2Proof.Machine

/-! ### CRC-32C (R344, R392): the Castagnoli polynomial, reflected, with the customary initial and final complement (PRESUMED, log 8) -/

/-- One bit of the CRC. -/
def crcBit (c : BitVec 32) : BitVec 32 := if c.getLsbD 0 then (c >>> 1) ^^^ 0x82F63B78 else c >>> 1
/-- One byte of the CRC. -/
def crcByte (c : BitVec 32) (b : Byte) : BitVec 32 := (List.range 8).foldl (fun x _ => crcBit x) (c ^^^ b.zeroExtend 32)
/-- CRC-32C of a list of bytes. -/
def crc32c (bs : List Byte) : BitVec 32 := ~~~(bs.foldl crcByte (BitVec.allOnes 32))

/-! ### Routes (R388 to R390, R395) -/

/-- The row of a package position (R232, R388). -/
def pkgRow (p : Nat) : Nat := bits p 0 4
/-- The column of a package position. -/
def pkgCol (p : Nat) : Nat := bits p 4 4
/-- The next package on the minimal route: a row hop, then a column hop (R390). -/
def nextHop (src dst : Nat) : Nat := if pkgCol src ≠ pkgCol dst then pkgRow src + 16 * pkgCol dst else dst
/-- A third package by which a hop may be detoured: in the same row for a row hop, in the same column for a column hop (R390). -/
def detourOk (src dst via : Nat) : Bool :=
  via != nextHop src dst &&
  if pkgCol src ≠ pkgCol dst then pkgRow via == pkgRow src && via != src else pkgCol via == pkgCol src && via != src
/-- A port of a route: in service, not an idle spare, and sealed if the context is protected (R388, R389, R395). -/
def portUp (p : Port) (sealedOnly : Bool) : Bool := p.up && !p.spare && (!sealedOnly || p.sealPolicy)
/-- Before this counter of a SEAL port both ends rekey (R394). -/
def rekeyBound : BitVec 64 := 0xFFFFFFFF00000000
/-- The port takes a flit of a class now: there is room in its replay buffer (R393), and its key may seal one more (R394). -/
def portRoom (p : Port) (cls : Nat) : Bool :=
  (cls == 1 || decide ((p.replay.getD cls []).length < (if cls = 2 then 8 else 512))) && !(p.sealPolicy && decide (rekeyBound ≤ p.txCount))
/-- The ports of a route to a package. -/
def State.portsTo (s : State) (peer : Nat) (sealedOnly : Bool) : List Nat :=
  (List.range 48).filter fun k => match s.ports[k]? with | some p => p.peer == peer && portUp p sealedOnly | none => false
/-- The ports by which a hop may be detoured (R390). -/
def State.portsAround (s : State) (dst : Nat) (sealedOnly : Bool) : List Nat :=
  (List.range 48).filter fun k => match s.ports[k]? with | some p => portUp p sealedOnly && detourOk s.pkg dst p.peer | none => false
/-- The flow number: class, source and destination (R389). -/
def flowOf (cls src dst : Nat) : Nat := cls * 65536 + src * 256 + dst
/-- The source, destination and detour fields of a flit that waits in a replay buffer (R392). -/
def flowFields (flit : List Byte) : Nat × Nat × Option Nat :=
  let r := leNat ((flit.drop 224).take 8)
  (r % 256, bits r 8 8, if r.testBit 24 then some (bits r 16 8) else none)
/-- The detour that a flit has still to make (R390): of one that is past it here, none. -/
def State.viaAhead (s : State) (via : Option Nat) : Option Nat := if via = some s.pkg then none else via
/-- The port in service that holds unacknowledged flits of a management flow, and their detour: the flow stays on it (R391). -/
def State.bound (s : State) (cls src dst : Nat) : Option (Nat × Option Nat) :=
  (List.range 48).findSome? fun k =>
    match s.ports[k]? with
    | some p => if !p.up then none else (p.replay.getD cls []).findSome? fun f =>
        let (a, b, via) := flowFields f.2
        if a = src ∧ b = dst then some (k, s.viaAhead via) else none
    | none => none
/-- Unacknowledged flits of a flow stand on a port out of service: they go before any later one (R391). -/
def State.stuck (s : State) (cls src dst : Nat) : Bool :=
  cls != 1 && s.ports.any fun p => !p.up && (p.replay.getD cls []).any fun f => (flowFields f.2).1 == src && (flowFields f.2).2.1 == dst
/-- The port number `k` takes a flit of a class now, and with which detour. -/
def State.takes (s : State) (cls : Nat) (r : Nat × Option Nat) (sealedOnly : Bool) : Option (Nat × Option Nat) :=
  match s.ports[r.1]? with
  | some p => if portUp p sealedOnly && portRoom p cls then some r else none
  | none => none
/-- A port holds 192 or more queued flits (R390). -/
def State.crowded (s : State) (k : Nat) : Bool := decide (192 ≤ (match s.ports[k]? with | some p => p.queue.length | none => 0))
/-- The port a flow takes and the detour package, if any (R389, R390): chosen by the flow's hash among the ports of the hop; a detour where
every port of the hop has failed, or the chosen one is crowded. `none` when the chosen port takes no flit now. A flit that has been
detoured on this hop does not detour again. -/
def State.choose (s : State) (cls src dst : Nat) (sealedOnly mayDetour : Bool) : Option (Nat × Option Nat) :=
  let pick := fun (l : List Nat) => match l with
    | [] => none
    | [p] => some p
    | p :: t => some ((p :: t).getD (Config.flowHash (flowOf cls src dst) % (t.length + 1)) p)
  let around := if cls = 1 || !mayDetour then none else
    (pick (s.portsAround dst sealedOnly)).map fun q => (q, some (match s.ports[q]? with | some x => x.peer | none => 0))
  let r := match pick (s.portsTo (nextHop s.pkg dst) sealedOnly), around with
    | some p, some r => if s.crowded p then some r else some (p, none)
    | some p, none => some (p, none)
    | none, r => r
  r.bind fun x => s.takes cls x sealedOnly
/-- A reliable flit that this package sent to another has not been acknowledged there (R391; log 76). -/
def State.unacked (s : State) (dst : Nat) : Bool := FMap.getD s.eseqTx dst 0 != FMap.getD s.eseqAck dst 0
/-- The port that a flow is bound to, and its detour (R389 to R391): a reliable one that begins here while its destination has not acknowledged all
of it, one that is forwarded here for good, since its destination's acknowledgements do not show here (log 76), a management flow while its port
holds flits of it. -/
def State.binding (s : State) (cls src dst : Nat) : Option (Nat × Option Nat) :=
  match cls with
  | 0 => if src == s.pkg && !s.unacked dst then none else FMap.get? s.flows (flowOf 0 src dst)
  | 1 => none
  | _ => s.bound cls src dst
/-- The port of a flow's next flit (R389 to R391): the one it is bound to, else one that is chosen; none while earlier flits of it wait on a port
out of service. Where the bound one is crowded and the hop may be detoured, the flit waits until the flow may change its port (R390, R391). -/
def State.route (s : State) (cls src dst : Nat) (sealedOnly : Bool) (mayDetour : Bool := true) : Option (Nat × Option Nat) :=
  if s.stuck cls src dst then none
  else
    match s.binding cls src dst with
    | some r =>
      if cls ≠ 1 && mayDetour && r.2.isNone && !(s.portsAround dst sealedOnly).isEmpty && s.crowded r.1 then none
      else s.takes cls r sealedOnly
    | none => s.choose cls src dst sealedOnly mayDetour

/-- Bytes of a list of bits, bit 0 of byte 0 first. -/
def bitBytes (n : Nat) (l : List Bool) : List Byte :=
  (List.range n).map fun i => BitVec.ofNat 8 (((List.range 8).filter fun j => l.getD (8 * i + j) false).foldl (fun acc j => acc + 2 ^ j) 0)
/-- Exactly `n` bytes: cut or filled with zeros. -/
def fitBytes (n : Nat) (l : List Byte) : List Byte := (l ++ List.replicate n 0).take n

/-- `PAY`, `MASK`, `ADDR` and `ROUTE` of a flit in clear: bytes 0 to 231 (R392). -/
def flitPlain (b : FlitBody) (src : Nat) (via : Option Nat) (eseq : Nat) : List Byte :=
  let addr := leBytes 8 (b.offset % 2 ^ 40 + b.window % 4096 * 2 ^ 40 + b.kind * 2 ^ 52 + b.cls * 2 ^ 58)
  let v := match via with | some x => x * 2 ^ 16 + 2 ^ 24 | none => 0
  let route := leBytes 8 (src + b.dst * 2 ^ 8 + v + b.srcCtx * 2 ^ 25 + b.dstCtx * 2 ^ 35 + eseq % 65536 * 2 ^ 45)
  fitBytes 192 b.pay ++ bitBytes 24 b.mask ++ addr ++ route
/-- The 256 bytes of a flit on port `num` (R392, R394): sealed on a SEAL port, under its key and the nonce of its counter, with its CRC (log 116). -/
def flitBytes (plain : List Byte) (seq ack num : Nat) (port : Port) : List Byte :=
  let auth := plain.drop 192 ++ leBytes 4 (seq % 65536 + ack % 65536 * 2 ^ 16)
  let (pay, tag) := if port.sealPolicy then Config.gcmSeal port.key (Config.portNonce num true port.txCount ++ auth) (plain.take 192) else (plain.take 192, [])
  let body := fitBytes 192 pay ++ auth ++ fitBytes 16 tag
  body ++ leBytes 4 (crc32c body).toNat
/-- The cumulative acknowledgement that a port owes for a class (R392, R393). -/
def Port.ackNum (p : Port) (cls : Nat) : Nat := (p.rxSeq.getD cls 0 + 65535) % 65536
/-- A port may send a flit now (R394): the key of a SEAL port has not reached its bound. -/
def Port.keyed (p : Port) : Bool := !(p.sealPolicy && decide (rekeyBound ≤ p.txCount))
/-- A flit goes onto the wire of a port (R392, R394) and carries the acknowledgement of its class; a SEAL port counts it, and sends none under a key
that has reached its bound. -/
def State.wire (s : State) (k : Nat) (plain : List Byte) (seq cls : Nat) : State :=
  match s.ports[k]? with
  | none => s
  | some p =>
    if !p.keyed then s
    else
    { s with flitsOut := s.flitsOut ++ [(k, flitBytes plain seq (p.ackNum cls) k p)],
             ports := modAt s.ports k fun p => { p with txCount := if p.sealPolicy then p.txCount + 1 else p.txCount,
                                                        ackOwed := modAt p.ackOwed cls fun _ => false } }
/-- A flit is given to a port (R392, R393): it takes the next `SEQ` of the link and class, waits for a slot of the port, and stays in the replay
buffer until it is acknowledged; lossy flits are not kept. Its flow is bound to the port (R391). -/
def State.emitFlit (s : State) (k cls : Nat) (plain : List Byte) : State :=
  match s.ports[k]? with
  | none => s
  | some p =>
    let seq := p.txSeq.getD cls 0
    let (src, dst, via) := flowFields plain
    { s with ports := modAt s.ports k fun p => { p with txSeq := modAt p.txSeq cls fun x => (x + 1) % 65536,
                                                        replay := if cls = 1 then p.replay else modAt p.replay cls fun m => FMap.set m seq plain,
                                                        queue := p.queue ++ [(cls, seq, plain)] },
             flows := if cls = 1 then s.flows else FMap.set s.flows (flowOf cls src dst) (k, s.viaAhead via) }

/-- The route of a flit through the package: its source and destination. -/
def routeOf (f : Nat × Nat × List Byte) : Nat × Nat := ((flowFields f.2.2).1, (flowFields f.2.2).2.1)
/-- The first queued flit of a class that no flit of its route in the other class stands before (R330, R393). -/
def firstFree (q : List (Nat × Nat × List Byte)) (cls other : Nat) : Option (Nat × Nat × List Byte) :=
  (q.find? fun f => f.1 == cls).filter fun f => !((q.takeWhile (· != f)).any fun g => g.1 == other && routeOf g == routeOf f)
/-- The flit that takes the next slot of a port (R393): management flits first; reliable and lossy ones share the slots one by one, and those of one
route keep their order. -/
def Port.nextFlit (p : Port) : Option (Nat × Nat × List Byte) :=
  match p.queue.find? fun f => f.1 == 2, firstFree p.queue 0 1, firstFree p.queue 1 0 with
  | some m, _, _ => some m
  | none, some r, some l => some (if p.lossyNext then l else r)
  | none, some r, none => some r
  | none, none, l => l
/-- A slot of a port (R393): the next of its queued flits leaves. -/
def State.sendSlot (s : State) (k : Nat) : State :=
  match s.ports[k]? with
  | none => s
  | some p =>
    match if p.up && p.keyed then p.nextFlit else none with
    | none => s
    | some f =>
      let t : State := { s with ports := modAt s.ports k fun p => { p with queue := p.queue.erase f, lossyNext := if f.1 = 2 then p.lossyNext else f.1 == 0 } }
      t.wire k f.2.2 f.2.1 f.1
/-- A flit sent by a port on the way to its destination (R389 to R393): it takes the next `ESEQ` of its flow. -/
def State.sendOn (s : State) (b : FlitBody) (k : Nat) (via : Option Nat) : State :=
  let fl := b.cls * 256 + b.dst
  let eseq := FMap.getD s.eseqTx fl 0
  { s with eseqTx := FMap.set s.eseqTx fl ((eseq + 1) % 65536) }.emitFlit k b.cls (flitPlain b s.pkg via eseq)
/-- A flit sent on the way to its destination by the port of its flow. `none` when no port may carry it now: it waits at the source. -/
def State.sendFlit (s : State) (b : FlitBody) (sealedOnly : Bool) : Option State :=
  (s.route b.cls s.pkg b.dst sealedOnly).map fun r => s.sendOn b r.1 r.2

/-- A flit that goes now, or waits at its source until a port takes it (R391). -/
def State.sendOrWait (s : State) (b : FlitBody) (sealedOnly : Bool) : State :=
  match s.sendFlit b sealedOnly with
  | some t => t
  | none => { s with flitsWait := s.flitsWait ++ [(b, sealedOnly)] }
/-- The flits that wait are tried in their order, management flits first (R393); those that no port takes go on waiting. -/
def State.resendFlits (s : State) : State :=
  (s.flitsWait.filter (fun f => f.1.cls == 2) ++ s.flitsWait.filter fun f => f.1.cls != 2).foldl (fun t f => t.sendOrWait f.1 f.2) { s with flitsWait := [] }

/-- The codes of R180 as a number. -/
def atomCode (o : AtomOp) : Nat := o.code.toNat

/-- A plain access through an aperture: its kind, offset and size (R392, R396). -/
def plainAccess (a : Aperture) (kind off size : Nat) (prot : Bool) : FabricAccess :=
  { kind := kind, src := 0, window := a.win, key := a.key, offset := off, size := size, data := [], mask := [], atomOp := .add,
    operand := 0, newval := 0, ntf := false, tag := 0, prot := prot, srcCtx := 0, dstCtx := 0 }

/-- The operation that a request flit of kind 0x05 names: of an atomic its code of R180; 14 the check of a SWAIT, 15 SWAKE (log 9). -/
def accessOp (a : FabricAccess) : Nat := match a.kind with | 3 => 14 | 4 => 15 | _ => atomCode a.atomOp

/-- The flit of a fabric access (R392). Which context the window's exporter has is not known to the requester: that field is zero (log 9). -/
def accessFlit (a : FabricAccess) (dst ctx : Nat) : FlitBody :=
  { cls := 0, kind := (match a.kind with | 0 => 0x01 | 1 => 0x03 | _ => 0x05), dst := dst, srcCtx := ctx, dstCtx := a.dstCtx,
    window := a.window, offset := a.offset,
    pay := if a.kind = 1 then a.data else
      Config.payOf (if a.kind = 0 then 0x01 else 0x05)
        [a.size, accessOp a, a.operand.toNat, a.newval.toNat, a.ntf.toNat, a.key.toNat],
    mask := if a.kind = 1 then a.mask else [] }

/-- The flit that answers an access (R392), from the exporter's context to the requester's: a mask of zeros says that it was answered as unbacked
(log 27). Several requests share the kind 0x06; byte 8 of the payload tells the answer to a SWAIT check or a SWAKE from an atomic's (log 9). -/
def answerFlit (a : FabricAccess) (data : List Byte) (real : Bool) : FlitBody :=
  { cls := 0, kind := (match a.kind with | 0 => 0x02 | 1 => 0x04 | _ => 0x06), dst := a.src, srcCtx := a.dstCtx, dstCtx := a.srcCtx,
    window := a.window, offset := a.offset, pay := if a.kind < 2 then data else fitBytes 8 data ++ [BitVec.ofNat 8 a.kind],
    mask := List.replicate 192 real }

/-- A request that nothing waits for (R321). -/
def plainReq (a : FabricAccess) (pkg core ctx pa : Nat) : FabricReq :=
  { op := none, lanes := [], va := 0, waiter := none, unit := none, fetch := false, drained := [], stale := false, acc := a, pkg := pkg, sent := false, pa := pa, core := core, ctx := ctx }

/-- A request made of the fabric (R321, R396): listed until it is answered, and sent if a port may carry it. A request to
this package's own window needs no flit. -/
def State.fabricSend (s : State) (r : FabricReq) : State :=
  let (id, s1) := s.fresh
  let r1 := { r with acc := { r.acc with tag := id, src := s.pkg, srcCtx := r.ctx }, sent := false }
  let waits := { s1 with fabricReqs := FMap.set s1.fabricReqs id r1 }
  -- an earlier request to the package that no port has taken goes first (R292, R294)
  if r.pkg = s.pkg || s.fabricReqs.any (fun x => x.2.pkg == r.pkg && !x.2.sent) then waits
  else
    match s1.sendFlit (accessFlit r1.acc r.pkg r.ctx) r.acc.prot with
    | some s2 => { s2 with fabricReqs := FMap.set s2.fabricReqs id { r1 with sent := true } }
    | none => waits

/-- The requests of an operation or a command that is no more stay listed until they are answered, and the answer is of no use. -/
def State.orphanFabric (s : State) (id : Nat) : State :=
  { s with fabricReqs := s.fabricReqs.map fun (r : Nat × FabricReq) => if r.2.op = some id then (r.1, { r.2 with op := none, lanes := [] }) else r }

/-- A protected context has a sealed route to a package (R395): what only keeps its ports from taking a flit now, another route in
use or a full replay buffer, makes the flit wait. -/
def State.sealedRoute (s : State) (dst : Nat) : Bool :=
  dst == s.pkg || s.ports.any fun p => p.up && !p.spare && p.sealPolicy && (p.peer == nextHop s.pkg dst || detourOk s.pkg dst p.peer)

/-- A context is protected (R342). -/
def State.ctxProt (s : State) (ctx : Nat) : Bool := match s.ctx? ctx with | some c => c.prot | none => false

/-- The aperture that a fabric address names, if it leads anywhere (R395, R396). -/
def State.aperture? (s : State) (ctx pa : Nat) : Option Aperture :=
  match s.ctx? ctx with
  | none => none
  | some c =>
    match FMap.get? c.apertures (bits pa 40 8) with
    | some a => if a.valid && (!c.prot || s.sealedRoute a.pkg) then some a else none
    | none => none

/-! ### The write-combining buffer (R322, R323) -/

/-- The bytes of a fabric line as a mask and a line (R323). -/
def wcbLine (e : WcbEntry) : List Byte × List Bool :=
  ((List.range 192).map fun i => FMap.getD e.bytes i 0, (List.range 192).map fun i => (FMap.get? e.bytes i).isSome)

/-- A request or an entry of a window's line. -/
def WcbEntry.isLine (e : WcbEntry) (pkg win off : Nat) : Bool := e.pkg == pkg && e.win == win && e.off / 192 == off / 192
/-- A request for the same line of a window by a core. -/
def FabricReq.isLine (r : FabricReq) (core pkg win off : Nat) : Bool :=
  r.core == core && r.pkg == pkg && r.acc.window == win && r.acc.offset / 192 == off / 192

/-- A request of a core reaches bytes of a line of a window. -/
def FabricReq.overLine (r : FabricReq) (core pkg win off : Nat) : Bool :=
  r.core == core && r.pkg == pkg && r.acc.window == win && meets r.acc.offset r.acc.size (off / 192 * 192) 192

/-- The write that a drain sends (R323). -/
def WcbEntry.access (e : WcbEntry) (prot : Bool) : FabricAccess :=
  let (d, m) := wcbLine e
  { plainAccess ⟨e.pkg, true, e.win, e.key⟩ 1 e.off 192 prot with data := d, mask := m }

/-- One entry drained: one masked write to the target (R323); the entry of a protected context that has no sealed route is dropped as
unbacked (R395). The loads of the core that wait for the line keep the bytes: they see the store (R292, R297). -/
def State.drainEntry (s : State) (core : Nat) (e : WcbEntry) : State :=
  let s1 := s.modCore core fun c => { c with wcb := c.wcb.filter fun x => !x.isLine e.pkg e.win e.off }
  if s.ctxProt e.ctx && !s.sealedRoute e.pkg then s1.countUnbacked none (core / 48)
  else
    let s2 := { s1 with fabricReqs := s1.fabricReqs.map fun (p : Nat × FabricReq) =>
      if p.2.acc.kind = 0 && p.2.overLine core e.pkg e.win e.off then
        (p.1, { p.2 with stale := true, drained := e.bytes.foldl (fun (m : FMap Byte) (b : Nat × Byte) => FMap.set m (e.off + b.1) b.2) p.2.drained }) else p }
    s2.fabricSend (plainReq (e.access (s.ctxProt e.ctx)) e.pkg core e.ctx (15 * 2 ^ 48 + e.off))

/-- Every entry of a core that `p` selects drained, oldest first (R323). -/
def State.drainWcb (s : State) (core : Nat) (p : WcbEntry → Bool) : State :=
  ((s.core core).wcb.filter p).foldl (fun t e => t.drainEntry core e) s

/-- Writes of a core that the fabric has not answered. -/
def State.fabricBusy (s : State) (core : Nat) : Bool := s.fabricReqs.any fun p => p.2.core == core && p.2.acc.kind == 1

/-- A fabric store (R322): in place in an L1 copy of whatever class, which stays clean, and into the entry of its line; the oldest entry
makes room. -/
def State.fabricStore (s : State) (core ctx : Nat) (a : Aperture) (off : Nat) (bs : List Byte) : State :=
  let s1 := [0, 1, 2].foldl (fun (t : State) cls => match FMap.get? (t.core core).l1 (fabKey a cls off) with
    | some c => t.putL1 core (fabKey a cls off) (splice c.data (fabPlace cls off % 48) bs) false
    | none => t) s
  let put := fun (m : FMap Byte) => bs.zipIdx.foldl (fun acc p => FMap.set acc (off % 192 + p.2) p.1) m
  if (s1.core core).wcb.any fun e => e.isLine a.pkg a.win off then
    s1.modCore core fun c => { c with wcb := c.wcb.map fun e => if e.isLine a.pkg a.win off then { e with bytes := put e.bytes } else e }
  else
    let s2 := match (s1.core core).wcb with
      | e :: l => if 16 ≤ l.length + 1 then s1.drainEntry core e else s1
      | [] => s1
    s2.modCore core fun c => { c with wcb := c.wcb ++ [⟨a.pkg, a.win, off / 192 * 192, a.key, ctx, put []⟩] }

/-- Bytes of a fabric line that the core's own buffer and L1 give (R322): `none` if the target must be asked. -/
def State.fabricRead? (s : State) (core : Nat) (a : Aperture) (cls off n : Nat) : Option (List Byte) :=
  (List.range n).mapM fun i =>
    match ((s.core core).wcb.find? fun e => e.isLine a.pkg a.win (off + i)).bind fun e => FMap.get? e.bytes ((off + i) % 192) with
    | some b => some b
    | none => (FMap.get? (s.core core).l1 (fabKey a cls (off + i))).map fun c => List.getD c.data (fabPlace cls (off + i) % 48) 0

end Sys2Proof.Machine
end

