-- ==== Sys2Proof/Machine/Sync.lean ====
section
/-! DEFINITION. Groups, barrier instances and the wait table (R104, R107 to R111, R262 to R264, R271, R272). -/

namespace Sys2Proof.Machine

/-- The kernel of a workgroup, through its launch node. -/
def State.kernelOf (s : State) (wg : Workgroup) : Option Kernel :=
  match s.node? wg.node with | some n => n.kernel | none => none

/-- The bit boundary of level `j` (R260). -/
def levelBits (k : Kernel) (j : Nat) : Nat := (k.widths.take j).foldl (· + ·) 0

/-- The count of thread bits (R260). -/
def threadBits (k : Kernel) : Nat := levelBits k k.tlv

/-- A level as it counts: one above `TLEVEL` is `TLEVEL` (R108). -/
def levelOf (k : Kernel) (j : Nat) : Nat := min j k.tlv

/-- The group of a thread at a level: the thread index without the bits below it (R108). -/
def groupOf (k : Kernel) (j t : Nat) : Nat := t / 2 ^ levelBits k (levelOf k j)

/-- The core index of wave `w` of a workgroup of `c` cores and `W` waves (R262). -/
def coreIndex (w c W : Nat) : Nat := w * c / W

/-- A thread of a workgroup has exited: `X` of its entry (R27). -/
def State.threadExited (s : State) (wg : Workgroup) (t : Nat) : Bool :=
  match s.wave? (wg.waves.getD (t / 32) 0) with
  | some w => match w.pct[t % 32]? with | some e => e.x | none => true
  | none => true

/-- A wave stopped by a trap or a HALT (R50, R248). -/
def State.waveStopped (s : State) (key : Nat) : Bool :=
  match s.wave? key with
  | some w => (match w.stop with | .trapCheck => true | .trapSlot => true | .halted => true | .running => false | .agent => false)
  | none => false

/-- A thread of a workgroup counts as arrived: it is recorded, and its wave is not stopped (R109, R248; of a wave stopped by a trap too, DEDUCED
from R50, log 118). -/
def State.threadArrived (s : State) (wg : Workgroup) (recorded : Bool) (t : Nat) : Bool := recorded && !s.waveStopped (wg.waves.getD (t / 32) 0)

/-- The threads of a group of a workgroup (R108). -/
def groupThreads (k : Kernel) (wg : Workgroup) (j g : Nat) : List Nat :=
  (List.range wg.threads).filter fun t => groupOf k j t == g

/-- The scope of a group: CORE if all its threads are on one core (R108, R263). -/
def groupScope (k : Kernel) (wg : Workgroup) (j g : Nat) : Scope :=
  match (groupThreads k wg j g).map fun t => coreIndex (t / 32) wg.cores.length wg.waves.length with
  | [] => .core
  | c :: l => if l.all (· == c) then .core else .gang

/-- The gang's workgroups that are resident, in order (R264). -/
def State.gangWgs (s : State) (g : Gang) : List (Nat × Workgroup) :=
  g.wgs.filterMap fun n => (s.wg? n).map fun w => (n, w)

/-- A workgroup is swappable (R271): every non-exited thread is blocked and one of them in SWAIT. -/
def State.swappable (s : State) (wg : Workgroup) : Bool :=
  wg.started &&
  (wg.waves.all fun k => match s.wave? k with | some w => w.pct.all fun e => e.x || e.blk | none => true) &&
  (wg.waves.any fun k => match s.wave? k with
    | some w => w.waits.any fun p => match p.2 with | .word .. => true | .poisoned .. => true | .bar _ _ => false
    | none => false)

/-- The moment at which a workgroup became swappable is kept (R272). -/
def State.noteSwappable (s : State) (wgn : Nat) : State :=
  match s.wg? wgn with
  | none => s
  | some wg =>
    if s.swappable wg then (if wg.swappable.isSome then s else s.modWg wgn fun w => { w with swappable := some s.tick })
    else s.modWg wgn fun w => { w with swappable := none }

/-- The lanes of a wave blocked on an instance of a level are released (R109): each refreshes at the group's scope. -/
def State.releaseBar (s : State) (key level inst : Nat) (inGroup : Nat → Bool) (sc : Scope) : State :=
  match s.wave? key with
  | none => s
  | some w =>
    let ls := laneNums.filter fun L => FMap.get? w.waits L == some (.bar level inst) && inGroup (w.index * 32 + L)
    if ls.isEmpty then s
    else
      let m := LaneMask.ofPred ls.contains
      let w1 := w.setPcs m fun _ e => { e with blk := false }
      let w2 := { w1 with waits := w1.waits.filter fun p => !ls.contains p.1,
                          pend := w1.pend.filter fun p => !(p.1 % 8 == level && ls.contains (p.1 / 8)) }
      ((s.setWave key w2).refresh (waveCore key) sc).noteSwappable w.wg

/-- A level's instance of a group completes if every non-exited thread is recorded (R109) and none of them belongs to a stopped wave (R248). -/
def State.checkBar (s : State) (wgn level g : Nat) : State :=
  match s.wg? wgn with
  | none => s
  | some wg =>
    match s.kernelOf wg with
    | none => s
    | some k =>
      let b := FMap.getD wg.bars (level * 2 ^ 14 + g) ⟨0, []⟩
      if b.arrived.isEmpty then s
      else if (groupThreads k wg level g).all fun t => s.threadArrived wg (b.arrived.contains t) t || s.threadExited wg t then
        let s1 := s.modWg wgn fun w => { w with bars := FMap.set w.bars (level * 2 ^ 14 + g) ⟨b.inst + 1, []⟩ }
        wg.waves.foldl (fun t key => t.releaseBar key level b.inst (fun i => groupOf k level i == g) (groupScope k wg level g)) s1
      else s

/-- The gang barrier's instance completes if every non-exited thread of the gang is recorded (R109). -/
def State.checkGangBar (s : State) (gn : Nat) : State :=
  match FMap.get? s.gangs gn with
  | none => s
  | some g =>
    if g.bar.arrived.isEmpty then s
    else
      let ws := s.gangWgs g
      if ws.all fun p => (List.range p.2.threads).all fun t =>
          s.threadArrived p.2 (g.bar.arrived.contains (p.2.pos * 2 ^ 14 + t)) t || s.threadExited p.2 t then
        let s1 := { s with gangs := FMap.set s.gangs gn { g with bar := ⟨g.bar.inst + 1, []⟩ } }
        ws.foldl (fun t p => (p.2.waves.foldl (fun u key => u.releaseBar key 7 g.bar.inst (fun _ => true) .gang) t).noteSwappable p.1) s1
      else s

/-- Every instance of a workgroup and of its gang is looked at again, as after an EXIT (R104) or when a stopped wave goes on (R248). -/
def State.recheckBars (s : State) (wgn : Nat) : State :=
  match s.wg? wgn with
  | none => s
  | some wg => (wg.bars.foldl (fun t p => t.checkBar wgn (p.1 / 2 ^ 14) (p.1 % 2 ^ 14)) s).checkGangBar wg.gang

/-- A thread is recorded at a level, or raises `BOV` when it has an arrival pending there (R109). The level is the number
the pending arrivals are kept under. -/
def State.arriveOne (s : State) (key level L : Nat) (ticket : BitVec 64) : State :=
  match s.wave? key with
  | none => s
  | some w =>
    match s.wg? w.wg with
    | none => s
    | some wg =>
      if (FMap.get? w.pend (L * 8 + level)).isSome then s.setWave key (w.raise wBOV)
      else
        let t := w.index * 32 + L
        if level = 7 then
          match FMap.get? s.gangs wg.gang with
          | none => s
          | some g =>
            let s1 := s.setWave key { w with pend := FMap.set w.pend (L * 8 + 7) g.bar.inst }
            -- the arrival carries the ticket; the instance is kept where the gang's first workgroup is (R410, log 14)
            let home := (g.wgs.head?.bind s.wg?).getD wg
            if home.ticket = ticket then
              { s1 with gangs := FMap.set s1.gangs wg.gang { g with bar := { g.bar with arrived := g.bar.arrived ++ [wg.pos * 2 ^ 14 + t] } } }
            else s1.count 0x06 home.die
        else
          match s.kernelOf wg with
          | none => s
          | some k =>
            let key2 := level * 2 ^ 14 + groupOf k level t
            let b := FMap.getD wg.bars key2 ⟨0, []⟩
            let s1 := s.setWave key { w with pend := FMap.set w.pend (L * 8 + level) b.inst }
            s1.modWg w.wg fun x => { x with bars := FMap.set x.bars key2 { b with arrived := b.arrived ++ [t] } }

/-- The instance a level of a thread is at. -/
def State.barNow (s : State) (w : Wave) (level L : Nat) : Nat :=
  match s.wg? w.wg with
  | none => 0
  | some wg =>
    if level = 7 then match FMap.get? s.gangs wg.gang with | some g => g.bar.inst | none => 0
    else
      match s.kernelOf wg with
      | some k => (FMap.getD wg.bars (level * 2 ^ 14 + groupOf k level (w.index * 32 + L)) ⟨0, []⟩).inst
      | none => 0

/-- The scope of the groups of some threads of a wave at a level: GANG as soon as one of them spans cores (R108). -/
def barScope (k : Kernel) (g : Workgroup) (index : Nat) (lanes : LaneMask) (level : Nat) : Scope :=
  if level = 7 then .gang
  else if (LaneMask.lanes lanes).any fun L => groupScope k g level (groupOf k level (index * 32 + L)) == .gang then .gang else .core

/-- A thread waits at a level (R109): it blocks on its pending arrival's instance if that is not complete. -/
def State.waitOne (s : State) (key level : Nat) (sc : Scope) (L : Nat) : State :=
  match s.wave? key with
  | none => s
  | some w =>
    let go := w.setPcs (LaneMask.single L) fun _ e => { e with blk := false }
    match FMap.get? w.pend (L * 8 + level) with
    | some inst =>
      if s.barNow w level L = inst then
        s.setWave key { w.setPcs (LaneMask.single L) (fun _ e => { e with blk := true, skip := 0 }) with waits := FMap.set w.waits L (.bar level inst) }
      else (s.setWave key { go with pend := FMap.erase w.pend (L * 8 + level) }).refresh (waveCore key) sc
    | none => (s.setWave key go).refresh (waveCore key) sc

/-- Threads of a wave arrive at a level (R109): what they wrote is published, each is recorded, and the instances are looked at. -/
def State.arriveBar (s : State) (key : Nat) (lanes : LaneMask) (wgn : Nat) (g : Workgroup) (k : Kernel) (level : Nat) (sc : Scope) (ticket : BitVec 64) :
    State :=
  let ls := LaneMask.lanes lanes
  let index := match s.wave? key with | some w => w.index | none => 0
  let t := ls.foldl (fun t L => t.arriveOne key level L ticket) (s.publish (waveCore key) sc)
  if level = 7 then t.checkGangBar g.gang
  else (dedup (ls.map fun L => groupOf k level (index * 32 + L))).foldl (fun t q => t.checkBar wgn level q) t

/-- Threads of a wave wait at a level (R109). -/
def State.waitBar (s : State) (key : Nat) (lanes : LaneMask) (level : Nat) (sc : Scope) : State :=
  (LaneMask.lanes lanes).foldl (fun t L => t.waitOne key level sc L) s

/-- BAR, BARA or BARW performed for some threads of a wave (R109): they arrive, wait, or both. -/
def State.performBar (s : State) (key : Nat) (lanes : LaneMask) (wgn : Nat) (g : Workgroup) (k : Kernel) (level : Nat) (sc : Scope) (arrive wait : Bool)
    (ticket : BitVec 64) : State :=
  let s1 := if arrive then s.arriveBar key lanes wgn g k level sc ticket else s
  (if wait then s1.waitBar key lanes level sc else s1).noteSwappable wgn

/-! ### The wait table (R110, R111) -/

/-- The condition of SWAIT on a word and a comparand (R110). -/
def swCond (cmp : SwCmp) (dbl : Bool) (w c : BitVec 64) : Bool :=
  let n := if dbl then 64 else 32
  let sw := sext w.toNat n
  let sc := sext c.toNat n
  let zw := w.toNat % 2 ^ n
  let zc := c.toNat % 2 ^ n
  match cmp with
  | .eq => zw == zc | .ne => zw != zc | .lts => decide (sw < sc) | .ges => decide (sc ≤ sw)
  | .ltz => decide (zw < zc) | .gez => decide (zc ≤ zw)

/-- A word as it stands at its home (R111); an unbacked word is zero (DESIGN CHOICE, log 100). -/
def State.waitWord (s : State) (pa : Nat) (dbl : Bool) : BitVec 64 :=
  match s.backing pa with
  | .fabric _ _ => 0
  | .none _ => 0
  | _ => BitVec.ofNat 64 (leNat (s.homeRead pa (if dbl then 8 else 4)))

/-- The die whose wait table holds the waiters of a word: its home; of a word without one, the waiter's own die. -/
def State.waitDie (s : State) (key pa : Nat) : Nat := (s.home? pa).getD (waveDie key)

/-- A blocked lane is released (R109, R111). -/
def State.unblock (s : State) (key L : Nat) : State :=
  match s.wave? key with
  | none => s
  | some w =>
    let w1 := w.setPcs (LaneMask.single L) fun _ e => { e with blk := false }
    (s.setWave key { w1 with waits := FMap.erase w1.waits L }).noteSwappable w.wg

/-- The condition of a lane's wait holds for a word. -/
def waitHolds (w : Wave) (L : Nat) (v : BitVec 64) : Bool :=
  match FMap.get? w.waits L with | some (.word _ dbl cmp c) => swCond cmp dbl v c | _ => false

/-- The entries that a die's wait table holds (R22, R111): of threads of this package and of SWAIT checks through its windows. -/
def Die.waitEntries (d : Die) : Nat := (d.waiters.filter fun y => y.entered).length + (d.remoteWaits.filter fun y => y.entered).length

/-- A waiter is entered in a die's list, with an entry of the table if it has a home and the table has room. -/
def State.addWaiter (s : State) (die key L pa : Nat) (home : Bool) : State :=
  s.modDie die fun d => { d with waiters := d.waiters ++ [⟨key, L, pa, home && decide (d.waitEntries < Config.waitEntries)⟩] }

/-- The check of a word of fabric memory goes to its home (R111, R283, R324), unless the same lane's is already there; a word that
leads nowhere is taken as unbacked. -/
def State.askWait (s : State) (key L ctx core pa : Nat) (dbl : Bool) (cmp : SwCmp) (c : BitVec 64) : State :=
  match s.aperture? ctx pa with
  | none => if swCond cmp dbl 0 c then s.unblock key L else s.addWaiter (waveDie key) key L pa false
  | some a =>
    if s.fabricReqs.any fun r => r.2.waiter == some (key, L) then s
    else
      let acc := { plainAccess a 3 (bits pa 0 40) (if dbl then 8 else 4) (s.ctxProt ctx) with operand := c, newval := BitVec.ofNat 64 cmp.code.toNat }
      s.fabricSend { plainReq acc a.pkg core ctx pa with waiter := some (key, L) }

/-- A waiter is checked: released if its condition holds, else it stays with its entry, or gains one (R111). One of a fabric word that
led nowhere asks again. -/
def State.checkWaiter (s : State) (die : Nat) (x : Waiter) : State :=
  match s.wave? x.wave with
  | none => s
  | some w =>
    let dbl := match FMap.get? w.waits x.lane with | some (.word _ d _ _) => d | _ => false
    let gone := s.modDie die fun d => { d with waiters := d.waiters.filter fun y => !(y.wave == x.wave && y.lane == x.lane) }
    if waitHolds w x.lane (s.waitWord x.pa dbl) then gone.unblock x.wave x.lane
    else
      match s.backing x.pa, FMap.get? w.waits x.lane with
      | .fabric _ _, some (.word _ dbl cmp c) => gone.askWait x.wave x.lane w.ctx (waveCore x.wave) x.pa dbl cmp c
      | _, _ => s

/-! ### SWAIT checks through windows (R111, R283, R324) -/

/-- The comparison that a check names. -/
def accessCmp (a : FabricAccess) : SwCmp := (SwCmp.ofCode (BitVec.ofNat 3 a.newval.toNat)).getD .eq
/-- The condition of a check holds for a word. -/
def accessHolds (a : FabricAccess) (v : BitVec 64) : Bool := swCond (accessCmp a) (a.size == 8) v a.operand

/-- A lane of a saved wave has found its condition met: its gang is ready to return (R273). -/
def State.readySaved (s : State) (key : Nat) : State :=
  match s.frames.find? fun f => f.2.waves.any fun x => x.key == key with
  | some (_, f) => { s with frames := s.frames.map fun y =>
      if y.2.wg.gang = f.wg.gang ∧ y.2.ready.isNone then (y.1, { y.2 with ready := some s.tick }) else y }
  | none => s

/-- The answer to a SWAIT check of this package (R111): the thread is released, or the gang it is saved in is ready. A check that was
answered as unbacked takes the word as zero (log 100). -/
def State.returnWait (s : State) (id : Nat) (v : BitVec 64) (real : Bool) : State :=
  match FMap.get? s.fabricReqs id with
  | none => s
  | some r =>
    let s1 := { s with fabricReqs := FMap.erase s.fabricReqs id }
    match r.waiter with
    | none => s1
    | some (key, L) =>
      match s1.wave? key with
      | some _ => if accessHolds r.acc (if real then v else 0) then s1.unblock key L else s1.addWaiter (waveDie key) key L r.pa false
      | none => if accessHolds r.acc (if real then v else 0) then s1.readySaved key else s1

/-- A SWAIT check through a window is answered. -/
def State.answerWait (s : State) (a : FabricAccess) (prot : Bool) (v : BitVec 64) (real : Bool) : State :=
  if a.src = s.pkg then s.returnWait a.tag v real
  else s.sendOrWait (answerFlit a (leBytes 8 v.toNat) real) (prot || a.prot)

/-- A SWAIT check through a window at its home: answered if its condition holds, else it waits there; one step (R111). -/
def State.remoteCheck (s : State) (a : FabricAccess) (prot : Bool) (pa : Nat) : State :=
  let v := s.waitWord pa (a.size == 8)
  if accessHolds a v then s.answerWait a prot v true
  else
    s.modDie ((s.home? pa).getD 0) fun d =>
      { d with remoteWaits := d.remoteWaits ++ [⟨a, pa, prot, decide (d.waitEntries < Config.waitEntries)⟩] }

/-- A waiter of another package's thread is checked again. -/
def State.checkRemote (s : State) (die : Nat) (x : RemoteWait) : State :=
  let v := s.waitWord x.pa (x.acc.size == 8)
  if accessHolds x.acc v then (s.modDie die fun d => { d with remoteWaits := d.remoteWaits.filter fun y => y != x }).answerWait x.acc x.prot v true
  else s

/-- The waits through a window end as unbacked when its entry is revoked (R398, log 9). -/
def State.endRemoteWaits (s : State) (w : Nat) : State :=
  s.dies.foldl (fun t d => (d.2.remoteWaits.filter fun x => x.acc.window == w).foldl (fun u x =>
    (u.modDie d.1 fun e => { e with remoteWaits := e.remoteWaits.filter fun y => y != x }).answerWait x.acc x.prot 0 false) t) s

/-- The nodes that wait for a semaphore word in a line re-check it (R351). -/
def State.wakeSemas (s : State) (pa : Nat) : State :=
  s.nodes.foldl (fun t n =>
    match n.2.semaAt with
    | some a =>
      if a / 192 = pa / 192 ∧ leNat ((n.2.cmd.drop 24).take 8) ≤ leNat (t.homeRead a 8) then t.modNode n.1 fun n => { n with semaMet := true } else t
    | none => t) s

/-- Every waiter of a 192-byte line is checked, of any package, and every semaphore in it (R111, R181, R324, R351, R356). -/
def State.wakeLine (s : State) (pa : Nat) : State :=
  match s.home? pa with
  | none => s
  | some die =>
    let s1 := ((s.die die).waiters.filter fun x => x.pa / 192 == pa / 192 && x.entered).foldl (fun t x => t.checkWaiter die x) s
    (((s.die die).remoteWaits.filter fun x => x.pa / 192 == pa / 192 && x.entered).foldl (fun t x => t.checkRemote die x) s1).wakeSemas pa

/-- A lane's check of its word at its home, with its entry in the wait table: one step (R111). Of fabric memory, the check goes there. -/
def State.swaitCheck (s : State) (key L pa : Nat) (dbl : Bool) (cmp : SwCmp) (c : BitVec 64) : State :=
  match s.backing pa with
  | .fabric _ _ =>
    match s.wave? key with
    | some w => s.askWait key L w.ctx (waveCore key) pa dbl cmp c
    | none => s
  | _ =>
    if swCond cmp dbl (s.waitWord pa dbl) c then s.unblock key L
    else s.addWaiter (s.waitDie key pa) key L pa (s.home? pa).isSome

/-- Every entry of a wave leaves the wait tables, and its checks in the fabric are forgotten (R111, R271). -/
def State.dropWaiters (s : State) (key : Nat) : State :=
  let isMine := fun (r : FabricReq) => (match r.waiter with | some (k, _) => k == key | none => false)
  let mine : List Nat := (s.fabricReqs.filter fun (r : Nat × FabricReq) => isMine r.2 && r.2.pkg == s.pkg).map Prod.fst
  let s1 : State := { s with fabricReqs := (s.fabricReqs.filter fun (r : Nat × FabricReq) => !mine.contains r.1).map fun (r : Nat × FabricReq) =>
    (if isMine r.2 then (r.1, { r.2 with waiter := none }) else r) }
  s1.dies.foldl (fun t p => if (p.2.waiters.any fun x => x.wave == key) || (p.2.remoteWaits.any fun x => x.acc.src == s.pkg && mine.contains x.acc.tag) then
    t.modDie p.1 fun d => { d with waiters := d.waiters.filter fun x => x.wave != key,
                                   remoteWaits := d.remoteWaits.filter fun x => !(x.acc.src == s.pkg && mine.contains x.acc.tag) } else t) s1

end Sys2Proof.Machine
end

