-- ==== Sys2Proof/Machine/Access.lean ====
section
/-! DEFINITION. Performing the memory operations that have issued (R173 to R190, R276 to R293, R321 to R324), and the return of results (R41, R49). -/

namespace Sys2Proof.Machine

/-- Which order an operation stands in: global memory, the workgroup's scratchpad, the remote window, a prefetch or a change of the
ways, which only wait for phases, or a phase, a barrier or a maintenance operation that the wave's younger memory instructions wait for
(R109, R174, R182, R289, R292). -/
inductive MemClass | global | pad | remote | pref | ways | order | other deriving DecidableEq, Repr

/-- The class of an instruction. -/
def memClass : Instr → MemClass
  | .ldg .. => .global | .stg .. => .global | .atomg .. => .global | .redg .. => .global | .swake .. => .global
  | .lds .. => .pad | .sts .. => .pad | .atoms .. => .pad | .spmark .. => .pad | .sptest .. => .pad
  | .accld .. => .pad | .accst .. => .pad | .accz .. => .pad | .acccp .. => .pad | .acccv .. => .pad
  | .mred .. => .pad | .mrsc .. => .pad
  | .ldr .. => .remote | .str .. => .remote
  | .phase .. => .order | .cmaint .. => .order | .bar .. => .order | .bara .. => .order | .barw .. => .order
  | .pref .. => .pref | .waycfg .. => .ways
  | _ => .other

/-- The operation returns a register result, or its status, with VARIABLE_RESULT_RETURN; the others end when they are performed. -/
def returns : Instr → Bool
  | .stg .. => false | .sts .. => false | .str .. => false | .redg .. => false | .swake .. => false | .spmark .. => false
  | .accld .. => false | .accst .. => false | .accz .. => false | .acccp .. => false | .acccv .. => false
  | .phase .. => false | .cmaint .. => false | .pref .. => false | .tret .. => false | .schwr .. => false | .mrsc .. => false
  | .bar .. => false | .bara .. => false | .barw .. => false
  | _ => true

/-- The instruction writes global memory, a scratchpad, a line's state or accumulator cells (R182, R293, R299). -/
def writesMem : Instr → Bool
  | .stg .. => true | .atomg .. => true | .redg .. => true
  | .sts .. => true | .atoms .. => true | .spmark .. => true | .accst .. => true | .acccv .. => true
  | .accld .. => true | .accz .. => true | .acccp .. => true
  | .str .. => true
  | _ => false

/-- The instruction is a memory access that a refresh at CORE orders its thread's later loads after (R182). -/
def isAccess (i : Instr) : Bool := memClass i == .global || memClass i == .pad || memClass i == .remote

/-- Bytes of the access of a memory operation. -/
def accessBytes : Instr → Nat
  | .ldg _ z _ _ _ => Size.bytes z | .stg _ z _ _ => Size.bytes z | .lds _ z _ _ => Size.bytes z | .sts _ z _ _ => Size.bytes z
  | .ldr _ z _ _ => Size.bytes z | .str _ z _ _ => Size.bytes z
  | .atomg _ _ dbl _ _ _ _ _ _ => if dbl then 8 else 4
  | .redg _ _ dbl _ _ _ _ => if dbl then 8 else 4
  | .atoms _ _ dbl _ _ _ _ => if dbl then 8 else 4
  | _ => 1

/-- The kind of access for the permission check (R366). -/
def accOf : Instr → Acc
  | .stg .. => .store | .atomg .. => .atomic | .redg .. => .atomic | _ => .load

/-! ### Resident or saved (R362, R383) -/

/-- A wave of a frame by the number it has while it is saved. -/
def Frame.wave? (f : Frame) (key : Nat) : Option Wave := (f.waves.find? fun x => x.key == key).map SavedWave.wave
/-- That wave changed. -/
def Frame.modWave (f : Frame) (key : Nat) (g : Wave → Wave) : Frame :=
  { f with waves := f.waves.map fun x => if x.key = key then { x with wave := g x.wave } else x }
/-- A wave, resident or in a frame. -/
def State.anyWave? (s : State) (key : Nat) : Option Wave :=
  match s.wave? key with | some w => some w | none => s.frames.findSome? fun p => p.2.wave? key
/-- A workgroup, resident or in a frame. -/
def State.anyWg? (s : State) (n : Nat) : Option Workgroup :=
  match s.wg? n with | some g => some g | none => (s.frames.find? fun p => p.2.id == n).map fun p => p.2.wg
/-- The wave of an operation changed, if it is still the allocation it was issued for (R49): resident, or in a frame. -/
def State.ownerMod (s : State) (key gen : Nat) (f : Wave → Wave) : State :=
  match s.wave? key with
  | some w => if w.gen = gen then s.setWave key (f w) else s
  | none =>
    match s.frames.find? fun p => match p.2.wave? key with | some w => w.gen == gen | none => false with
    | some p => { s with frames := FMap.set s.frames p.1 (p.2.modWave key f) }
    | none => s

/-! ### Fields of an operation -/

/-- The effective address of a lane, as captured at issue: rows 0 and 1. -/
def Op.ea (o : Op) (L : Nat) : Nat := (Row.lane (o.srcs.getD 0 []) L).toNat + 2 ^ 32 * (Row.lane (o.srcs.getD 1 []) L).toNat
/-- Word `k` of the captured data of a lane. -/
def Op.data (o : Op) (k L : Nat) : Word := Row.lane (o.srcs.getD (2 + k) []) L
/-- A 64-bit datum of a lane. -/
def Op.data2 (o : Op) (k L : Nat) : Nat := (o.data k L).toNat + 2 ^ 32 * (o.data (k + 1) L).toNat
/-- The die that translates a lane's access: the core's, or at a replay and after it the one whose cellar held its request (R385). -/
def Op.walkDie (o : Op) (L : Nat) : Nat := (FMap.get? o.walkOn L).getD (o.core / 48)
/-- Result words of a lane kept, and the lane performed. -/
def Op.finishLane (o : Op) (L : Nat) (ws : List Word) (raised : BitVec 12) : Op :=
  let vals := o.vals.zipIdx.map fun p => Row.merge (LaneMask.single L) p.1 (Row.splat (ws.getD p.2 0))
  let todo := o.todo &&& ~~~LaneMask.single L
  { o with vals := vals, todo := todo, raised := o.raised ||| raised, done := todo == 0 }

/-- Register words of a load (R79, R176). -/
def loadWords (z : Size) (bs : List Byte) : List Word :=
  let v := leNat bs
  match z with
  | .s8 => [BitVec.ofInt 32 (sext v 8)]
  | .s16 => [BitVec.ofInt 32 (sext v 16)]
  | .z8 => [BitVec.ofNat 32 v]
  | .z16 => [BitVec.ofNat 32 v]
  | .b32 => [BitVec.ofNat 32 v]
  | .b64 => [BitVec.ofNat 32 v, BitVec.ofNat 32 (v / 2 ^ 32)]
  | .b128 => (List.range 4).map fun k => BitVec.ofNat 32 (v / 2 ^ (32 * k))

/-- The bytes a store writes: the low `n` bytes of its data (R176). -/
def storeBytes (o : Op) (n L : Nat) : List Byte :=
  leBytes n (((List.range 4).map fun k => (o.data k L).toNat * 2 ^ (32 * k)).foldl (· + ·) 0)

/-- The new value of an atomic of width `w` bits: old value, operand, new value of CAS (R180). -/
def atomNew (op : AtomOp) (w old b n : Nat) : Nat :=
  match op with
  | .add => (old + b) % 2 ^ w
  | .smin => if sext old w ≤ sext b w then old else b
  | .smax => if sext b w ≤ sext old w then old else b
  | .umin => min old b
  | .umax => max old b
  | .and => old &&& b
  | .or => old ||| b
  | .xor => old ^^^ b
  | .xchg => b
  | .cas => if old = b then n else old
  | .fadd => let f := if w = 64 then FFmt.f64 else FFmt.f32
    roundRn (xsum [dec f old, dec f b]) f

/-- One atomic at the home of its scope (R181, R283): the old value and the state after. The L1 copy of the word's sector is
cleaned and invalidated first, above CORE. -/
def State.atomicAt (s : State) (core pa : Nat) (op : AtomOp) (w : Nat) (sc : Scope) (b n : Nat) : Nat × State :=
  let nb := w / 8
  let key := pa / 48
  let die := core / 48
  match Scope.reach sc with
  | 0 =>
    let (bs, s1) := s.coreRead core pa nb false
    let old := leNat bs
    (old, s1.coreWrite core pa (leBytes nb (atomNew op w old b n)))
  | r =>
    let s1 := (s.cleanL1 core key (2 ≤ r)).modCore core fun c => { c with l1 := FMap.erase c.l1 key }
    if r = 1 ∧ s.home? pa ≠ some die then
      let d := match FMap.get? (s1.die die).l2 key with | some c => c.data | none => s1.homeSector key
      let old := leNat ((d.drop (pa % 48)).take nb)
      (old, ((if (FMap.get? (s1.die die).l2 key).isSome then s1 else s1.touch pa)).putL2 die key (splice d (pa % 48) (leBytes nb (atomNew op w old b n))) true)
    else
      let s2 := if s1.home? pa = some die then s1
        else (s1.cleanCopy die key).modDie die fun d => { d with l2 := FMap.erase d.l2 key }
      if s2.hostKey key ∧ r < 3 then
        match s2.home? pa with
        | some h =>
          let d := s2.homeSector key
          let old := leNat ((d.drop (pa % 48)).take nb)
          (old, (s2.touch pa).putL2 h key (splice d (pa % 48) (leBytes nb (atomNew op w old b n))) true)
        | none => (0, s2)
      else
        let s3 := if s2.hostKey key then s2.cleanHome key else s2
        let old := if s3.hostKey key then leNat (((s3.rawSector key).drop (pa % 48)).take nb) else leNat (s3.homeRead pa nb)
        (old, (s3.touch pa).homeWrite pa (leBytes nb (atomNew op w old b n)))

/-- The words of an atomic's old value. -/
def oldWords (w old : Nat) : List Word := [BitVec.ofNat 32 old, BitVec.ofNat 32 (if w = 64 then old / 2 ^ 32 else 0)]

/-! ### Global memory -/

/-- Lanes of an operation that are parked. -/
def State.opParked (s : State) (id : Nat) : LaneMask :=
  s.dies.foldl (fun acc p => p.2.reqs.foldl (fun a r => match r.2.kind with | .op i m => if i = id then a ||| m else a | _ => a) acc) 0

/-- Lanes of an operation that wait for the fabric's answer. -/
def State.opFabric (s : State) (id : Nat) : LaneMask :=
  s.fabricReqs.foldl (fun acc p => if p.2.op = some id then acc ||| LaneMask.ofPred (fun L => (FMap.get? p.2.lanes L).isSome) else acc) 0

/-- An older operation of the wave waits for the fabric in this lane, with a request that `p` selects by its address there and its size (R174). -/
def State.fabricBehind (s : State) (key id L : Nat) (p : FabricReq → Nat → Nat → Bool) : Bool :=
  s.fabricReqs.any fun q => match FMap.get? q.2.lanes L, q.2.op with
    | some pa, some o => decide (o < id) && (match FMap.get? s.ops o with | some x => x.wave == key && p q.2 pa (accessBytes x.instr) | none => false)
    | _, _ => false

/-- A lane waits for an access that is not performed yet and reaches its bytes: an older one of its thread (R174, R292, R294), or, of a store or an
atomic, a lower lane's of the same instruction that is not even sent (R176, R181). -/
def State.laneBehind (s : State) (id L : Nat) : Bool :=
  match FMap.get? s.ops id with
  | none => false
  | some o =>
    let n := accessBytes o.instr
    (s.ops.any fun q => decide (q.1 < id) && q.2.wave == o.wave && memClass q.2.instr == .global && q.2.todo.has L &&
      meets (q.2.ea L) (accessBytes q.2.instr) (o.ea L) n) ||
    ((match o.instr with | .ldg .. => false | .swake .. => false | _ => true) &&
      (LaneMask.lanes (o.todo &&& ~~~s.opFabric id)).any fun K => decide (K < L) && meets (o.ea K) n (o.ea L) n)

/-- A lane of a fabric access that is held for an older one of its thread (R174, R322): a store, where it writes bytes that an older access of
the thread has not yet read or written; a load, where a lane on its line waits, so that lanes on one address see one value (R176); another
access, behind any. -/
def State.fabricHeld (s : State) (id : Nat) (o : Op) (a : Aperture) (L pa : Nat) : Bool :=
  match o.instr with
  | .stg .. => s.fabricBehind o.wave id L fun r q m => r.pkg == a.pkg && r.acc.window == a.win && meets (bits q 0 40) m (bits pa 0 40) (accessBytes o.instr)
  | .ldg .. => (LaneMask.lanes o.todo).any fun K => o.ea K / 192 == o.ea L / 192 && s.fabricBehind o.wave id K fun _ _ _ => true
  | _ => s.fabricBehind o.wave id L fun _ _ _ => true

/-- A lane of a global access that reaches nothing (R277, R279, R380): a load returns zero and, with `eerr`, raises `EERR`. -/
def State.laneZero (s : State) (id L : Nat) (eerr : Bool) : State :=
  s.modOp id fun o => o.finishLane L [] (if eerr then wEERR else 0)

/-- A lane of a global access performed at a fabric address (R321 to R324). Lanes of one load on one line share its request, and so
what it returns (R176). -/
def State.fabricLane (s : State) (id : Nat) (o : Op) (ctx L pa : Nat) : State :=
  match s.aperture? ctx pa with
  | none => (s.countUnbacked none (o.core / 48)).laneZero id L (match o.instr with | .ldg .. => true | _ => false)
  | some a =>
    if s.fabricHeld id o a L pa then s
    else
      let off := bits pa 0 40
      let prot := s.ctxProt ctx
      let send := fun (t : State) (acc : FabricAccess) => t.fabricSend { plainReq acc a.pkg o.core ctx pa with op := some id, lanes := [(L, pa)] }
      -- the entry of an atomic's own line is drained first, the L1 copy discarded (R181, R323, R324)
      let atomic := fun (op : AtomOp) (dbl ntf : Bool) =>
        let s1 := s.drainWcb o.core fun e => e.isLine a.pkg a.win off
        let s2 := (s1.modCore o.core fun c => { c with l1 := (fabKeys a off).foldl FMap.erase c.l1 }).staleReads o.core fun r => r.overLine o.core a.pkg a.win off
        let b := if dbl then o.data2 0 L else (o.data 0 L).toNat
        let n := if dbl then o.data2 2 L else (o.data 2 L).toNat
        send s2 { plainAccess a 2 off (if dbl then 8 else 4) prot with
          atomOp := op, operand := BitVec.ofNat 64 b, newval := BitVec.ofNat 64 n, ntf := ntf }
      match o.instr with
      | .ldg _ z _ _ _ =>
        match s.fabricRead? o.core a (fabClass pa) off (Size.bytes z) with
        | some bs => s.modOp id fun o => o.finishLane L (loadWords z bs) 0
        | none =>
          match s.fabricReqs.find? fun r => r.2.op == some id && r.2.acc.kind == 0 && r.2.isLine o.core a.pkg a.win off with
          | some (rid, r) => { s with fabricReqs := FMap.set s.fabricReqs rid { r with lanes := FMap.set r.lanes L pa } }
          | none => send s (plainAccess a 0 (off / 192 * 192) 192 prot)
      | .stg _ z _ _ => (s.fabricStore o.core ctx a off (storeBytes o (Size.bytes z) L)).modOp id fun o => o.finishLane L [] 0
      | .atomg _ op dbl _ ntf _ _ _ _ => atomic op dbl ntf
      | .redg _ op dbl _ ntf _ _ => atomic op dbl ntf
      | .swake .. => send s (plainAccess a 4 off 4 prot)
      | _ => s.laneZero id L false

/-- A lane of a global access performed at a physical address (R176, R181, R279, R291). SWAKE of a word of fabric memory goes to its home as a
request of its own, and wakes the waiters there (DESIGN CHOICE, log 9). -/
def State.globalLane (s : State) (id L pa : Nat) : State :=
  match FMap.get? s.ops id with
  | none => s
  | some o =>
    let ctx := match s.anyWave? o.wave with | some w => w.ctx | none => 0
    match s.backing pa with
    | .none home =>
      (s.countUnbacked home (o.core / 48)).laneZero id L (match o.instr with | .ldg .. => true | _ => false)
    | .fabric _ _ => s.fabricLane id o ctx L pa
    | _ =>
      let who := ReqKind.op id (LaneMask.single L)
      let near := (match o.instr with | .ldg .. => true | .stg .. => true | .atomg _ _ _ sc .. => Scope.reach sc == 0 | .redg _ _ _ sc .. => Scope.reach sc == 0 | _ => false) &&
        s.coreHas o.core (pa / 48)
      -- a throttled row's request waits in the side queue of its bank (R404)
      if !near && s.missesHome pa && s.rowShut who pa && (match o.instr with | .swake .. => false | _ => true) then s.joinRow who pa
      else
      let at_ := fun (op : AtomOp) (dbl : Bool) (sc : Scope) (ntf : Bool) =>
        let w := if dbl then 64 else 32
        let b := if dbl then o.data2 0 L else (o.data 0 L).toNat
        let n := if dbl then o.data2 2 L else (o.data 2 L).toNat
        let (old, s1) := s.atomicAt o.core pa op w sc b n
        let s2 := s1.modOp id fun o => o.finishLane L (oldWords w old) 0
        if ntf then s2.wakeLine pa else s2
      match o.instr with
      | .ldg _ z na _ _ =>
        let (bs, s1) := s.coreRead o.core pa (Size.bytes z) na
        s1.modOp id fun o => o.finishLane L (loadWords z bs) 0
      | .stg _ z _ _ => (s.coreWrite o.core pa (storeBytes o (Size.bytes z) L)).modOp id fun o => o.finishLane L [] 0
      | .atomg _ op dbl sc ntf _ _ _ _ => at_ op dbl sc ntf
      | .redg _ op dbl sc ntf _ _ => at_ op dbl sc ntf
      | .swake .. => (s.wakeLine pa).laneZero id L false
      | _ => s.laneZero id L false

/-- A lane's write to a protected context's stage-1 table leaves it as it is (R382): an atomic still returns what stands there (log 114). -/
def State.offTables (s : State) (id L pa : Nat) : State :=
  s.modOp id fun o => o.finishLane L (match o.instr with
    | .stg .. => []
    | i => oldWords (8 * accessBytes i) (leNat (s.homeRead pa (accessBytes i)))) 0

/-- The virtual address a lane accesses: the private window is remapped for the thread's own loads, stores and atomics (R277). -/
def State.laneVa (s : State) (o : Op) (w : Wave) (L : Nat) : Option Nat :=
  match o.instr with
  | .swake .. => some (o.ea L)
  | _ =>
    if w.priv then some (o.ea L)
    else
      match s.anyWg? w.wg with
      | some wg => match s.node? wg.node with
        | some n => remap n wg (w.index * 32 + L) (o.ea L)
        | none => some (o.ea L)
      | none => some (o.ea L)

/-- The lanes of a global operation that can be performed are performed, in increasing lane order; those of a page that
misses are parked, one entry for the page; those whose thread has a parked request on the page park behind it
(R173, R174, R372 to R376). -/
def State.attemptGlobal (s : State) (id : Nat) : State :=
  match FMap.get? s.ops id with
  | none => s
  | some o =>
    match s.anyWave? o.wave with
    | none => s
    | some w =>
      let ready := o.todo &&& ~~~(s.opParked id) &&& ~~~(s.opFabric id)
      let swk := match o.instr with | .swake .. => true | _ => false
      if swk && s.parkedBefore o.wave ready id then s
      else
        let vas := (LaneMask.lanes ready).map fun L => (L, s.laneVa o w L)
        -- beyond `SPB` (R277)
        let s0 := vas.foldl (fun t p => match p.2 with
          | none => t.laneZero id p.1 (match o.instr with | .ldg .. => true | .atomg .. => true | _ => false)
          | some _ => t) s
        if w.priv then vas.foldl (fun t p => match p.2 with | some va => if t.laneBehind id p.1 then t else t.globalLane id p.1 (va % 2 ^ 52) | none => t) s0
        else
          match s.ctx? w.ctx with
          | none => s
          | some c =>
            let pages := dedup (vas.filterMap fun p => p.2.map fun va => (va / pageBytes, o.walkDie p.1))
            let onPage := fun (pg : Nat × Nat) => vas.filter fun p => p.2.map (· / pageBytes) == some pg.1 && o.walkDie p.1 == pg.2
            let vaOf := fun (L : Nat) => ((vas.find? fun p => p.1 == L).bind Prod.snd).getD 0
            let mask := fun (l : List (Nat × Option Nat)) => LaneMask.ofPred fun L => l.any fun p => p.1 == L
            -- lanes behind a parked request, then translation page by page
            let (s1, oks) := pages.foldl (fun (acc : State × List (Nat × Nat)) pg =>
              let ls := onPage pg
              let last := fun (p : Nat × Option Nat) => acc.1.lastBehind o.wave pg.1 (match o.instr with
                | .ldg .. => p.1 :: (ls.filter fun q => q.2 == p.2).map Prod.fst
                | _ => [p.1]) id
              let behind := ls.filter fun p => (last p).isSome
              let free := ls.filter fun p => !behind.contains p
              let t1 := acc.1.parkEach (behind.filterMap fun p => (last p).map fun e => (p.1, e)) vaOf (accOf o.instr) fun m => .op id m
              match free with
              | [] => (t1, acc.2)
              | (_, va) :: _ =>
                match translate t1 (some o.core) pg.2 c (va.getD 0) (accOf o.instr) with
                | (.ok _, t2) => (t2, acc.2 ++ free.map fun p => (p.1, p.2.getD 0))
                | (.error f, t2) =>
                  (t2.park pg.2 (.op id (mask free)) w.ctx c (va.getD 0) f (accOf o.instr) (some o.wave) w.gen, acc.2)) (s0, [])
            (LaneMask.lanes ready).foldl (fun t L => match oks.find? fun p => p.1 == L with
              | some p => if t.laneBehind id L then t else match translate t (some o.core) (o.walkDie L) c p.2 (accOf o.instr) with
                | (.ok pa, t1) => if (accOf o.instr).needsWr && t1.inTables pa then t1.offTables id L pa else t1.globalLane id L pa
                | (.error _, t1) => t1
              | none => t) s1

/-! ### Scratchpad and remote window -/

/-- The scratchpad size of a workgroup on a core (R287). -/
def State.sizeOn (s : State) (wgn core : Nat) : Nat := match s.wg? wgn with | some g => g.size (g.coreIdx core) | none => 0
/-- The scratchpad size that a wave's accesses are checked against (R173, R287). -/
def State.padSize (s : State) (x : Issue) : Nat := s.sizeOn x.w.wg (waveCore x.key)

/-- A scratchpad line; an absent line is FULL and zero (R269). -/
def Workgroup.line (g : Workgroup) (ci n : Nat) : Line := FMap.getD g.sp (ci * 2 ^ 20 + n) ⟨.full, List.replicate 128 0⟩
/-- A scratchpad line replaced. -/
def Workgroup.setLine (g : Workgroup) (ci n : Nat) (l : Line) : Workgroup := { g with sp := FMap.set g.sp (ci * 2 ^ 20 + n) l }
/-- The bytes of a scratchpad line as they read: a POISON line reads zero, whatever has been written to it (R177). -/
def Line.bytes (l : Line) : List Byte := if l.st = .poison then List.replicate 128 0 else l.data
/-- Bytes of one scratchpad line. -/
def Workgroup.spRead (g : Workgroup) (ci off n : Nat) : List Byte := ((g.line ci (off / 128)).bytes.drop (off % 128)).take n
/-- Bytes of one scratchpad line written, whatever its state; the state is unchanged (R177). -/
def Workgroup.spWrite (g : Workgroup) (ci off : Nat) (bs : List Byte) : Workgroup :=
  let l := g.line ci (off / 128)
  g.setLine ci (off / 128) { l with data := splice l.data (off % 128) bs }

/-- The core that a window address names: by the index among the cores of the workgroup's gang (R178). -/
def State.windowCore (s : State) (wgn ea : Nat) : Option Nat :=
  ((s.wg? wgn).bind fun wg => FMap.get? s.gangs wg.gang).bind fun g => g.cores[bits ea 24 4]?

/-- Where a window address leads: workgroup number and core index, and the offset (R173, R178, R264). -/
def State.window (s : State) (wgn ea : Nat) : Option (Nat × Nat × Nat) :=
  match (s.wg? wgn).bind fun wg => FMap.get? s.gangs wg.gang, s.windowCore wgn ea with
  | some g, some core =>
    match (s.gangWgs g).find? fun p => p.2.cores.contains core with
    | some p => some (p.1, p.2.coreIdx core, bits ea 0 21)
    | none => none
  | _, _ => none

/-- A write of a scratchpad line waits for those that read it (R202, R219, R302): for an engine command that issued before `id`, and for
a capture of A; of a capture, only the fill of a command that the workgroup issued on that core before it (`own`) does not wait. -/
def State.lineHeld (s : State) (id wgn ci line : Nat) (own : Bool) : Bool :=
  s.locks.any fun l => l.wg == wgn && l.core == ci && decide (l.lo ≤ line) && decide (line < l.hi) &&
    (if l.capture then !(own && decide (id < l.owner)) else decide (l.owner < id))

/-- A store, atomic or SPMARK waits for the readers of a line (R202, R219). -/
def State.lineLocked (s : State) (id wgn ci line : Nat) : Bool := s.lineHeld id wgn ci line false

/-- One lane of a scratchpad access, at a workgroup's scratchpad: performed, or left to wait on an EMPTY or locked line
(R177, R181, R202). -/
def State.padLane (s : State) (id L wgn ci off : Nat) (ticketOk : Bool) : State :=
  match FMap.get? s.ops id with
  | none => s
  | some o =>
    match s.wg? wgn with
    | none => s.laneZero id L false
    | some g =>
      let st := (g.line ci (off / 128)).st
      let load := fun (z : Size) =>
        if !ticketOk then s.laneZero id L true
        else
          match st with
          | .empty => s
          | .poison => s.laneZero id L true
          | .full => s.modOp id fun o => o.finishLane L (loadWords z (g.spRead ci off (Size.bytes z))) 0
      let store := fun (z : Size) =>
        if !ticketOk then s.laneZero id L false
        else if s.lineLocked id wgn ci (off / 128) then s
        else (s.modWg wgn fun g => g.spWrite ci off (storeBytes o (Size.bytes z) L)).modOp id fun o => o.finishLane L [] 0
      match o.instr with
      | .lds _ z _ _ => load z
      | .ldr _ z _ _ => load z
      | .sts _ z _ _ => store z
      | .str _ z _ _ => store z
      | .atoms _ op dbl _ _ _ _ =>
        let w := if dbl then 64 else 32
        if s.lineLocked id wgn ci (off / 128) then s
        else
          match st with
          | .empty => s
          | .poison => s.laneZero id L true
          | .full =>
            let old := leNat (g.spRead ci off (w / 8))
            let b := if dbl then o.data2 0 L else (o.data 0 L).toNat
            let n := if dbl then o.data2 2 L else (o.data 2 L).toNat
            (s.modWg wgn fun g => g.spWrite ci off (leBytes (w / 8) (atomNew op w old b n))).modOp id fun o =>
              o.finishLane L (oldWords w old) 0
      | .sptest .. => s.modOp id fun o => o.finishLane L [match st with | .empty => 0 | .full => 1 | .poison => 2] 0
      | _ => s

/-- SPMARK performed on its lines, unless one of them is locked (R186, R219). -/
def State.attemptMark (s : State) (id : Nat) (o : Op) (st : LineState) : State :=
  match s.wg? o.wg with
  | none => s.modOp id fun o => { o with todo := 0, done := true }
  | some g =>
    let ci := g.coreIdx o.core
    let off := o.ea ((LaneMask.lanes o.lanes).headD 0)
    let ls := (List.range o.aux).map (off / 128 + ·)
    if ls.any fun n => s.lineLocked id o.wg ci n then s
    else
      let mark := fun (g : Workgroup) (n : Nat) =>
        let l := g.line ci n
        g.setLine ci n ⟨st, if st = .poison then List.replicate 128 0 else l.data⟩
      (s.modWg o.wg fun g => ls.foldl mark g).modOp id fun o => { o with todo := 0, done := true }

/-- The lanes of a scratchpad operation, in increasing order (R176, R292). The accumulator and reduction instructions are performed
by their own completion. -/
def State.attemptPad (s : State) (id : Nat) : State :=
  match FMap.get? s.ops id with
  | none => s
  | some o =>
    match o.instr with
    | .spmark _ st _ _ => s.attemptMark id o st
    | .accld .. => s | .accst .. => s | .accz .. => s | .acccp .. => s | .acccv .. => s
    | .mred .. => s | .mrsc .. => s
    | _ =>
      match s.wg? o.wg with
      | none => (LaneMask.lanes o.todo).foldl (fun t L => t.laneZero id L false) s
      | some g => (LaneMask.lanes o.todo).foldl (fun t L => t.padLane id L o.wg (g.coreIdx o.core) (o.ea L) true) s

/-- The lanes of a remote-window operation (R178, R289), with the ticket check of a protected gang (R410): the ticket that the operation carries
against the target workgroup's, which is 0 once that one is gone (R411). -/
def State.attemptRemote (s : State) (id : Nat) : State :=
  match FMap.get? s.ops id with
  | none => s
  | some o =>
    let isLoad := match o.instr with | .ldr .. => true | _ => false
    (LaneMask.lanes o.todo).foldl (fun t L =>
      match t.window o.wg (o.ea L) with
      | none => if o.ticket = 0 then t.laneZero id L false else (t.count 0x06 (o.core / 48)).laneZero id L isLoad
      | some (wgn, ci, off) =>
        if o.ticket = t.ticketOf wgn then t.padLane id L wgn ci off true
        else (t.count 0x06 (o.core / 48)).padLane id L wgn ci off false) s

/-! ### The order of a wave's operations -/

/-- An older phase or maintenance operation of the wave is not complete (R182, R183). -/
def State.phasePending (s : State) (key id : Nat) : Bool :=
  s.ops.any fun p => decide (p.1 < id) && p.2.wave == key && memClass p.2.instr == .order

/-- An older operation of the wave and class is not performed (R292). -/
def State.olderPending (s : State) (key id : Nat) (cls : MemClass) : Bool :=
  s.ops.any fun p => decide (p.1 < id) && p.2.wave == key && memClass p.2.instr == cls && !p.2.done

/-- A lane of a window access names the workgroup's own scratchpad on the issuing core: it has the effect of a scratchpad access
(R289). -/
def State.ownWindow (s : State) (o : Op) (lanes : LaneMask) : Bool :=
  (LaneMask.lanes lanes).any fun L => s.windowCore o.wg (o.ea L) == some o.core &&
    (match s.window o.wg (o.ea L) with | some (n, _, _) => n == o.wg | none => false)

/-- An older window access of the wave to its own scratchpad is not performed: the wave's younger scratchpad accesses wait for it
(R174, R178, R292). -/
def State.olderOwn (s : State) (key id : Nat) : Bool :=
  s.ops.any fun p => decide (p.1 < id) && p.2.wave == key && memClass p.2.instr == .remote && !p.2.done && s.ownWindow p.2 p.2.todo

/-- A CPYH that the core issued earlier, to a target core that a remote access reaches, is not complete: the target serves
them in issue order (R289). -/
def State.olderCpyh (s : State) (id : Nat) (o : Op) : Bool :=
  s.cmds.any fun p => decide (p.1 < id) && waveCore p.2.wave == o.core &&
    (match p.2.instr with
     | .cpyh .. => (LaneMask.lanes o.todo).any fun L => s.windowCore o.wg (o.ea L) == s.windowCore p.2.wg (p.2.args.getD 1 0).toNat
     | _ => false)

/-- An older remote access of the core to a target core that this one reaches is not performed (R289). -/
def State.olderRemote (s : State) (id : Nat) (o : Op) : Bool :=
  s.ops.any fun p => decide (p.1 < id) && p.2.core == o.core && memClass p.2.instr == .remote && !p.2.done &&
    (LaneMask.lanes o.todo).any fun L => (LaneMask.lanes p.2.todo).any fun K => s.windowCore o.wg (o.ea L) == s.windowCore p.2.wg (p.2.ea K)

/-- Operations of a wave that are older than `id`, that `p` selects, with lanes of a mask neither performed nor parked (R182, R293,
R299). -/
def State.olderOps (s : State) (key id : Nat) (lanes : LaneMask) (p : Instr → Bool) : Bool :=
  s.ops.any fun q => decide (q.1 < id) && q.2.wave == key && !q.2.done && p q.2.instr && q.2.todo &&& lanes &&& ~~~s.opParked q.1 != 0

/-! ### Barriers that wait for older operations (R109, R182) -/

/-- A barrier instruction may be performed (R109, R182, R299, R323): no older phase is pending, and for an arrival, every write of the threads
that arrive has been performed. -/
def State.barReady (s : State) (key id : Nat) (lanes : LaneMask) (sc : Scope) (arrive : Bool) : Bool :=
  !s.phasePending key id && (!arrive || (!s.parkedBefore key lanes id && !s.olderOps key id lanes writesMem &&
    (sc == .core || ((s.core (waveCore key)).wcb.isEmpty && !s.fabricBusy (waveCore key)))))

/-- A barrier instruction: whether it arrives and whether it waits. -/
def barParts : Instr → Option (Bool × Bool)
  | .bar .. => some (true, true) | .bara .. => some (true, false) | .barw .. => some (false, true)
  | _ => none

/-- The lanes of a mask that have an arrival pending at a level, or one under way there that is not performed yet (R109, R121). -/
def State.secondArrivals (s : State) (key level : Nat) (lanes : LaneMask) : LaneMask :=
  lanes &&& LaneMask.ofPred fun L =>
    (match s.wave? key with | some w => (FMap.get? w.pend (L * 8 + level)).isSome | none => false) ||
    s.ops.any fun p => p.2.wave == key && p.2.aux == level && p.2.todo.has L && (match barParts p.2.instr with | some (arrive, _) => arrive | none => false)

/-- A barrier instruction that issued behind what it has to wait for is performed once it may be (R109, R182). A thread for which it is a second
arrival has raised `BOV` at the issue, is not among the lanes to do, and does not arrive (R121). -/
def State.attemptBar (s : State) (id : Nat) (o : Op) : State :=
  match barParts o.instr, s.wave? o.wave, s.wg? o.wg with
  | some (arrive, wait), some w, some g =>
    match s.kernelOf g with
    | none => s
    | some k =>
      let sc := barScope k g w.index o.lanes o.aux
      if s.barReady o.wave id o.lanes sc arrive then
        let t : State := { s with ops := FMap.erase s.ops id }
        let t1 := if arrive then t.arriveBar o.wave o.todo o.wg g k o.aux sc o.ticket else t
        (if wait then t1.waitBar o.wave o.lanes o.aux sc else t1).noteSwappable o.wg
      else if arrive && sc != .core then s.drainWcb o.core fun _ => true
      else s
  | _, _, _ => s

/-! ### Prefetches (R184) -/

/-- A lane's prefetch: the sector at a physical address is read into the level. Of fabric memory, whose lines only the L1 caches
(R283), the line is asked for; at L2 there is nothing to do. -/
def State.prefetch (s : State) (core ctx : Nat) (l2 : Bool) (pa : Nat) : State :=
  match s.backing pa with
  -- one that would wait for a throttled row is dropped (R184; log 94)
  | .dev _ => if !s.coreHas core (pa / 48) && s.missesHome pa && s.rowShut (.fetch freedKey 0 0) pa then s else (s.coreSector core (pa / 48) l2).2
  | .host _ _ => (s.coreSector core (pa / 48) l2).2
  | .fabric _ off =>
    match if l2 then none else s.aperture? ctx pa with
    | some a =>
      if (FMap.get? (s.core core).l1 (fabKey a (fabClass pa) off)).isSome then s
      else s.fabricSend (plainReq (plainAccess a 0 (off / 192 * 192) 192 (s.ctxProt ctx)) a.pkg core ctx pa)
    | none => s
  | .none _ => s

/-- The lanes of a PREF (R184): a miss drops the lane's request. -/
def State.attemptPref (s : State) (id : Nat) : State :=
  match FMap.get? s.ops id with
  | none => s
  | some o =>
    match o.instr, s.anyWave? o.wave with
    | .pref _ l2 _, some w =>
      ((LaneMask.lanes o.todo).foldl (fun t L =>
        match t.laneVa o w L with
        | none => t
        | some va =>
          if w.priv then t.prefetch o.core w.ctx l2 (va % 2 ^ 52)
          else
            match t.ctx? w.ctx with
            | none => t
            | some c => match translate t (some o.core) (o.core / 48) c va .load with
              | (.ok pa, u) => u.prefetch o.core w.ctx l2 pa
              | (.error _, _) => t) s).modOp id fun o => { o with todo := 0, done := true }
    | _, _ => s

/-- An operation without a register result ends when it has been performed; its flag, if it still keeps one, clears. -/
def State.reap (s : State) (id : Nat) : State :=
  match FMap.get? s.ops id with
  | none => s
  | some o =>
    if o.done && !returns o.instr then
      let s1 := { s with ops := FMap.erase s.ops id }
      match o.flag with
      | some f => s1.ownerMod o.wave o.gen fun w => w.dropFlag f
      | none => s1
    else s

/-- A lane's word is reached by an older access of its thread that is neither performed nor parked nor sent: its check waits for that (R111, R294). -/
def State.waitBehind (s : State) (key id L va n : Nat) : Bool :=
  s.ops.any fun q => decide (q.1 < id) && q.2.wave == key && memClass q.2.instr == .global &&
    (q.2.todo &&& ~~~s.opParked q.1 &&& ~~~s.opFabric q.1).has L && meets (q.2.ea L) (accessBytes q.2.instr) va n

/-- The word that a lane of SWAIT names is checked (R111): translated, parked on a miss, parked behind an older request. `on` is the die whose cellar
held the check, at its replay (R380, R385). -/
def State.startWaits (s : State) (key : Nat) (lanes : List Nat) (dbl : Bool) (cmp : SwCmp) (va : Nat → Nat) (cmpd : Nat → BitVec 64)
    (on : Option Nat := none) : State :=
  match s.wave? key with
  | none => s
  | some w =>
    let die := on.getD (waveDie key)
    if w.priv then lanes.foldl (fun t L => t.swaitCheck key L (va L % 2 ^ 52) dbl cmp (cmpd L)) s
    else
      match s.ctx? w.ctx with
      | none => s
      | some c =>
        (dedup (lanes.map fun L => va L / pageBytes)).foldl (fun t pg =>
          let here := lanes.filter fun L => va L / pageBytes == pg
          let last := fun L => t.lastOn key pg (LaneMask.single L) t.nextId
          let behind := here.filter fun L => (last L).isSome
          let free := here.filter fun L => !behind.contains L
          let mask := fun (l : List Nat) => LaneMask.ofPred l.contains
          let t1 := t.parkEach (behind.filterMap fun L => (last L).map fun e => (L, e)) va .load fun m => .swait key m
          match free with
          | [] => t1
          | L0 :: _ =>
            match translate t1 (some (waveCore key)) die c (va L0) .load with
            | (.ok pa, t2) => free.foldl (fun u L => u.swaitCheck key L (pa - va L0 % pageBytes + va L % pageBytes) dbl cmp (cmpd L)) t2
            | (.error f, t2) => t2.park die (.swait key (mask free)) w.ctx c (va L0) f .load (some key) w.gen) s

/-- Lanes blocked in SWAIT check their words anew (R111): lanes that blocked at one instruction together, so that a page that misses takes one
entry for the instruction (R375). -/
def State.restartWaits (s : State) (key : Nat) (lanes : List Nat) (on : Option Nat := none) : State :=
  match s.wave? key with
  | none => s
  | some w =>
    let word := fun L => match FMap.get? w.waits L with | some (.word va dbl cmp c) => some (va, dbl, cmp, c) | _ => none
    let sig := fun L => (word L).map fun x => (w.pcOf L, x.2.1, x.2.2.1)
    let ls := lanes.filter fun L => (word L).isSome
    (ls.filter fun L => (ls.find? fun K => sig K == sig L) == some L).foldl (fun t L0 =>
      match word L0 with
      | some (_, dbl, cmp, _) =>
        t.startWaits key (ls.filter fun L => sig L == sig L0) dbl cmp (fun L => ((word L).map fun x => x.1).getD 0) (fun L => ((word L).map fun x => x.2.2.2).getD 0) on
      | none => t) s

/-- A SWAIT that issued behind a phase, or behind an access that reaches its word, is not performed yet for a lane of a wave (R182, R294). -/
def State.swaitPending (s : State) (key L : Nat) : Bool :=
  s.ops.any fun p => p.2.wave == key && p.2.lanes.has L && (match p.2.instr with | .swait .. => true | _ => false)

/-- An operation performed as far as it can be, by itself (R174, R182, R292). -/
def State.attemptOne (s : State) (id : Nat) : State :=
  match FMap.get? s.ops id with
  | none => s
  | some o =>
    if o.done then s.reap id
    else if s.phasePending o.wave id then s
    else
      match memClass o.instr with
      | .global => (s.attemptGlobal id).reap id
      | .pad => if s.olderPending o.wave id .pad || s.olderOwn o.wave id then s else (s.attemptPad id).reap id
      | .remote =>
        if s.olderRemote id o || s.olderCpyh id o || (s.ownWindow o o.todo && s.olderPending o.wave id .pad) then s
        else (s.attemptRemote id).reap id
      | .pref => (s.attemptPref id).reap id
      | .order => s.attemptBar id o
      | _ => match o.instr with
        | .swait .. =>
          let held := match s.wave? o.wave with
            | some w => (LaneMask.lanes o.lanes).any fun L => match FMap.get? w.waits L with
              | some (.word va dbl _ _) => s.waitBehind o.wave id L va (if dbl then 8 else 4)
              | _ => false
            | none => false
          if held then s else (({ s with ops := FMap.erase s.ops id } : State).restartWaits o.wave (LaneMask.lanes o.lanes)).noteSwappable o.wg
        | _ => s

/-- Scratchpad accesses that may wait on an EMPTY line (R177, R181). -/
def padLoad : Instr → Bool
  | .lds .. => true | .ldr .. => true | .atoms .. => true
  | _ => false

/-- The loads of a gang that wait on lines of a workgroup's scratchpad are looked at again, in their order: those whose line is no longer EMPTY are
released at once (R186, R301). -/
def State.releaseLoads (s : State) (wgn : Nat) : State :=
  let gang := fun (n : Nat) => (s.wg? n).map Workgroup.gang
  (s.ops.filter fun p => padLoad p.2.instr && !p.2.done && gang p.2.wg == gang wgn).foldl (fun t p => t.attemptOne p.1) s

/-- An operation performed as far as it can be (R174, R182, R292); an SPMARK that is performed releases the loads that waited on its lines, of
whatever wave (R186). -/
def State.attempt (s : State) (id : Nat) : State :=
  let t := s.attemptOne id
  match FMap.get? s.ops id with
  | some o => match o.instr with
    | .spmark .. => if (FMap.get? t.ops id).isNone then t.releaseLoads o.wg else t
    | _ => t
  | none => t

/-- The operations of a wave up to `upto` performed in issue order; remote accesses of the whole core in theirs (R289). -/
def State.pump (s : State) (key upto : Nat) : State :=
  let core := waveCore key
  (s.ops.filter fun p => decide (p.1 ≤ upto) && (p.2.wave == key || (p.2.core == core && memClass p.2.instr == .remote))).foldl
    (fun t p => t.attempt p.1) s

/-- Every operation of a wave performed as far as it can be. -/
def State.pumpAll (s : State) (key : Nat) : State := s.pump key s.nextId

/-- The waves that may wait on a workgroup's scratchpad, its gang's among them, go on as far as they can. -/
def State.pumpGang (s : State) (wgn : Nat) : State :=
  match s.wg? wgn with
  | none => s
  | some g =>
    let wgs := match FMap.get? s.gangs g.gang with | some x => s.gangWgs x | none => [(wgn, g)]
    wgs.foldl (fun t p => p.2.waves.foldl (fun u k => u.pumpAll k) t) s

/-! ### The return of results (R40, R41, R49, R60) -/

/-- A wave after the result of an operation has returned: its holds have their results, its status waits for acceptance,
or with no destination reaches `WSTAT` at once (log 7), and its flag is released. -/
def Wave.landed (w : Wave) (id : Nat) (o : Op) : Wave :=
  let first := (w.holds.find? fun h => h.op == id).map Hold.reg
  let put := fun (h : Hold) =>
    if h.op = id then
      { h with result := some (o.vals.getD ((o.dsts.findIdx? (· == h.reg)).getD 0) Row.zero),
               raised := if some h.reg = first then h.raised ||| o.raised else h.raised }
    else h
  let w1 := { w with holds := w.holds.map put }
  let w2 := if first.isNone then w1.raise o.raised else w1
  match o.flag with | some f => w2.dropFlag f | none => w2

/-- The result of an operation that has been performed returns (R41, R49, R383): to the wave, or to the frame of a saved
one; with another generation it is dropped and counted. -/
def State.returnOp (s : State) (id : Nat) : State :=
  match FMap.get? s.ops id with
  | none => s
  | some o =>
    if !o.done then s
    else
      let s1 := { s with ops := FMap.erase s.ops id }
      match s.wave? o.wave with
      | some w =>
        if w.gen = o.gen then s1.setWave o.wave (w.landed id o)
        else s1.modCore o.core fun c => { c with gendrop := min (2 ^ 32 - 1) (c.gendrop + 1) }
      | none =>
        match s.frames.find? fun p => (p.2.wave? o.wave).isSome with
        | some p => { s1 with frames := FMap.set s1.frames p.1 (p.2.modWave o.wave fun w => w.landed id o) }
        | none => s1.modCore o.core fun c => { c with gendrop := min (2 ^ 32 - 1) (c.gendrop + 1) }

end Sys2Proof.Machine
end

