-- ==== Sys2Proof/Machine/Check.lean ====
section
/-! DEFINITION. The check of a clause before it starts (spec/02, R35, R36, R45, R51; pipes and latencies of R87). -/

namespace Sys2Proof.Machine

/-- What the clause check reads of an instruction. -/
structure Facts where
  /-- its pipe as a bit of `PIPES`: 4 ALU, 2 MEM, 1 ENG, 0 none (R87) -/
  pipe : BitVec 3
  pd : BitVec 3
  al : BitVec 2
  cf : BitVec 4
  /-- control-terminal (R35) -/
  last : Bool
  /-- a register result of variable latency: its destination is the first register field (R36, R87) -/
  var : Bool
  /-- privileged (R87) -/
  priv : Bool
  /-- a core kind without matrix array lacks it (R16) -/
  matrix : Bool
  /-- register fields, each with the size of its group (R45) -/
  regs : List (Reg × Nat)
  /-- convergence register named (R112) -/
  cv : Option Nat

/-- The common fields of a predicated form. -/
def facts (pipe : BitVec 3) (c : Ctl) (rs : List (Reg × Nat)) : Facts :=
  { pipe := pipe, pd := c.pd, al := c.al, cf := c.cf, last := false, var := false, priv := false, matrix := false,
    regs := rs ++ [(c.pr, 1)], cv := none }
/-- An ALU instruction of fixed latency, or without a register result. -/
def fAlu (c : Ctl) (rs : List (Reg × Nat)) : Facts := facts 4 c rs
/-- A MEM instruction without a register result. -/
def fMem (c : Ctl) (rs : List (Reg × Nat)) : Facts := facts 2 c rs
/-- An ENG instruction without a register result. -/
def fEng (c : Ctl) (rs : List (Reg × Nat)) : Facts := facts 1 c rs
/-- A result of variable latency. -/
def Facts.variable (f : Facts) : Facts := { f with var := true }
/-- Control-terminal. -/
def Facts.terminal (f : Facts) : Facts := { f with last := true }
/-- Privileged. -/
def Facts.privileged (f : Facts) : Facts := { f with priv := true }
/-- Absent from a stream core. -/
def Facts.matrixOnly (f : Facts) : Facts := { f with matrix := true }
/-- Names a convergence register. -/
def Facts.naming (f : Facts) (cv : BitVec 4) : Facts := { f with cv := some cv.toNat }

/-- One register each. -/
def one (rs : List Reg) : List (Reg × Nat) := rs.map fun r => (r, 1)
/-- Source B, if it is a register. -/
def regB (b : SrcB) (n : Nat := 1) : List (Reg × Nat) := match b with | .reg r => [(r, n)] | .imm _ => []
/-- The register of a selector operand. -/
def regSel (b : SrcSel) : List (Reg × Nat) := match b with | .reg r => [(r, 1)] | .imm _ => []
/-- A destination, source A and source B. -/
def dab (d a : Reg) (b : SrcB) : List (Reg × Nat) := [(d, 1), (a, 1)] ++ regB b
/-- The registers of a memory operand: base of `n` registers, index. -/
def memRegs (m : MemRef) (n : Nat) : List (Reg × Nat) := [(m.a, n), (m.b, 1)]
/-- The register of a barrier operand. -/
def barRegs (b : BarSel) : List (Reg × Nat) := match b with | .reg a => [(a, 1)] | _ => []

/-- The facts of each instruction (R35, R45, R87); an event has none. -/
def Instr.facts? : Instr → Option Facts
  | .nop c => some (facts 0 c [])
  | .bra c _ _ => some (fAlu c []).terminal
  | .jmp c _ => some (fAlu (CtlL.full c) []).terminal
  | .jmpi c a => some (fAlu c [(a, 2)]).terminal
  | .call c d _ => some (fAlu (CtlL.full c) [(d, 2)]).terminal
  | .calli c d a => some (fAlu c [(d, 2), (a, 2)]).terminal
  | .ret c a => some (fAlu c [(a, 2)]).terminal
  | .exit c => some (fAlu c []).terminal
  | .waitf c _ => some (fAlu c [])
  | .yieldI c => some (fAlu c []).terminal
  | .bar c b => some (fMem c (barRegs b)).terminal
  | .bara c b => some (fMem c (barRegs b))
  | .barw c b => some (fMem c (barRegs b)).terminal
  | .swait c _ dbl d m => some (fMem c ((d, dblRegs dbl) :: memRegs m 2)).terminal
  | .swake c m => some (fMem c (memRegs m 2))
  | .cvset c cv a => some ((fEng c [(a, 1)]).naming cv).matrixOnly
  | .cvsign c cv => some ((fEng c []).naming cv).matrixOnly
  | .getid c w d s => some (fAlu c ((d, dblRegs w) :: regSel s))
  | .getenv c w d s => some (fAlu c ((d, dblRegs w) :: regSel s))
  | .claim c d => some (fEng c [(d, 8)]).variable
  | .tret c _ a => some (fEng c [(a, 1)])
  | .schrd c _ d _ => some (fEng c [(d, 1)]).variable
  | .schwr c _ a => some (fEng c [(a, 1)])
  | .schcm c d => some (fEng c [(d, 1)]).variable
  | .spawn c d a b => some (fEng c [(d, 1), (a, 2), (b, 1)]).variable
  | .brk c _ => some (fAlu c [])
  | .trap c _ => some (fAlu c [])
  | .errrd c d s => some (fAlu c ((d, 1) :: regSel s)).variable
  | .iadd c _ d a b => some (fAlu c (dab d a b))
  | .isub c _ d a b => some (fAlu c (dab d a b))
  | .isum c _ d a b r => some (fAlu c (dab d a b ++ [(r, 1)]))
  | .iadds c _ _ d a b => some (fAlu c (dab d a b))
  | .imul c _ d a b => some (fAlu c (dab d a b))
  | .imulh c _ d a b => some (fAlu c (dab d a b))
  | .imad c _ d a b r => some (fAlu c (dab d a b ++ [(r, 1)]))
  | .imadw c _ d a b r => some (fAlu c ([(d, 2), (a, 1)] ++ regB b ++ [(r, 2)]))
  | .iadd64 c x d a b => some (fAlu c ([(d, 2), (a, 2)] ++ regB b (if x = .pair then 2 else 1)))
  | .isub64 c x d a b => some (fAlu c ([(d, 2), (a, 2)] ++ regB b (if x = .pair then 2 else 1)))
  | .imin c _ d a b => some (fAlu c (dab d a b))
  | .imax c _ d a b => some (fAlu c (dab d a b))
  | .iabs c _ _ d a => some (fAlu c (one [d, a]))
  | .ineg c _ _ d a => some (fAlu c (one [d, a]))
  | .idiv c _ d a b => some (fAlu c (dab d a b)).variable
  | .irem c _ d a b => some (fAlu c (dab d a b)).variable
  | .and c d a b => some (fAlu c (dab d a b))
  | .or c d a b => some (fAlu c (dab d a b))
  | .xor c d a b => some (fAlu c (dab d a b))
  | .andn c d a b => some (fAlu c (dab d a b))
  | .blut c _ d a b r => some (fAlu c (one [d, a, b, r]))
  | .shl c d a b => some (fAlu c (dab d a b))
  | .shr c d a b => some (fAlu c (dab d a b))
  | .sar c d a b => some (fAlu c (dab d a b))
  | .rot c _ d a b => some (fAlu c (dab d a b))
  | .fshf c _ d a b r => some (fAlu c (dab d a b ++ [(r, 1)]))
  | .bfx c _ d a b => some (fAlu c (dab d a b))
  | .bfi c d a b r => some (fAlu c (dab d a b ++ [(r, 1)]))
  | .popc c d a => some (fAlu c (one [d, a]))
  | .clz c d a => some (fAlu c (one [d, a]))
  | .ctz c d a => some (fAlu c (one [d, a]))
  | .brev c d a => some (fAlu c (one [d, a]))
  | .icmp c _ _ _ _ d a b => some (fAlu c (dab d a b))
  | .sel c _ d a b r => some (fAlu c (dab d a b ++ [(r, 1)]))
  | .lea c _ _ _ d a b => some (fAlu c ([(d, 2), (a, 2)] ++ regB b))
  | .mov c d s => some (fAlu c (match s with | .reg a => one [d, a] | .pair a => [(d, 2), (a, 2)] | .imm _ => [(d, 1)]))
  | .movi c d _ => some (fAlu (CtlL.full c) [(d, 1)])
  | .pset c _ _ _ d a b => some (fAlu c (dab d a b))
  | .bmsk c d a b => some (fAlu c (dab d a b))
  | .fadd c _ d a b => some (fAlu c (dab d a b))
  | .fsub c _ d a b => some (fAlu c (dab d a b))
  | .fmul c _ d a b => some (fAlu c (dab d a b))
  | .ffma c _ d a b r => some (fAlu c (dab d a b ++ [(r, 1)]))
  | .fmin c d a b => some (fAlu c (dab d a b))
  | .fmax c d a b => some (fAlu c (dab d a b))
  | .fcmp c _ _ _ d a b => some (fAlu c (dab d a b))
  | .fclass c _ _ d a b => some (fAlu c (dab d a b))
  | .frnd c _ d a b => some (fAlu c (dab d a b))
  | .fscalb c _ d a b => some (fAlu c (dab d a b))
  | .fclamp c d a b r => some (fAlu c (dab d a b ++ [(r, 1)]))
  | .frcp c _ d a => some (fAlu c (one [d, a])).variable
  | .frsq c _ d a => some (fAlu c (one [d, a])).variable
  | .fsqrt c _ d a => some (fAlu c (one [d, a])).variable
  | .fdiv c _ d a b => some (fAlu c (one [d, a, b])).variable
  | .fex2 c d a => some (fAlu c (one [d, a])).variable
  | .flg2 c d a => some (fAlu c (one [d, a])).variable
  | .fsin c d a => some (fAlu c (one [d, a])).variable
  | .fcos c d a => some (fAlu c (one [d, a])).variable
  | .ftanh c d a => some (fAlu c (one [d, a])).variable
  | .fsigm c d a => some (fAlu c (one [d, a])).variable
  | .hadd2 c _ _ d a b => some (fAlu c (one [d, a, b]))
  | .hmul2 c _ _ d a b => some (fAlu c (one [d, a, b]))
  | .hfma2 c _ _ d a b r => some (fAlu c (one [d, a, b, r]))
  | .hmnmx2 c _ _ d a b => some (fAlu c (one [d, a, b]))
  | .hcmp2 c _ _ _ _ d a b => some (fAlu c (one [d, a, b]))
  | .dadd c _ d a b => some (fAlu c [(d, 2), (a, 2), (b, 2)])
  | .dmul c _ d a b => some (fAlu c [(d, 2), (a, 2), (b, 2)])
  | .dfma c _ d a b r => some (fAlu c [(d, 2), (a, 2), (b, 2), (r, 2)])
  | .dmnmx c _ d a b => some (fAlu c [(d, 2), (a, 2), (b, 2)])
  | .dcmp c _ _ _ d a b => some (fAlu c [(d, 1), (a, 2), (b, 2)])
  | .drnd c _ d a => some (fAlu c [(d, 2), (a, 2)])
  | .fcvt c dst src _ _ _ _ d a => some (fAlu c [(d, dst.regs), (a, src.regs)])
  | .f2i c it ft _ _ d a => some (fAlu c [(d, it.regs), (a, ft.regs)])
  | .i2f c ft it _ _ _ d a => some (fAlu c [(d, ft.regs), (a, it.regs)])
  | .dot2 c _ _ d a b r => some (fAlu c (one [d, a, b, r]))
  | .dot4 c _ _ _ d a b r => some (fAlu c (one [d, a, b, r]))
  | .shfl c _ _ d a b => some (fAlu c (dab d a b))
  | .vote c _ _ d a => some (fAlu c (one [d, a]))
  | .bcast c _ d a b => some (fAlu c (dab d a b))
  | .lred c _ _ _ d a => some (fAlu c (one [d, a]))
  | .lscan c _ _ _ _ d a => some (fAlu c (one [d, a]))
  | .matchL c dbl d a => some (fAlu c [(d, 1), (a, dblRegs dbl)])
  | .actm c d => some (fAlu c [(d, 1)])
  | .ldg c z _ d m => some (fMem c ((d, z.regs) :: memRegs m 2)).variable
  | .stg c z d m => some (fMem c ((d, z.regs) :: memRegs m 2))
  | .lds c z d m => some (fMem c ((d, z.regs) :: memRegs m 1)).variable
  | .sts c z d m => some (fMem c ((d, z.regs) :: memRegs m 1))
  | .ldr c z d m => some (fMem c ((d, z.regs) :: memRegs m 1)).variable
  | .str c z d m => some (fMem c ((d, z.regs) :: memRegs m 1))
  | .atomg c op dbl _ _ d a b n => some (fMem c ([(d, dblRegs dbl), (a, 2), (b, dblRegs dbl)] ++ if op = .cas then [(n, dblRegs dbl)] else [])).variable
  | .redg c _ dbl _ _ a b => some (fMem c [(a, 2), (b, dblRegs dbl)])
  | .atoms c op dbl d a b n => some (fMem c ([(d, dblRegs dbl), (a, 1), (b, dblRegs dbl)] ++ if op = .cas then [(n, dblRegs dbl)] else [])).variable
  | .phase c _ _ => some (fMem c [])
  | .cmaint c _ _ a b => some (fMem c [(a, 2), (b, 1)])
  | .pref c _ m => some (fMem c (memRegs m 2))
  | .waycfg c d b => some (fMem c ((d, 1) :: regB b)).variable
  | .spmark c _ a b => some (fMem c ((a, 1) :: regB b))
  | .sptest c d b => some (fMem c ((d, 1) :: regB b)).variable
  | .accld c a b r => some (fMem c (one [a, b, r])).matrixOnly
  | .accst c a b r => some (fMem c (one [a, b, r])).matrixOnly
  | .accz c a => some (fMem c (one [a])).matrixOnly
  | .acccp c a b => some (fMem c (one [a, b])).matrixOnly
  | .acccv c _ _ _ a b r => some (fMem c (one [a, b, r])).matrixOnly
  | .mmaf c cv a b => some ((fEng c [(a, 4), (b, 1)]).naming cv).matrixOnly
  | .mmab c cv a b => some ((fEng c [(a, 4), (b, 1)]).naming cv).matrixOnly
  | .mmah c cv a b => some ((fEng c [(a, 4), (b, 1)]).naming cv).matrixOnly
  | .mmae4 c sc cv _ _ a b r d => some ((fEng c ((if sc then [(d, 1)] else []) ++ [(a, 4), (b, 1)] ++ if sc then [(r, 1)] else [])).naming cv).matrixOnly
  | .mmae5 c sc cv _ _ a b r d => some ((fEng c ((if sc then [(d, 1)] else []) ++ [(a, 4), (b, 1)] ++ if sc then [(r, 1)] else [])).naming cv).matrixOnly
  | .mman c _ _ cv _ _ a b r d => some ((fEng c [(d, 1), (a, 4), (b, 1), (r, 1)]).naming cv).matrixOnly
  | .merr c d => some (fEng c [(d, 2)]).variable.matrixOnly
  | .plpack c _ d a => some (fEng c [(d, 1), (a, 8)]).variable
  | .plunpk c _ _ d a _ _ => some (fEng c (one [d, a])).variable
  | .bscale c _ d a => some (fEng c (one [d, a])).variable
  | .sccv c _ _ _ _ _ d a b => some (fEng c (one [d, a, b])).variable
  | .mred c _ _ d a b r => some (fEng c (one [d, a, b, r])).variable.matrixOnly
  | .mrsc c _ a b r => some (fEng c (one [a, b, r])).matrixOnly
  | .qpush c _ a => some (fEng c [(a, 1)])
  | .qpop c d _ => some (fEng c [(d, 4)]).variable
  | .qtry c d _ => some (fEng c [(d, 4)]).variable
  | .qlvl c d _ => some (fEng c [(d, 1)]).variable
  | .cpyt c st a b r d => some (fEng c ((if st then [(d, 1)] else []) ++ [(a, 1), (b, 5), (r, 1)]))
  | .cpyl c dir a b r d =>
    some (fEng c ((if dir = .sg ∨ dir = .gg then [(d, 1)] else []) ++
      [(a, if dir = .gs ∨ dir = .gg then 2 else 1), (b, if dir = .sg ∨ dir = .gg then 2 else 1), (r, 1)]))
  | .cpyh c _ a b r => some (fEng c (one [a, b, r]))
  | .gath c l2 a b => some (fEng c [(a, 4), (b, dblRegs l2)])
  | .scat c a b => some (fEng c [(a, 4), (b, 1)])
  | .layx c a b => some (fEng c [(a, 4), (b, 2)])
  | .waitc c _ _ => some (fEng c [])
  | .send c g a b => some (fEng c [(a, 3), (b, dblRegs g)])
  | .sendl c g a b => some (fEng c [(a, 3), (b, dblRegs g)])
  | .postr c d a => some (fEng c [(d, 1), (a, 8)]).variable
  | .canrv c d a => some (fEng c (one [d, a])).variable
  | .probe c d a => some (fEng c [(d, 4), (a, 4)]).variable
  | .mfsr c w d num => some { (fAlu c [(d, dblRegs w)]).variable with priv := !(num == 0 || num == 1) }
  | .mtsr c w _ a => some (fAlu c [(a, dblRegs w)]).privileged
  | .rte c _ d a => some (fAlu c (one [d, a])).variable.privileged
  | .ctxsv c d a b => some (fMem c [(d, 1), (a, 1), (b, 2)]).variable.privileged
  | .ctxld c d a b => some (fMem c [(d, 1), (a, 1), (b, 2)]).variable.privileged
  | .tinv c d a => some (fMem c [(d, 1), (a, 4)]).variable.privileged
  | .prsrs c _ d a => some (fMem c [(d, 1), (a, 4)]).variable.privileged
  | .halt c d a => some (fAlu c (one [d, a])).variable.privileged
  | .idle c d => some (fAlu c [(d, 1)]).variable.privileged
  | .fwsig c d a => some (fEng c [(d, 1), (a, 2)]).variable.privileged
  | .keyld c d a b => some (fEng c [(d, 1), (a, 1), (b, 2)]).variable.privileged
  | .tckt c _ d a b => some (fAlu c [(d, 1), (a, 1), (b, 2)]).variable.privileged
  | .scrub c tgt d a b => some (fMem c ([(d, 1), (a, 1)] ++ if tgt = .mem then [(b, 2)] else [])).variable.privileged
  | .dbgrd c d a b => some (fMem c [(d, 2), (a, 1), (b, 1)]).variable.privileged
  | .dbgwr c d a b r => some (fMem c (one [d, a, b, r])).variable.privileged
  | _ => none

/-- A trap of the clause check: its class, and `DETAIL` (R51). -/
structure CheckTrap where
  cls : Nat
  detail : Nat
  deriving DecidableEq, Repr

/-- What the check of a clause is made against. -/
structure CheckEnv where
  /-- instructions of the clause -/
  n : Nat
  pipes : BitVec 3
  setA : Nat
  setB : Nat
  /-- registers allocated per thread -/
  alloc : Nat
  /-- convergence registers of the workgroup -/
  cvn : Nat
  priv : Bool
  stream : Bool
  /-- free: which of several fields a trap names (log 10) -/
  pick : Nat

/-- Row 9 of the table for the register fields: the index in a field that breaks it (R45); which one of several, the spec does not
say (log 10). -/
def regBreak (alloc pick : Nat) (rs : List (Reg × Nat)) : Option Nat :=
  match (rs.filter fun p => p.1 != 255 && decide (alloc ≤ p.1.toNat + p.2 - 1)).map fun p => p.1.toNat with
  | [] => none
  | [r] => some r
  | r :: l => some (l.getD (pick % (l.length + 1)) r)

/-- The check of the instruction word at slot `k` (R36): the highest row of the table that it breaks. Of a word that breaks row 9 both by a
register field and by its convergence register, `DETAIL` names the register field (DESIGN CHOICE, log 10). -/
def checkSlot (e : CheckEnv) (k : Nat) (word : BitVec 80) : Option CheckTrap :=
  match decode word with
  | .error _ => some ⟨1, k + 1⟩
  | .ok i =>
    match Instr.facts? i with
    | none => some ⟨1, k + 1⟩
    | some f =>
      let flag := if f.al = 1 then e.setA else if f.al = 2 then e.setB else 16
      if (f.pipe != 0 && f.pipe &&& e.pipes == 0) || (e.stream && f.matrix) then some ⟨1, k + 1⟩
      else if f.last && decide (k + 1 < e.n) then some ⟨2, k + 1 + 2 * 256⟩
      else if k < f.pd.toNat then some ⟨2, k + 1 + 3 * 256⟩
      else if flag = 15 then some ⟨2, k + 1 + 4 * 256⟩
      else if f.cf ≠ 15 ∧ f.cf.toNat = flag then some ⟨2, k + 1 + 6 * 256⟩
      else if f.var && f.al == 0 && (match f.regs with | (d, _) :: _ => d != 255 | [] => false) then some ⟨2, k + 1 + 7 * 256⟩
      else if f.priv && !e.priv then some ⟨3, k + 1⟩
      else
        match regBreak e.alloc e.pick f.regs with
        | some r => some ⟨5, k + 1 + r * 256⟩
        | none =>
          match f.cv with
          | some v => if e.cvn ≤ v then some ⟨5, k + 1 + v * 256 + 65536⟩ else none
          | none => none

/-- The check of the slots from `k` on, lowest first (R36). -/
def checkSlots (e : CheckEnv) (k : Nat) : List (BitVec 80) → Option CheckTrap
  | [] => none
  | w :: t => match checkSlot e k w with | some x => some x | none => checkSlots e (k + 1) t

/-- The registers a wave may use: whole groups of eight, 255 at most (R18, R44). -/
def allocated (n : Nat) : Nat := min 255 (ceilDiv n 8 * 8)

end Sys2Proof.Machine
end

