-- ==== Sys2Proof/Machine/Queues.lean ====
section
/-! DEFINITION. Queue registers and outstanding-operation counters (spec/10, R213 to R218, R222). -/

namespace Sys2Proof.Machine

/-! ### Counters (R217) -/

/-- The number of a queue (R213). -/
def Queue.num : Sys2Proof.Queue → Nat
  | .qmx => 0 | .qcp => 1 | .qga => 2 | .qly => 3 | .qxs => 4 | .qxr => 5 | .qtk => 6 | .qer => 7
/-- The counter class that a queue feeds (R214, R217). -/
def queueClass (q : Nat) : Option Nat := match q with | 0 => some 1 | 1 => some 0 | 2 => some 2 | 3 => some 0 | 4 => some 3 | _ => none
/-- The code of a counter class (R217). -/
def CntClass.num : CntClass → Nat | .copy => 0 | .matrix => 1 | .gleaner => 2 | .send => 3

/-- The operations of a class, in issue order. -/
def Wave.counter (w : Wave) (k : Nat) : List Outstanding := List.getD w.counters k []
/-- The class holds as many operations as it can (R217). -/
def Wave.full (w : Wave) (k : Nat) : Bool := decide (63 ≤ (w.counter k).length)
/-- An operation enters its counter. -/
def Wave.enter (w : Wave) (k id q : Nat) : Wave := { w with counters := modAt w.counters k fun l => l ++ [⟨id, q, false⟩] }
/-- The push side of a queue. -/
def Wave.pushed (w : Wave) (q : Nat) : List PushEntry := List.getD w.push q []
/-- The pop side of a queue. -/
def Wave.present (w : Wave) (q : Nat) : List (List Word) := List.getD w.pop q []
/-- An entry is a marker. -/
def PushEntry.isMarker : PushEntry → Bool | .marker _ _ => true | .cmd _ => false
/-- Markers pushed and not yet popped (R214). -/
def Wave.markers (w : Wave) (q : Nat) : Nat := ((w.pushed q).filter PushEntry.isMarker).length + (w.present q).length

/-- Every earlier command that went through the queue has retired (R214). -/
def Wave.markerDue (w : Wave) (q id : Nat) : Bool :=
  match queueClass q with
  | some k => (w.counter k).all fun o => o.q != q || decide (id < o.id)
  | none => true
/-- Markers whose earlier commands have retired reach the pop side (R214). -/
def Wave.deliverMarkers (w : Wave) (q : Nat) : Wave :=
  let due := fun (e : PushEntry) => match e with | .marker id _ => w.markerDue q id | .cmd _ => false
  let out := (w.pushed q).filterMap fun e => match e with | PushEntry.marker _ v => if due e then some [v] else none | PushEntry.cmd _ => none
  { w with push := modAt w.push q fun l => l.filter fun e => !due e, pop := modAt w.pop q fun l => l ++ out }
/-- An operation completes, and whatever can retire retires in issue order (R217). -/
def Wave.completeOp (w : Wave) (k id : Nat) : Wave :=
  let l := ((w.counter k).map fun o => if o.id = id then { o with done := true } else o).dropWhile Outstanding.done
  let w1 := { w with counters := modAt w.counters k fun _ => l }
  (List.range 5).foldl Wave.deliverMarkers w1

/-- An engine error record (R222); a ninth is dropped, and the next one delivered tells. -/
def Wave.postError (w : Wave) (code q op : Nat) (token w2 w3 : Nat) : Wave :=
  if 8 ≤ (w.present 7).length then { w with ovf := true }
  else
    let r := [BitVec.ofNat 32 (code + q * 2 ^ 8 + w.ovf.toNat * 2 ^ 31), BitVec.ofNat 32 (op + token % 2 ^ 16 * 2 ^ 16),
              BitVec.ofNat 32 w2, BitVec.ofNat 32 (w3 % 2 ^ 24)]
    { w with pop := modAt w.pop 7 fun l => l ++ [r], ovf := false }

/-! ### Pops (R215, R222, R237) -/

/-- The four words of the empty indication (R215). -/
def emptyIndication : List Word := [0, 0, 0, 0xFF000000]

/-- A receive that a wave posted is still posted, or has been matched and its completion not yet delivered (R215). -/
def State.receiveExpected (s : State) (key gen : Nat) : Bool :=
  (s.ctxs.any fun c => c.2.posted.any fun p => p.wave == key && p.gen == gen) ||
  (s.msgs.any fun m => match m.2.rcv with | .matched p => p.wave == key && p.gen == gen | _ => false)

/-- The tokens not yet taken, and the copies to memory that still owe one (R215, R229). -/
def State.tokensDue (s : State) (key : Nat) (w : Wave) : Nat :=
  (w.present 6).length + (s.cmds.filter fun c => c.2.wave == key && c.2.gen == w.gen && owesToken c.2.instr).length
where
  /-- A copy to memory (R229). -/
  owesToken : Instr → Bool
    | .cpyt _ st _ _ _ _ => st
    | .cpyl _ dir _ _ _ _ => dir == .sg || dir == .gg
    | _ => false

/-- An entry is present or expected on a queue (R215). -/
def State.expected (s : State) (key : Nat) (w : Wave) (q : Nat) : Bool :=
  match q with
  | 5 => !(w.present 5).isEmpty || !w.heldRx.isEmpty || s.receiveExpected key w.gen
  | 6 => decide (0 < s.tokensDue key w)
  | 7 => !(w.present 7).isEmpty || w.counters.any fun l => !l.isEmpty
  | _ => decide (0 < w.markers q)

/-- The next entry of a queue taken; a completion held for want of room follows (R213). -/
def Wave.popEntry (w : Wave) (q : Nat) : Option (List Word × Wave) :=
  match w.present q with
  | [] => none
  | e :: t =>
    let w1 := { w with pop := modAt w.pop q fun _ => t }
    if q = 5 then
      match w1.heldRx with
      | h :: r => some (e, { w1 with pop := modAt w1.pop 5 fun l => l ++ [h], heldRx := r })
      | [] => some (e, w1)
    else some (e, w1)

/-- The queue a pop instruction takes from. -/
def popQueue : Instr → Option Nat
  | .qpop _ _ q => some (Queue.num q) | .qtry _ _ q => some (Queue.num q) | _ => none

/-- An older pop of the wave on the same queue has not been performed (R215). -/
def State.olderPop (s : State) (key id q : Nat) : Bool :=
  s.ops.any fun p => decide (p.1 < id) && p.2.wave == key && popQueue p.2.instr == some q && !p.2.done

/-- Result words that every lane of an operation receives, and the operation performed. -/
def Op.finishAll (o : Op) (ws : List Word) (raised : BitVec 12) : Op :=
  { o with vals := (List.range o.vals.length).map fun k => Row.splat (ws.getD k 0), todo := 0, raised := o.raised ||| raised, done := true }

/-- A pop performed (R215): the next entry, the empty indication, or not yet. -/
def State.popOne (s : State) (id : Nat) (o : Op) (q : Nat) (waits : Bool) : State :=
  match s.wave? o.wave with
  | none => s
  | some w =>
    match w.popEntry q with
    | some (e, w1) => (s.setWave o.wave w1).modOp id fun o => o.finishAll e 0
    | none =>
      if waits && s.expected o.wave w q then s
      else s.modOp id fun o => o.finishAll emptyIndication 0

/-- A pop instruction waits for its entry. -/
def popWaits : Instr → Bool | .qpop .. => true | _ => false

/-- A pop performed in the issue order of its queue (R215): the older ones take their entries first. A QPOP waits behind one that waits; a
QTRY finds the queue empty then. -/
def State.performPop (s : State) (id : Nat) (o : Op) (q : Nat) (waits : Bool) : State :=
  let older := s.ops.filter fun p => decide (p.1 < id) && p.2.wave == o.wave && popQueue p.2.instr == some q && !p.2.done
  let s1 := older.foldl (fun t p => if popWaits p.2.instr && t.olderPop o.wave p.1 q then t else t.popOne p.1 p.2 q (popWaits p.2.instr)) s
  if waits && s1.olderPop o.wave id q then s1 else s1.popOne id o q waits

/-- QLVL performed (R216). -/
def State.performLevel (s : State) (id : Nat) (o : Op) (q : Nat) : State :=
  match s.wave? o.wave with
  | none => s
  | some w =>
    let n := match queueClass q with | some k => (w.counter k).length | none => 0
    s.modOp id fun o => o.finishAll [BitVec.ofNat 32 ((w.present q).length % 256 + (w.pushed q).length % 256 * 2 ^ 8 + n % 64 * 2 ^ 16)] 0

/-! ### QPUSH, QPOP, QTRY, QLVL, WAITC -/

/-- QPUSH (R214). -/
def execQpush (c : Ctl) (q : Sys2Proof.Queue) (a : Reg) (s : State) : Host.Outcome State Fault Refusal :=
  onIssue c [] s fun x =>
    let k := Queue.num q
    if x.act = 0 then x.done s x.w
    else if 8 ≤ (x.w.pushed k).length ∨ 8 ≤ x.w.markers k then s
    else
      let (id, s1) := s.fresh
      let w1 := { x.w with push := modAt x.w.push k fun l => l ++ [PushEntry.marker id (BitVec.ofNat 32 (x.u a))] }
      x.done s1 (w1.deliverMarkers k)
/-- QPOP (R215). -/
def execQpop (c : Ctl) (d : Reg) (q : Sys2Proof.Queue) (s : State) : Host.Outcome State Fault Refusal :=
  laterOp c (.qpop c d q) (dstGroup d 4) s (fun _ => []) (fun _ => 0)
    (fun x => if s.expected x.key x.w (Queue.num q) then none else some (7, Queue.num q)) fun _ _ t => t
/-- QTRY (R215). -/
def execQtry (c : Ctl) (d : Reg) (q : Sys2Proof.Queue) (s : State) : Host.Outcome State Fault Refusal :=
  laterOp c (.qtry c d q) (dstGroup d 4) s (fun _ => []) (fun _ => 0) (fun _ => none) fun _ _ t => t
/-- QLVL (R216). -/
def execQlvl (c : Ctl) (d : Reg) (q : Sys2Proof.Queue) (s : State) : Host.Outcome State Fault Refusal :=
  laterOp c (.qlvl c d q) (dstGroup d 1) s (fun _ => []) (fun _ => 0) (fun _ => none) fun _ _ t => t
/-- WAITC (R218): it does not depend on lanes. -/
def execWaitc (c : Ctl) (cls : CntClass) (n : BitVec 6) (s : State) : Host.Outcome State Fault Refusal :=
  onIssue c [] s fun x =>
    if n.toNat < (x.w.counter (CntClass.num cls)).length ∨ s.parkedLanes x.key x.cl.run then s
    else x.done s x.w

end Sys2Proof.Machine
end

