-- ==== Sys2Proof/Machine/Matrix.lean ====
section
/-! DEFINITION. Convergence registers, the matrix engine, narrow numbers and reductions (spec/05 R112, R113; spec/09; spec/03 R62 to R71). -/

namespace Sys2Proof.Machine

/-! ### What a matrix instruction says (R191 to R193) -/

/-- The fields of a matrix instruction. -/
structure MatWord where
  /-- its opcode -/
  op : Nat
  /-- element format; `none` is a nested format -/
  fmt : Option FFmt
  scaled : Bool
  /-- planes read of A and B -/
  ka : Nat
  kb : Nat
  cv : Nat
  /-- byte selects of the scales -/
  ba : Nat
  bb : Nat
  a : Reg
  b : Reg
  c : Reg
  d : Reg
  deriving DecidableEq, Repr

/-- The fields of an MMA (R191, R192). -/
def matWord? : Instr → Option MatWord
  | .mmaf _ cv a b => some ⟨0xA0, some .f32, false, 8, 8, cv.toNat, 0, 0, a, b, 0, 0⟩
  | .mmab _ cv a b => some ⟨0xA1, some .bf16, false, 8, 8, cv.toNat, 0, 0, a, b, 0, 0⟩
  | .mmah _ cv a b => some ⟨0xA2, some .f16, false, 8, 8, cv.toNat, 0, 0, a, b, 0, 0⟩
  | .mmae4 _ sc cv ba bb a b r d => some ⟨0xA3, some .f8e4, sc, 8, 8, cv.toNat, ba.toNat, bb.toNat, a, b, r, d⟩
  | .mmae5 _ sc cv ba bb a b r d => some ⟨0xA4, some .f8e5, sc, 8, 8, cv.toNat, ba.toNat, bb.toNat, a, b, r, d⟩
  | .mman _ ka kb cv ba bb a b r d => some ⟨0xA5, none, true, ka.toNat + 2, kb.toNat + 2, cv.toNat, ba.toNat, bb.toNat, a, b, r, d⟩
  | _ => none

/-- Two MMA words agree in `OP`, `MOD` and `X` (R199). -/
def MatWord.agrees (x y : MatWord) : Bool :=
  x.op == y.op && x.scaled == y.scaled && x.ka == y.ka && x.kb == y.kb && x.cv == y.cv && x.ba == y.ba && x.bb == y.bb

/-- Bytes of an element (R191). -/
def MatWord.size (m : MatWord) : Nat := match m.fmt with | some f => FFmt.bits f / 8 | none => 1
/-- The chunk size C (R69). -/
def MatWord.chunk (m : MatWord) : Nat := match m.fmt with | some .f32 => 4 | some .bf16 => 8 | some .f16 => 8 | _ => 16

/-- A descriptor (R193). -/
structure Desc where
  pitch : Nat
  aoff : Nat
  k : Nat
  n : Nat
  m : Nat
  /-- block edge -/
  b : Nat
  tb : Bool
  ta : Bool
  ovw : Bool
  col0 : Nat
  row0 : Nat
  tc : Nat
  tr : Nat
  pc : Nat
  pr : Nat
  /-- a reserved bit is set -/
  reserved : Bool
  deriving DecidableEq, Repr

/-- The descriptor in four registers of lane 0 (R193). -/
def descOf (r0 r1 r2 r3 : Nat) : Desc :=
  { pitch := bits r0 20 12 * 16, aoff := bits r0 0 20, k := bits r1 16 8, n := bits r1 8 8, m := bits r1 0 8,
    b := if r2.testBit 19 then 32 else 16, tb := r2.testBit 18, ta := r2.testBit 17, ovw := r2.testBit 16,
    col0 := bits r2 8 8, row0 := bits r2 0 8, tc := bits r3 3 1, tr := bits r3 2 1, pc := bits r3 1 1, pr := bits r3 0 1,
    reserved := bits r1 24 8 != 0 || bits r2 20 12 != 0 || bits r3 4 28 != 0 }

/-- A register of a member as it read it (R197). -/
def Member.row (m : Member) (r : Nat) : Row := FMap.getD m.regs r Row.zero
/-- The MMA whose operands a member supplies: the first it signed with, and its registers as that one read them (R197; DESIGN CHOICE, log 129). -/
def Member.word? (m : Member) : Option MatWord := m.mma.head?.bind matWord?
/-- The descriptor of a quarter-0 member. -/
def Member.desc? (m : Member) : Option Desc :=
  m.word?.map fun w =>
    let r := fun k => (Row.lane (m.row (nextReg w.a k).toNat) 0).toNat
    descOf (r 0) (r 1) (r 2) (r 3)

/-- Bytes that a stored row of A occupies (R194). -/
def aRowBytes (w : MatWord) (d : Desc) : Nat :=
  let across := if d.ta then d.m else d.k
  match w.fmt with | some _ => across * w.size | none => w.ka * ceilDiv across 8
/-- Stored rows of A. -/
def aRows (d : Desc) : Nat := if d.ta then d.k else d.m
/-- Bytes from `AOFF` to the end of A. -/
def aSpan (w : MatWord) (d : Desc) : Nat := if aRows d = 0 then 0 else (aRows d - 1) * d.pitch + aRowBytes w d
/-- Columns of B that quarter `q` holds (R195). -/
def qCols (d : Desc) (q : Nat) : Nat := min 48 (d.n - 48 * q)
/-- Bytes of one plane of a quarter's B string (R195). -/
def planeBytes (d : Desc) (q : Nat) : Nat := 128 * ceilDiv (d.k * qCols d q) 1024
/-- Registers of a quarter's B string (R195). -/
def bRegs (w : MatWord) (d : Desc) (q : Nat) : Nat :=
  match w.fmt with
  | some _ => ceilDiv (d.k * qCols d q * w.size) 128
  | none => w.kb * planeBytes d q / 128
/-- The first stored block column of a quarter, and how many it meets (R66, R196). -/
def qBlocks (d : Desc) (q : Nat) : Nat × Nat := (48 * q / d.b, (48 * q + qCols d q - 1) / d.b - 48 * q / d.b + 1)
/-- Registers of a quarter's B scales (R196). -/
def bScaleRegs (d : Desc) (q : Nat) : Nat := ceilDiv (ceilDiv d.k d.b * (qBlocks d q).2) 32
/-- Registers of the A scales (R196). -/
def aScaleRegs (d : Desc) : Nat := ceilDiv (ceilDiv d.m d.b * ceilDiv d.k d.b) 32

/-- The registers of a member that an operation reads (R195 to R198): the descriptor, the B string and the scales. -/
def operandRegs (w : MatWord) (d : Desc) (q : Nat) : List Nat :=
  let span := fun (r : Reg) (n : Nat) => if r = 255 then [] else (List.range n).map (r.toNat + ·)
  (if q = 0 then span w.a 4 ++ (if w.scaled then span w.c (aScaleRegs d) else []) else []) ++
  (if 0 < qCols d q then span w.b (bRegs w d q) ++ (if w.scaled then span w.d (bScaleRegs d q) else []) else [])

/-! ### Convergence registers (R112, R113, R197) -/

/-- A convergence register of a workgroup. -/
def Workgroup.cv (g : Workgroup) (n : Nat) : Cv := g.cvs.getD n ⟨none, 0, []⟩
/-- A convergence register changed. -/
def Workgroup.modCv (g : Workgroup) (n : Nat) (f : Cv → Cv) : Workgroup := { g with cvs := modAt g.cvs n f }

/-- The mask of a CVSET is good (R113): whole nibbles, not zero, cores of the workgroup. -/
def cvMaskOk (g : Workgroup) (m : Nat) : Bool :=
  (bits m 0 16 != 0) && (List.range 4).all fun c => bits m (4 * c) 4 == 0 || (bits m (4 * c) 4 == 15 && decide (c < g.cores.length))

/-- CVSET (R113, R338): it arms at its issue. -/
def execCvset (c : Ctl) (cv : BitVec 4) (a : Reg) (s : State) : Host.Outcome State Fault Refusal :=
  onIssue c [] s fun x =>
    if x.act = 0 then x.done s x.w
    else
      match s.wg? x.w.wg with
      | none => x.done s (x.w.raise wCVE)
      | some g =>
        let m := x.u a
        if cvMaskOk g m && (g.cv cv.toNat).armed.isNone && decide (cv.toNat < g.cvs.length) then
          (x.done s x.w).modWg x.w.wg fun g => g.modCv cv.toNat fun r => { armed := some (BitVec.ofNat 16 m), count := r.count + 1, members := [] }
        else x.done s (x.w.raise wCVE)

/-- The member of quarter `q` of core index `c` of a set. -/
def memberAt (ms : FMap Member) (c q : Nat) : Option Member := FMap.get? ms (4 * c + q)

/-- The exited lanes of a wave, which count as signed (R113). -/
def State.exitedLanes (s : State) (key : Nat) : LaneMask :=
  match s.wave? key with
  | some w => LaneMask.ofPred fun L => match w.pct[L]? with | some e => e.x | none => true
  | none => LaneMask.all

/-- Registers of a member that writes must wait for from now on (R43, R197): the spans, once the core's descriptor is
known; before that, every register that the spans may reach: those from the first of B and of the scales on (DESIGN CHOICE, log 130). -/
def memberLocks (ms : FMap Member) (k : Nat) (m : Member) : List Nat :=
  match m.word? with
  | none => []
  | some w =>
    match (memberAt ms (k / 4) 0).bind Member.desc? with
    | some d => operandRegs w d (k % 4)
    | none => ([w.b] ++ (if w.scaled then [w.d] else [])).flatMap fun r => if r = 255 then [] else (List.range m.alloc).drop r.toNat

/-- The locks of every member of a set, put on their waves (R43). -/
def State.lockMembers (s : State) (ms : FMap Member) : State :=
  ms.foldl (fun t p => t.modWave p.2.wave fun w => { w with locks := FMap.set w.locks p.2.op (memberLocks ms p.1 p.2) }) s

/-- The registers of a member are released, and the flags of its signing instructions cleared (R201). -/
def State.releaseMember (s : State) (m : Member) : State :=
  s.modWave m.wave fun w => m.flags.foldl Wave.dropFlag { w with locks := FMap.erase w.locks m.op }

/-- An operation refused at its issue (R199). -/
def State.refuseMatrix (s : State) (ms : FMap Member) : State :=
  let s1 := { s with locks := s.locks.filter fun l => !(l.capture && ms.any fun p => p.2.cap == l.owner) }
  ms.foldl (fun t p => (t.releaseMember p.2).modWave p.2.wave fun w => (w.completeOp 1 p.2.op).raise wCVE) s1

/-- The cores of an armed mask. -/
def maskCores (m : BitVec 16) : List Nat := (List.range 4).filter fun c => bits m.toNat (4 * c) 4 != 0

/-- The core of a set with a tile position. -/
def tileCore (ds : List (Nat × Desc)) (pr pc : Nat) : Option (Nat × Desc) := ds.find? fun x => x.2.pr == pr && x.2.pc == pc

/-- The checks of a core's descriptor against its workgroup (R199). -/
def descOk (g : Workgroup) (ci : Nat) (w : MatWord) (d : Desc) : Bool :=
  !d.reserved && decide (1 ≤ d.m ∧ d.m ≤ 96 ∧ 1 ≤ d.n ∧ d.n ≤ 192 ∧ 1 ≤ d.k ∧ d.k ≤ 192) &&
  decide (g.acc0 ≤ d.row0 ∧ d.row0 + d.m ≤ g.acc0 + g.accN) && decide (d.col0 + d.n ≤ 192) &&
  -- of a core that supplies A
  (d.pc != 0 || (d.aoff % 128 == 0 && decide (aRowBytes w d ≤ d.pitch) && decide (d.aoff + aSpan w d ≤ g.size ci)))

/-- A register span stays within an allocation; a span from 255 is `vz` throughout, and reaches none (R45, R199; DESIGN CHOICE, log 131). -/
def spanOk (alloc : Nat) (r : Reg) (n : Nat) : Bool := r == 255 || decide (r.toNat + n ≤ alloc)

/-- Every check of R199 but that a member signed with an MMA at all. -/
def matrixOk (g : Workgroup) (ms : FMap Member) (w : MatWord) (ds : List (Nat × Desc)) : Bool :=
  (ms.all fun p => p.2.mma.all fun i => match matWord? i with | some v => v.agrees w | none => false) &&
  (ds.all fun x => descOk g x.1 w x.2) &&
  -- the tile fields number the set's cores one each
  (match ds with
   | [] => false
   | (_, d0) :: _ =>
     (ds.all fun x => x.2.tr == d0.tr && x.2.tc == d0.tc && decide (x.2.pr ≤ d0.tr ∧ x.2.pc ≤ d0.tc)) &&
     ds.length == (d0.tr + 1) * (d0.tc + 1) &&
     (List.range (d0.tr + 1)).all fun r => (List.range (d0.tc + 1)).all fun c => (tileCore ds r c).isSome) &&
  (ds.all fun x => ds.all fun y =>
    (x.2.pr != y.2.pr || (x.2.k == y.2.k && x.2.m == y.2.m)) && (x.2.pc != y.2.pc || (x.2.k == y.2.k && x.2.n == y.2.n))) &&
  -- the spans of every supplier
  (ds.all fun x =>
    (match (tileCore ds x.2.pr 0).bind fun y => memberAt ms y.1 0 with
     | some m => !w.scaled || spanOk m.alloc (match m.word? with | some v => v.c | none => 0) (aScaleRegs x.2)
     | none => false) &&
    (match tileCore ds 0 x.2.pc with
     | none => false
     | some y => (List.range 4).all fun q =>
        qCols x.2 q == 0 ||
        (match memberAt ms y.1 q with
         | some m =>
           (match m.word? with
            | some v => spanOk m.alloc v.b (bRegs w x.2 q) && (!w.scaled || spanOk m.alloc v.d (bScaleRegs x.2 q))
            | none => false)
         | none => false)))

/-- A member's operands are still to be read once the operation has issued (R198, R201). -/
def readsLater (w : MatWord) (d : Desc) (q : Nat) : Bool := (d.pr == 0 && decide (0 < qCols d q)) || (q == 0 && d.pc == 0 && w.scaled)

/-- The last signature issues the operation, or it is refused (R113, R197, R199, R201). While a named quarter has no member, it does not issue
(DESIGN CHOICE, log 126). -/
def State.checkCv (s : State) (wgn n : Nat) : State :=
  match s.wg? wgn with
  | none => s
  | some g =>
    let r := g.cv n
    match r.armed with
    | none => s
    | some m =>
      let named := setBits m.toNat 16
      if !(named.all fun k => match FMap.get? r.members k with
          | some x => (x.lanes ||| s.exitedLanes x.wave) == LaneMask.all | none => false) then s
      else
        let s1 := s.modWg wgn fun g => g.modCv n fun r => { r with armed := none, members := [] }
        let cores := maskCores m
        let ds := cores.filterMap fun c => ((memberAt r.members c 0).bind Member.desc?).map fun d => (c, d)
        match r.members.findSome? fun p => p.2.mma.head? with
        | none => s1.refuseMatrix r.members
        | some i =>
          match matWord? i with
          | none => s1.refuseMatrix r.members
          | some w =>
            if !(ds.length == cores.length && matrixOk g r.members w ds) then s1.refuseMatrix r.members
            else
              let (id, s2) := s1.fresh
              let later := fun (k : Nat) => match ds.find? fun x => x.1 == k / 4 with
                | some x => readsLater w x.2 (k % 4) | none => false
              let s3 := r.members.foldl (fun t p => if later p.1 then t else t.releaseMember p.2) s2
              let op : MatOp := { wg := wgn, cv := n, instr := i, cores := cores, members := r.members,
                                  read := (FMap.keys r.members).filter fun k => !later k, aLines := [] }
              { s3 with mops := FMap.set s3.mops id op }

/-- Every convergence register of a workgroup is looked at again, as after an EXIT (R113). -/
def State.recheckCvs (s : State) (wgn : Nat) : State :=
  match s.wg? wgn with
  | none => s
  | some g => (List.range g.cvs.length).foldl (fun t n => t.checkCv wgn n) s

/-- A signature by a CVSIGN or an MMA (R113, R192, R197, R202). A flag that a CVSIGN allocates is clear again at once, on an ARMED register too (R100;
DESIGN CHOICE, log 125). -/
def signCv (c : Ctl) (cv : BitVec 4) (mma : Option Instr) (s : State) : Host.Outcome State Fault Refusal :=
  onIssue c [] s fun x =>
    if x.act = 0 then x.done s x.w
    else
      match s.wg? x.w.wg with
      | none => x.done s (x.w.raise wCVE)
      | some g =>
        let n := cv.toNat
        let r := g.cv n
        let ci := g.coreIdx (waveCore x.key)
        let k := 4 * ci + waveQtr x.key
        -- a wave that waits to be a member waits for the next arming
        if (match FMap.get? x.w.cvWait n with | some a => r.armed.isNone || a == r.count | none => false) then s
        else
          let w0 := { x.w with cvWait := FMap.erase x.w.cvWait n }
          match r.armed with
          | none => x.done s (w0.raise wCVE)
          | some m =>
            if !m.getLsbD k then x.done s (w0.raise wCVE)
            else
              let old := FMap.get? r.members k
              match old with
              | some o =>
                if o.wave ≠ x.key then s.setWave x.key { w0 with cvWait := FMap.set w0.cvWait n r.count }
                else record x w0 s n r k o
              | none =>
                if w0.full 1 then s
                else
                  let (id, s1) := s.fresh
                  record x (w0.enter 1 id 0) s1 n r k
                    { wave := x.key, lanes := 0, mma := [], regs := [], alloc := allocated x.w.nregs, flags := [], op := id, cap := 0 }
where
  /-- The member signs for its active lanes. -/
  record (x : Issue) (w : Wave) (s : State) (n : Nat) (r : Cv) (k : Nat) (o : Member) : State :=
    let flag := match mma with | some _ => x.cl.flagOf c.al | none => none
    let first := o.mma.isEmpty && mma.isSome
    let o1 : Member :=
      { o with lanes := o.lanes ||| x.act, mma := o.mma ++ mma.toList,
               regs := if first then (List.range o.alloc).map fun r => (r, x.w.read x.pd r) else o.regs,
               flags := o.flags ++ flag.toList }
    let w1 := match flag with | some f => w.takeFlag f | none => w
    -- A is captured when the quarter-0 member of a supplying core signs with its first MMA (R202): the capture has a number of its own,
    -- later than those of the commands that issued before it (R302)
    let (cap, s0) := s.fresh
    let lines := match if first && k % 4 == 0 then o1.desc? else none, o1.word? with
      | some d, some v =>
        if d.pc = 0 ∧ 0 < aSpan v d then
          (List.range (aRows d)).map fun i => ((d.aoff + i * d.pitch) / 128, ceilDiv (d.aoff + i * d.pitch + aRowBytes v d) 128)
        else []
      | _, _ => []
    let ms := FMap.set r.members k (if lines.isEmpty then o1 else { o1 with cap := cap })
    let s1 := (x.done s0 w1).modWg x.w.wg fun g => g.modCv n fun r => { r with members := ms }
    let s2 := { s1 with locks := s1.locks ++ lines.map fun (l : Nat × Nat) => (⟨cap, x.w.wg, k / 4, l.1, l.2, true⟩ : LineLock) }
    (s2.lockMembers ms).checkCv x.w.wg n

/-- CVSIGN (R113). -/
def execCvsign (c : Ctl) (cv : BitVec 4) (s : State) : Host.Outcome State Fault Refusal := signCv c cv none s
/-- MMAF (R191 to R203). -/
def execMmaf (c : Ctl) (cv : BitVec 4) (a b : Reg) (s : State) : Host.Outcome State Fault Refusal :=
  signCv c cv (some (.mmaf c cv a b)) s
/-- MMAB (R191 to R203). -/
def execMmab (c : Ctl) (cv : BitVec 4) (a b : Reg) (s : State) : Host.Outcome State Fault Refusal :=
  signCv c cv (some (.mmab c cv a b)) s
/-- MMAH (R191 to R203). -/
def execMmah (c : Ctl) (cv : BitVec 4) (a b : Reg) (s : State) : Host.Outcome State Fault Refusal :=
  signCv c cv (some (.mmah c cv a b)) s
/-- MMAE4 (R191 to R203). -/
def execMmae4 (c : Ctl) (sc : Bool) (cv : BitVec 4) (ba bb : BitVec 2) (a b r d : Reg) (s : State) : Host.Outcome State Fault Refusal :=
  signCv c cv (some (.mmae4 c sc cv ba bb a b r d)) s
/-- MMAE5 (R191 to R203). -/
def execMmae5 (c : Ctl) (sc : Bool) (cv : BitVec 4) (ba bb : BitVec 2) (a b r d : Reg) (s : State) : Host.Outcome State Fault Refusal :=
  signCv c cv (some (.mmae5 c sc cv ba bb a b r d)) s
/-- MMAN (R191 to R203). -/
def execMman (c : Ctl) (ka kb : BitVec 3) (cv : BitVec 4) (ba bb : BitVec 2) (a b r d : Reg) (s : State) :
    Host.Outcome State Fault Refusal :=
  signCv c cv (some (.mman c ka kb cv ba bb a b r d)) s

/-! ### Operands and cells (R194 to R200, R65 to R71) -/

/-- The operation, as its supplier and members give it. -/
def MatOp.word? (m : MatOp) : Option MatWord := matWord? m.instr
/-- The descriptors of its cores. -/
def MatOp.descs (m : MatOp) : List (Nat × Desc) :=
  m.cores.filterMap fun c => ((memberAt m.members c 0).bind Member.desc?).map fun d => (c, d)

/-- The lines that hold A on a supplying core: number of the first and how many. -/
def aLineSpan (w : MatWord) (d : Desc) : Nat × Nat := (d.aoff / 128, ceilDiv (d.aoff + aSpan w d) 128 - d.aoff / 128)

/-- A line is read by the rows of A. -/
def aLineUsed (w : MatWord) (d : Desc) (line : Nat) : Bool :=
  (List.range (aRows d)).any fun x =>
    let lo := d.aoff + x * d.pitch
    decide (lo / 128 ≤ line) && decide (line < ceilDiv (lo + aRowBytes w d) 128)

/-- The engine reads A on a supplying core, unless a line of it is EMPTY (R194, R202): the hold on the lines ends. -/
def State.readA (s : State) (id : Nat) (m : MatOp) (core : Nat) (w : MatWord) (d : Desc) : State :=
  match s.wg? m.wg with
  | none => s
  | some g =>
    let (lo, n) := aLineSpan w d
    let ls := (List.range n).map fun i => g.line core (lo + i)
    if (FMap.get? m.aLines core).isSome then s
    else if (List.range n).any fun i => aLineUsed w d (lo + i) && (g.line core (lo + i)).st == .empty then s
    else
      let cap := match memberAt m.members core 0 with | some x => x.cap | none => 0
      { s with mops := FMap.set s.mops id { m with aLines := FMap.set m.aLines core ls },
               locks := s.locks.filter fun l => !(l.capture && l.owner == cap) }

/-- A byte of A as read, and whether its line was POISON. -/
def aByte (lines : List Line) (lo off : Nat) : Nat × Bool :=
  match lines[off / 128 - lo]? with
  | some l => ((List.getD l.bytes (off % 128) 0).toNat, l.st == .poison)
  | none => (0, false)

/-- The element (i, k) of A as a code, and whether a POISON line gave part of it (R194, R64, R203). -/
def aElem (w : MatWord) (d : Desc) (lines : List Line) (i k : Nat) : Nat × Bool :=
  let (x, y) := if d.ta then (k, i) else (i, k)
  let lo := d.aoff / 128
  let base := d.aoff + x * d.pitch
  match w.fmt with
  | some _ =>
    let bs := (List.range w.size).map fun e => aByte lines lo (base + y * w.size + e)
    if bs.any Prod.snd then (0, true) else (leNat (bs.map fun b => BitVec.ofNat 8 b.1), false)
  | none =>
    let g8 := ceilDiv (if d.ta then d.m else d.k) 8
    let bs := (List.range w.ka).map fun p => aByte lines lo (base + p * g8 + y / 8)
    if bs.any Prod.snd then (0, true)
    else ((bs.zipIdx.map fun b => if b.1.1.testBit (y % 8) then 2 ^ (7 - b.2) else 0).foldl (· + ·) 0, false)

/-- Byte `j` of a string laid out in registers (R195). -/
def stringByte (m : Member) (r : Reg) (j : Nat) : Nat :=
  bits (Row.lane (m.row (nextReg r (j / 128)).toNat) (j % 128 / 4)).toNat (8 * (j % 4)) 8

/-- The element (k, n) of a quarter's B as a code (R195). -/
def bElem (w : MatWord) (d : Desc) (q : Nat) (m : Member) (r : Reg) (k n : Nat) : Nat :=
  let t := if d.tb then n * d.k + k else k * qCols d q + n
  match w.fmt with
  | some _ => leNat ((List.range w.size).map fun e => BitVec.ofNat 8 (stringByte m r (w.size * t + e)))
  | none => ((List.range w.kb).map fun p =>
      if (stringByte m r (p * planeBytes d q + t / 8)).testBit (t % 8) then 2 ^ (7 - p) else 0).foldl (· + ·) 0

/-- The scale of block number `n` (R66). -/
def scaleAt (m : Member) (r : Reg) (sel n : Nat) : Sc8 :=
  sc8Val (bits (Row.lane (m.row (nextReg r (n / 32)).toNat) (n % 32)).toNat (8 * sel) 8)

/-- The value of an element: a float, or twice a nested value (R63, R70). -/
inductive Elem where
  | float (x : XR)
  | nested (v : Int)

/-- The element of a code. -/
def elemOf (w : MatWord) (planes code : Nat) : Elem :=
  match w.fmt with
  | some f => .float (dec f code)
  | none => .nested (2 * nestedVal (code.testBit 7) (code % 128) planes)

/-- A sum of products as an exact value: of floats, or of doubled nested values. -/
def dotTerms (l : List (Elem × Elem)) : XR :=
  if l.any fun p => match p.1 with | .nested _ => true | _ => false then
    XR.ofInt ((l.map fun p => match p.1, p.2 with | .nested a, .nested b => a * b | _, _ => 0).foldl (· + ·) 0)
  else xsum (l.map fun p => match p.1, p.2 with | .float a, .float b => (a.mul b).1 | _, _ => XR.zero false)

/-- An exact value times n / d. -/
def XR.scale (x : XR) (n d : Nat) : XR := match x with | .fin s a b => .fin s (a * n) (b * d) | y => y

/-- acc + x, rounded to FP32 (R69, R70). -/
def accAdd (acc x : Nat) : Nat := roundRn (xsum [dec .f32 acc, dec .f32 x]) .f32

/-- A cell of an unscaled operation (R69): the products of each chunk, in increasing k. -/
def chunkCell (start chunk : Nat) (terms : List (Elem × Elem)) : Nat :=
  (List.range (ceilDiv terms.length chunk)).foldl
    (fun acc c => accAdd acc (roundRn (dotTerms ((terms.drop (c * chunk)).take chunk)) .f32)) start

/-- A cell of a scaled operation (R70): each block with its two scales, in increasing k. -/
def blockCell (start b : Nat) (nested : Bool) (terms : List (Elem × Elem)) (scales : List (Sc8 × Sc8)) : Nat :=
  scales.zipIdx.foldl (fun acc p =>
    let ts := (terms.drop (p.2 * b)).take b
    let blk := match p.1 with
      | (.invalid, _) => cnan .f32
      | (_, .invalid) => cnan .f32
      | (.zero, _) => 0
      | (_, .zero) => 0
      | (.fin n1 d1, .fin n2 d2) => roundRn (XR.scale (dotTerms ts) (n1 * n2) (d1 * d2 * if nested then 4 else 1)) .f32
    accAdd acc blk) start

/-- The substitutions of one core: those that name it. -/
def errsOf (errs : List MatErr) (core kind : Nat) : List MatErr := errs.filter fun e => e.core == core && e.kind == kind

/-- A float or nested zero. -/
def Elem.zeroLike : Elem → Elem | .float _ => .float (XR.zero false) | .nested _ => .nested 0

/-- One cell of a core (R200), with the substitutions of R203. -/
def matCell (w : MatWord) (d : Desc) (start : Nat) (a : Nat → Elem) (b : Nat → Elem) (sa sb : Nat → Sc8) (core i j : Nat)
    (errs : List MatErr) : Nat :=
  let row := d.row0 + i
  let col := d.col0 + j
  let hit := fun kind k => (errsOf errs core kind).any fun e =>
    e.kidx == k && (kind == 2 || e.row == row) && (kind == 1 || e.col == col)
  let terms := (List.range d.k).map fun k =>
    let x := if hit 1 k || hit 3 k then (a k).zeroLike else a k
    let y := if hit 2 k || hit 3 k then (b k).zeroLike else b k
    (x, y)
  let st := if (errsOf errs core 4).any fun e => e.row == row && e.col == col then 0 else start
  if w.scaled then blockCell st d.b w.fmt.isNone terms ((List.range (ceilDiv d.k d.b)).map fun t => (sa t, sb t))
  else chunkCell st w.chunk terms

/-- The cells of one core: key and value (R200). The scale blocks of a supplier are numbered with the block edge of the receiving core (DESIGN CHOICE,
log 137). -/
def matCells (m : MatOp) (w : MatWord) (acc : FMap Word) (core : Nat) (d : Desc) (errs : List MatErr) : FMap Word :=
  let ds := m.descs
  match tileCore ds d.pr 0, tileCore ds 0 d.pc with
  | some (sa, da), some (sb, db) =>
    let lines := FMap.getD m.aLines sa []
    let ma := memberAt m.members sa 0
    let wa := ma.bind Member.word?
    (List.range d.m).foldl (fun acc i =>
      (List.range d.n).foldl (fun acc j =>
        let q := j / 48
        let mb := memberAt m.members sb q
        let wb := mb.bind Member.word?
        let av := fun k => elemOf w w.ka (aElem w { da with k := d.k, m := d.m } lines i k).1
        let bv := fun k => match mb, wb with
          | some x, some v => elemOf w w.kb (bElem w { db with k := d.k, n := d.n } q x v.b k (j - 48 * q))
          | _, _ => elemOf w w.kb 0
        let nk := ceilDiv d.k d.b
        let (c0, ns) := qBlocks d q
        let scA := fun t => match ma, wa with
          | some x, some v => scaleAt x v.c v.ba (if da.ta then t * ceilDiv d.m d.b + i / d.b else i / d.b * nk + t)
          | _, _ => .zero
        let scB := fun t => match mb, wb with
          | some x, some v => scaleAt x v.d v.bb (if db.tb then (j / d.b - c0) * nk + t else t * ns + (j / d.b - c0))
          | _, _ => .zero
        let key := (d.row0 + i) * 192 + d.col0 + j
        let start := if d.ovw then 0x80000000 else (FMap.getD acc key 0).toNat
        FMap.set acc key (BitVec.ofNat 32 (matCell w d start av bv scA scB core i j errs))) acc) acc
  | _, _ => acc

/-! ### The error log (R203 to R205) -/

/-- Substituted values logged: the first sets the fields, each counts. -/
def MerrLog.note (m : MerrLog) (kind qtr row col kidx n : Nat) : MerrLog :=
  let cnt := min 0x7FFF (m.cnt + n)
  if m.v then { m with cnt := cnt }
  else { v := true, cnt := cnt, kind := kind, qtr := qtr, row := row % 256, col := col % 256, kidx := kidx % 256 }
/-- The log as 64 bits (R205). -/
def MerrLog.word (m : MerrLog) : Nat :=
  m.v.toNat * 2 ^ 63 + m.cnt * 2 ^ 48 + m.kind * 2 ^ 44 + m.qtr * 2 ^ 40 + m.row * 2 ^ 32 + m.col * 2 ^ 24 + m.kidx * 2 ^ 16
/-- The log cleared. -/
def MerrLog.clear : MerrLog := ⟨false, 0, 0, 0, 0, 0, 0⟩

/-- The elements of A that a POISON line gave (R203): row and k. -/
def poisoned (w : MatWord) (d da : Desc) (lines : List Line) : List (Nat × Nat) :=
  (List.range d.m).flatMap fun i => (List.range d.k).filterMap fun k =>
    if (aElem w { da with k := d.k, m := d.m } lines i k).2 then some (i, k) else none

/-- The quarter that computes a cell: the spec does not say which (R205). -/
def computingQuarter (row col : Nat) : Nat := (Config.freeOf 0x205 (row * 256 + col)).toNat % 4

/-! ### Order in the accumulator store (R190) -/

/-- An instruction that stands in the order of a workgroup's accumulator cells. -/
def usesAcc : Instr → Bool
  | .accld .. => true | .accst .. => true | .accz .. => true | .acccp .. => true | .acccv .. => true
  | .mred .. => true | .mrsc .. => true | _ => false

/-- An operation of the workgroup on the core that issued earlier is not complete (R190). -/
def State.accPending (s : State) (wgn core id : Nat) : Bool :=
  (s.ops.any fun p => decide (p.1 < id) && p.2.wg == wgn && p.2.core == core && usesAcc p.2.instr && !p.2.done) ||
  (s.mops.any fun p => decide (p.1 < id) && p.2.wg == wgn &&
    (match s.wg? wgn with | some g => p.2.cores.any fun c => g.cores[c]? == some core | none => false))

/-! ### Events of the matrix engine -/

/-- MATRIX_OPERAND_READ (R201, R202): the engine reads the B string and the scales of a member, and on the quarter-0 member
of a supplying core also A, unless a line of it is EMPTY. -/
def execMatrixOperandRead (mop core q : Nat) (s : State) : Host.Outcome State Fault Refusal :=
  match FMap.get? s.mops mop with
  | none => .next s
  | some m =>
    match m.word?, memberAt m.members core q with
    | some w, some x =>
      let k := 4 * core + q
      let (s1, m1) :=
        if m.read.contains k then (s, m)
        else
          let m1 := { m with read := m.read ++ [k] }
          ({ s.releaseMember x with mops := FMap.set s.mops mop m1 }, m1)
      if q = 0 then
        match m.descs.find? fun y => y.1 == core with
        | some (_, d) =>
          if d.pc = 0 then
            let s2 := s1.readA mop m1 core w d
            .next (s2.pumpGang m.wg)
          else .next s1
        | none => .next s1
      else .next s1
    | _, _ => .next s

/-- Every supplying core's A has been read. -/
def MatOp.aReady (m : MatOp) : Bool := m.descs.all fun x => x.2.pc != 0 || (FMap.get? m.aLines x.1).isSome

/-- A matrix operation completes (R200, R201, R203): every cell of every core is written, the substitutions are logged, the soft errors counted (R435), and
each member's counter retires it. How the POISON elements of A are logged is the model's choice (DESIGN CHOICE, log 136). -/
def State.completeMatrix (s : State) (id : Nat) (errs : List MatErr) : State :=
  match FMap.get? s.mops id with
  | none => s
  | some m =>
    match m.word?, s.wg? m.wg with
    | some w, some g =>
      let ds := m.descs
      let coreOf := fun c => g.cores.getD c 0
      if !(m.aReady && m.members.all (fun p => m.read.contains p.1) && ds.all fun x => !s.accPending m.wg (coreOf x.1) id) then s
      else
        let s1 := ds.foldl (fun t x =>
          let d := x.2
          let (sa, da) := (tileCore ds d.pr 0).getD (x.1, d)
          let bad := poisoned w d da (FMap.getD m.aLines sa [])
          let own := errs.filter fun e => e.core == x.1 && decide (1 ≤ e.kind ∧ e.kind ≤ 4)
          let u := t.modCore (coreOf x.1) fun k =>
            let l1 := match bad with
              | [] => k.merr
              | (i, kk) :: _ => k.merr.note 5 (computingQuarter (d.row0 + i) d.col0) (d.row0 + i) d.col0 kk bad.length
            { k with acc := matCells m w k.acc x.1 d errs,
                     merr := own.foldl (fun l e => l.note e.kind (computingQuarter e.row e.col) e.row e.col e.kidx 1) l1 }
          if own.isEmpty then u else u.countBy 0x16 (coreOf x.1 / 48) own.length) s
        let s2 := { s1 with mops := FMap.erase s1.mops id }
        m.members.foldl (fun t p => t.modWave p.2.wave fun w => w.completeOp 1 p.2.op) s2
    | _, _ => s

/-! ### Reductions over validity masks (R210 to R212) -/

/-- Cells of a block (R210). -/
def blockCells (bf : Bool) : Nat := if bf then 96 else 48
/-- Blocks of a window (R210). -/
def winBlocks (v : Nat) : Nat := bits v 16 7 + 1
/-- The first cell index of a window (R210). -/
def winCell (v : Nat) : Nat := 192 * bits v 0 8 + bits v 8 8
/-- The window is legal and its cells are owned (R211). -/
def winOk (g : Workgroup) (v : Nat) (bf : Bool) : Bool :=
  bits v 23 9 == 0 && decide (192 * g.acc0 ≤ winCell v) &&
  decide (winCell v + winBlocks v * blockCells bf ≤ 192 * (g.acc0 + g.accN))

/-- The count byte of block `t` (R210). -/
def countByte (r : Row) (t : Nat) : Nat := bits (Row.lane r (t / 4)).toNat (8 * (t % 4)) 8
/-- The row with the count bytes of the first `nb` blocks replaced. -/
def setCounts (r : Row) (nb : Nat) (f : Nat → Nat) : Row :=
  Row.ofLanes fun L => BitVec.ofNat 32 (((List.range 4).map fun b =>
    let t := 4 * L + b
    (if t < nb then f t else countByte r t) * 2 ^ (8 * b)).foldl (· + ·) 0)

/-- MRED (R210, R211). -/
def execMred (c : Ctl) (bf init : Bool) (d a b r : Reg) (s : State) : Host.Outcome State Fault Refusal :=
  onIssue c (dstGroup d 1) s fun x =>
    if x.act = 0 then x.done s x.w
    else if !x.w.roomReady (dstGroup d 1) || x.w.full 1 then s
    else
      let ok := match s.wg? x.w.wg with
        | some g => winOk g (x.u a) bf && x.u b % 16 == 0 && decide (x.u b + winBlocks (x.u a) * 192 ≤ s.padSize x) &&
            decide (x.u r + ceilDiv (winBlocks (x.u a)) 8 ≤ s.padSize x)
        | none => false
      let y := { x with act := LaneMask.all }
      let i : Instr := .mred c bf init d a b r
      if ok then
        let (id, s1) := y.addOp s c i (dstGroup d 1)
          [x.row d, Row.splat (BitVec.ofNat 32 (x.u a)), Row.splat (BitVec.ofNat 32 (x.u b)), Row.splat (BitVec.ofNat 32 (x.u r))]
          ((dstGroup d 1).map fun _ => Row.zero) 0 0 false
        s1.modWave x.key fun w => w.enter 1 id 0
      else
        let (id, s1) := y.addOp s c i (dstGroup d 1) [] ((dstGroup d 1).map fun q => (x.w.makeRoom (dstGroup d 1)).latest q) 0 0 true
        s1.modWave x.key fun w => ((w.enter 1 id 0).completeOp 1 id).raise wCVE

/-- MRSC (R212). -/
def execMrsc (c : Ctl) (bf : Bool) (a b r : Reg) (s : State) : Host.Outcome State Fault Refusal :=
  onIssue c [] s fun x =>
    if x.act = 0 then x.done s x.w
    else if x.w.full 1 then s
    else
      let ok := match s.wg? x.w.wg with | some g => winOk g (x.u a) bf | none => false
      if ok then
        let (id, s1) := x.addOp s c (.mrsc c bf a b r) [] [x.row b, Row.splat (BitVec.ofNat 32 (x.u a)), Row.splat (BitVec.ofNat 32 (x.u r))] [] 0 0 false
        s1.modWave x.key fun w => w.enter 1 id 0
      else
        let (id, s1) := s.fresh
        x.done s1 (((x.w.enter 1 id 0).completeOp 1 id).raise wCVE)

/-- A scalar captured at issue: the same in every lane. -/
def Op.scalar (o : Op) (k : Nat) : Nat := (Row.lane (o.srcs.getD k []) 0).toNat

/-- A line of a byte range is EMPTY. -/
def rangeEmpty (g : Workgroup) (ci off n : Nat) : Bool :=
  n != 0 && (List.range (ceilDiv (off + n) 128 - off / 128)).any fun i => (g.line ci (off / 128 + i)).st == .empty

/-- An accumulator or reduction operation may be performed now (R182, R190, R212). -/
def State.accTurn (s : State) (id : Nat) (o : Op) : Bool :=
  !o.done && !s.phasePending o.wave id && !s.olderPending o.wave id .pad && !s.olderOwn o.wave id && !s.accPending o.wg o.core id

/-- MRED performed (R211), with the element errors the environment gives (kind 6). Its entries of the log name the quarter of the issuing wave (DESIGN
CHOICE, log 16). -/
def State.performMred (s : State) (id : Nat) (o : Op) (bf init : Bool) (errs : List MatErr) : State :=
  match s.wg? o.wg with
  | none => s
  | some g =>
    let ci := g.coreIdx o.core
    let win := o.scalar 1
    let nb := winBlocks win
    let src := o.scalar 2
    let mask := o.scalar 3
    if !s.accTurn id o || rangeEmpty g ci src (nb * 192) || rangeEmpty g ci mask (ceilDiv nb 8) then s
    else
      let valid := fun t => match g.spRead ci (mask + t / 8) 1 with | b :: _ => b.getLsbD (t % 8) | [] => false
      let E := blockCells bf
      let es := if bf then 2 else 4
      let lost := fun t e => (errs.any fun m => m.kind == 6 && m.kidx == t && (m.row * 192 + m.col) == winCell win + t * E + e)
      let elem := fun t e =>
        if lost t e then XR.zero false
        else dec (if bf then .bf16 else .f32) (leNat ((List.range es).map fun k => (g.spRead ci (src + 192 * t + e * es + k) 1).headD 0))
      let acc1 := (List.range nb).foldl (fun acc t =>
        (List.range E).foldl (fun acc e =>
          let key := winCell win + t * E + e
          if init then FMap.set acc key (if valid t then BitVec.ofNat 32 (roundRn (elem t e) .f32) else 0)
          else if valid t then
            FMap.set acc key (BitVec.ofNat 32 (roundRn (xsum [dec .f32 (FMap.getD acc key 0).toNat, elem t e]) .f32))
          else acc) acc) (s.core o.core).acc
      let bad := (List.range nb).flatMap fun t => if valid t then (List.range E).filterMap fun e =>
        if (g.line ci ((src + 192 * t + e * es) / 128)).st == .poison then some (winCell win + t * E + e, t) else none else []
      let old := o.srcs.getD 0 Row.zero
      let counts := setCounts old nb fun t => if init then (valid t).toNat else min 255 (countByte old t + (valid t).toNat)
      let qtr := waveQtr o.wave
      let log1 := match bad with
        | [] => (s.core o.core).merr
        | (x, t) :: _ => (s.core o.core).merr.note 7 qtr (x / 192) (x % 192) t bad.length
      let own := errs.filter fun m => m.kind == 6
      let log2 := own.foldl (fun l m => l.note 6 qtr m.row m.col m.kidx 1) log1
      let s0 := if own.isEmpty then s else s.countBy 0x16 (o.core / 48) own.length
      let s1 := s0.modCore o.core fun k => { k with acc := acc1, merr := log2 }
      ((s1.modOp id fun o => { o with vals := [counts], todo := 0, done := true }).ownerMod o.wave o.gen fun w => w.completeOp 1 id).pumpAll o.wave

/-- MRSC performed (R212). -/
def State.performMrsc (s : State) (id : Nat) (o : Op) (bf : Bool) : State :=
  if !s.accTurn id o then s
  else
    let win := o.scalar 1
    let nb := winBlocks win
    let n := o.scalar 2 % 256
    let E := blockCells bf
    let cnt := fun t => countByte (o.srcs.getD 0 Row.zero) t
    let acc1 := (List.range nb).foldl (fun acc t =>
      (List.range E).foldl (fun acc e =>
        let key := winCell win + t * E + e
        let v := FMap.getD acc key 0
        FMap.set acc key (if cnt t = 0 ∨ n = 0 then 0 else BitVec.ofNat 32 (roundRn (XR.scale (dec .f32 v.toNat) n (cnt t)) .f32))) acc)
      (s.core o.core).acc
    let zero := n == 0 || (List.range nb).any fun t => cnt t == 0
    let s1 := (s.modCore o.core fun k => { k with acc := acc1 }).modOp id fun o => { o with todo := 0, done := true }
    let s2 := s1.ownerMod o.wave o.gen fun w => (if zero then w.raise wMZC else w).completeOp 1 id
    (s2.reap id).pumpAll o.wave

/-- MATRIX_COMPLETE (R201, R203, R211, R212): of a matrix operation, an MRSC or an MRED. One of a saved workgroup is performed after its
restore (R383). -/
def execMatrixComplete (mop : Nat) (errs : List MatErr) (s : State) : Host.Outcome State Fault Refusal :=
  match FMap.get? s.ops mop with
  | some o =>
    match o.instr with
    | .mrsc _ bf _ _ _ => .next (if (s.wave? o.wave).isSome then s.performMrsc mop o bf else s)
    | .mred _ bf init _ _ _ _ => .next (if (s.wave? o.wave).isSome then s.performMred mop o bf init errs else s)
    | _ => .next s
  | none => .next (s.completeMatrix mop errs)

/-! ### MERR, planes and scales (R204 to R209) -/

/-- MERR (R204). -/
def execMerr (c : Ctl) (d : Reg) (s : State) : Host.Outcome State Fault Refusal :=
  laterOp c (.merr c d) (dstGroup d 2) s (fun _ => []) (fun _ => 0) (fun _ => none) fun _ _ t => t

/-- MERR performed (R204): after the workgroup's earlier matrix operations on the core, the log is read and cleared. -/
def State.performMerr (s : State) (id : Nat) (o : Op) : State :=
  let busy :=
    (s.mops.any fun p => decide (p.1 < id) && p.2.wg == o.wg &&
      (match s.wg? o.wg with | some g => p.2.cores.any fun c => g.cores[c]? == some o.core | none => false)) ||
    (s.ops.any fun p => decide (p.1 < id) && p.2.wg == o.wg && p.2.core == o.core && !p.2.done &&
      (match p.2.instr with | .mred .. => true | .mrsc .. => true | _ => false))
  if busy then s
  else
    let v := (s.core o.core).merr.word
    (s.modCore o.core fun k => { k with merr := MerrLog.clear }).modOp id fun o =>
      o.finishAll [BitVec.ofNat 32 v, BitVec.ofNat 32 (v / 2 ^ 32)] 0

/-- PLPACK (R206). -/
def execPlpack (c : Ctl) (p : BitVec 3) (d a : Reg) (s : State) : Host.Outcome State Fault Refusal :=
  varOp c (.plpack c p d a) d 1 s fun x =>
    let code := fun e => bits (x.v (nextReg a (e / 128)) (e % 128 / 4)).toNat (8 * (e % 4)) 8
    ([Row.ofLanes fun L => BitVec.ofNat 32 (((List.range 32).map fun k =>
      if (code (32 * L + k)).testBit (7 - p.toNat) then 2 ^ k else 0).foldl (· + ·) 0)], 0)

/-- PLUNPK (R207). -/
def execPlunpk (c : Ctl) (k : BitVec 3) (val : Bool) (d a : Reg) (stride : BitVec 8) (chunk : BitVec 3) (s : State) :
    Host.Outcome State Fault Refusal :=
  varOp c (.plunpk c k val d a stride chunk) d 1 s fun x =>
    let planes := k.toNat + 2
    let row := fun p =>
      let r := a.toNat + p * stride.toNat
      if r ≤ 254 ∧ r < allocated x.w.nregs then x.row (BitVec.ofNat 8 r) else Row.zero
    let bit := fun p e => (Row.lane (row p) (e / 32)).getLsbD (e % 32)
    let byte := fun L y =>
      let e := 128 * chunk.toNat + 4 * L + y
      let m := ((List.range planes).map fun p => if 0 < p ∧ bit p e then 2 ^ (7 - p) else 0).foldl (· + ·) 0
      if val then wrapN (nestedVal (bit 0 e) m planes) 8 else (if bit 0 e then 128 else 0) + m
    ([Row.ofLanes fun L => BitVec.ofNat 32 (((List.range 4).map fun y => byte L y * 2 ^ (8 * y)).foldl (· + ·) 0)], 0)

/-- T of a target (R208). -/
def scaleTop : ScaleTgt → Nat | .n => 127 | .e4 => 448 | .e5 => 57344

/-- BSCALE of one value (R208). -/
def bscaleCode (tgt : ScaleTgt) (v : Nat) : Nat :=
  match dec .f32 v with
  | .nan => 0xFF
  | .inf _ => 0xFF
  | .fin _ n d =>
    if n = 0 then 0
    else ((List.range 0xF0).map (· + 8)).find? (fun code => match sc8Val code with
      | .fin a b => decide (n * b ≤ a * (d * scaleTop tgt)) | _ => false) |>.getD 0xF7

/-- BSCALE (R208). -/
def execBscale (c : Ctl) (tgt : ScaleTgt) (d a : Reg) (s : State) : Host.Outcome State Fault Refusal :=
  varOp c (.bscale c tgt d a) d 1 s fun x => ([Row.ofLanes fun L => BitVec.ofNat 32 (bscaleCode tgt (x.v a L).toNat)], 0)

/-- SCCV of one value: the byte and its flags (R209). -/
def sccvByte (tgt : ScaleTgt) (sat : Bool) (m : RMode) (v code : Nat) : Nat × BitVec 12 :=
  let a := dec .f32 v
  match tgt with
  | .n =>
    match sc8Val code, a with
    | .invalid, _ => (0, fNV)
    | _, .nan => (0, fNV)
    | .zero, _ => (0, 0)
    | _, .inf sg => ((if sg then 128 else 0) + 127, fNV)
    | .fin sn sd, .fin sg n d =>
      let q := roundDiv m sg (n * sd) (d * sn)
      if 127 < q then ((if sg then 128 else 0) + 127, fOF ||| fNX)
      else ((if sg ∧ q ≠ 0 then 128 else 0) + q, flagIf (q * (d * sn) != n * sd) fNX)
  | _ =>
    let f := if tgt = .e4 then FFmt.f8e4 else FFmt.f8e5
    match sc8Val code with
    | .invalid => (cnan f, fNV)
    | .zero => (0, 0)
    | .fin sn sd =>
      let (b, fl) := roundFmt (XR.scale a sd sn) f m sat
      (b, fl ||| snanFlag .f32 [v])

/-- SCCV (R209). -/
def execSccv (c : Ctl) (tgt : ScaleTgt) (sat : Bool) (m : RMode) (dby sby : BitVec 2) (d a b : Reg) (s : State) :
    Host.Outcome State Fault Refusal :=
  varOp c (.sccv c tgt sat m dby sby d a b) d 1 s fun x =>
    let g := fun L => sccvByte tgt sat m (x.v a L).toNat (bits (x.v b L).toNat (8 * sby.toNat) 8)
    let lo := 8 * dby.toNat
    ([Row.ofLanes fun L =>
        (x.v d L &&& ~~~((0xFF : Word) <<< lo)) ||| (BitVec.ofNat 32 (g L).1 <<< lo)],
      (LaneMask.lanes x.act).foldl (fun acc L => acc ||| (g L).2) 0)

end Sys2Proof.Machine
end

