-- ==== Sys2Proof/Machine/Control.lean ====
section
/-! DEFINITION. Clause starts and the control instructions (spec/02 R26 to R37; spec/05 R101 to R122). -/

namespace Sys2Proof.Machine

/-! ### The run (R28) -/

/-- The eligible lanes of a wave (R28). -/
def Wave.eligible (w : Wave) : LaneMask :=
  LaneMask.ofPred fun L => match w.pct[L]? with | some e => !e.x && !e.blk | none => false

/-- The skip count of a lane (R27). -/
def Wave.skipOf (w : Wave) (L : Nat) : Nat := match w.pct[L]? with | some e => e.skip | none => 0

/-- The lanes of the run at a PC. -/
def Wave.runAt (w : Wave) (pc : Nat) : LaneMask := LaneMask.ofPred fun L => w.eligible.getLsbD L && w.pcOf L == pc

/-- The run that a clause start takes (R28): the greatest count of 16 or more, else the lowest PC; ties by the lowest PC. -/
def Wave.chooseRun (w : Wave) : Option (Nat × LaneMask) :=
  let ls := LaneMask.lanes w.eligible
  let better := fun (a b : Nat) =>
    let ca := w.skipOf a
    let cb := w.skipOf b
    if 16 ≤ max ca cb then (if ca = cb then decide (w.pcOf a < w.pcOf b) else decide (cb < ca)) else decide (w.pcOf a < w.pcOf b)
  match ls with
  | [] => none
  | l :: t =>
    let best := t.foldl (fun acc x => if better x acc then x else acc) l
    some (w.pcOf best, w.runAt (w.pcOf best))

/-- The PC table after a clause start: `SKIP` of the run is 0, of every other eligible thread one more, at most 63 (R27, R28). -/
def Wave.countSkips (w : Wave) (run : LaneMask) : Wave :=
  w.setPcs w.eligible fun L e => { e with skip := if run.has L then 0 else min 63 (e.skip + 1) }

/-! ### The clause fetch (R83, R84, R375, R376) -/

/-- A parked fetch of a wave. -/
def State.fetchParked (s : State) (key : Nat) : Bool :=
  s.dies.any fun d => d.2.reqs.any fun r => match r.2.kind with | .fetch k _ _ => k == key | _ => false

/-- A 192-byte line as a core's L1 gives it, sector by sector (R84). -/
def State.coreLine (s : State) (core pa : Nat) : List Byte × State :=
  (List.range 4).foldl (fun acc k =>
    let (d, t) := acc.2.coreSector core (pa / 48 + k) false
    (acc.1 ++ d, t)) ([], s)

/-- A fetch of a line of fabric memory is under way. -/
def State.fabricAsked (s : State) (core ctx pa : Nat) : Bool :=
  match if bits pa 48 4 = 15 then s.aperture? ctx pa else none with
  | some a => s.fabricReqs.any fun r => r.2.fetch && r.2.isLine core a.pkg a.win (bits pa 0 40) && r.2.acc.offset == bits pa 0 40
  | none => false

/-- A line of fabric memory asked of its target for a fetch: at hand, or on its way. -/
def State.fabricFetch (s : State) (core ctx pa : Nat) : Option (List Byte) × State :=
  match s.aperture? ctx pa with
  | none => (some (List.replicate 192 0), s.countUnbacked none (core / 48))
  | some a =>
    match s.fabricRead? core a (fabClass pa) (bits pa 0 40) 192 with
    | some bs => (some bs, s)
    | none =>
      if s.fabricAsked core ctx pa then (none, s)
      else (none, s.fabricSend { plainReq (plainAccess a 0 (bits pa 0 40) 192 (s.ctxProt ctx)) a.pkg core ctx pa with fetch := true })

/-- A clause's line must come from a throttled row whose activation is not the fetch's to take (R404). -/
def State.fetchHeld (s : State) (key pa : Nat) : Bool :=
  s.rowShut (.fetch key 0 0) pa && (List.range 4).any fun i => !s.coreHas (waveCore key) (pa / 48 + i) && s.missesHome (pa + 48 * i)

/-- The line that holds a clause, as the wave fetches it for a run at a PC: `none` while the fetch is parked or under way. `on` is the die whose cellar
held the fetch, at its replay (R380, R385). -/
def State.fetchLine (s : State) (key : Nat) (w : Wave) (pc : Nat) (run : LaneMask) (on : Option Nat := none) : Option (List Byte) × State :=
  let core := waveCore key
  let die := on.getD (waveDie key)
  let va := pc / 16 * 16
  let line := fun (t : State) (pa : Nat) =>
    match t.backing pa with
    | .fabric _ _ => t.fabricFetch core w.ctx pa
    | .none home => if w.priv then (some (fitBytes 192 (Config.firmwareLine t.tick pa)), t) else (some (List.replicate 192 0), t.countUnbacked home die)
    | _ =>
      if t.fetchHeld key pa then (none, t.joinRow (.fetch key 0 0) pa)
      else let (d, u) := t.coreLine core pa; (some d, u)
  if w.priv then line s ((va - va % 192) % 2 ^ 52)
  else
    match s.ctx? w.ctx with
    | none => (none, s)
    | some c =>
      match if on.isSome then none else s.lastOn key (va / pageBytes) run s.nextId with
      | some (d, rid, r) => (none, s.parkBehind d rid r (.fetch key pc run) va .fetch)
      | none =>
        match translate s (some core) die c va .fetch with
        | (.ok pa, t) => line t (pa - va % 192)
        | (.error f, t) => (none, t.park die (.fetch key pc run) w.ctx c va f .fetch (some key) w.gen)

/-- The word at byte offset `o` of a line (R4, R33). -/
def lineWord (line : List Byte) (o : Nat) : BitVec 80 := wordOfBytes (line.drop o)

/-! ### The active set (R29) -/

/-- The fetch of a wave's next clause, at a virtual address, waits for fabric memory or for a throttled row. -/
def State.fetchWaits (s : State) (key : Nat) (w : Wave) (va : Nat) : Bool :=
  let waits := fun (pa : Nat) => s.fabricAsked (waveCore key) w.ctx pa || s.fetchHeld key pa
  if w.priv then waits ((va - va % 192) % 2 ^ 52)
  else
    match s.ctx? w.ctx with
    | some c => match (translate s (some (waveCore key)) (waveDie key) c va .fetch).1 with
      | .ok pa => waits (pa - va % 192)
      | .error _ => false
    | none => true

/-- A wave could start its next clause, or go on with one, as far as is known before its fetch (R29). One in the middle of a clause counts (R106;
DESIGN CHOICE, log 124). -/
def State.couldStart (s : State) (key : Nat) (w : Wave) : Bool :=
  w.stop == .running && !s.idling key &&
  (w.clause.isSome ||
    (!s.fetchParked key &&
      match w.chooseRun with
      | none => false
      | some (pc, run) =>
        match (s.fetchLine key w pc run).1 with
        | none => !s.fetchWaits key w (pc / 16 * 16)
        | some line =>
          match decode (lineWord line (pc / 16 * 16 % 192)) with
          | .ok (.hdr _ _ wait _ _) => !w.anyBusy wait
          | _ => true))

/-- The resident waves of the quarter of a wave. -/
def State.quarterWaves (s : State) (key : Nat) : FMap Wave := s.waves.filter fun p => p.1 / 16 == key / 16

/-- Some resident wave outside the active set could start a clause (R29). -/
def State.othersCould (s : State) (key : Nat) : Bool :=
  (s.quarterWaves key).any fun p => p.1 != key && !p.2.active && s.couldStart p.1 p.2

/-- Some other resident wave of the quarter could start a clause (R106). -/
def State.anyCould (s : State) (key : Nat) : Bool := (s.quarterWaves key).any fun p => p.1 != key && s.couldStart p.1 p.2

/-- A wave leaves the active set (R29). That it waits to start a clause from now on, blocked or with a busy flag too, is the model's choice (DESIGN
CHOICE, log 134). -/
def State.leaveActive (s : State) (key : Nat) : State :=
  s.modWave key fun w => { w with active := false, starts := 0, waitSince := s.tick }

/-- The active set of a quarter brought up to date (R29): waves that cannot start leave, and a wave after eight counted
starts; each free place goes to the wave that has waited longest, of several to the first by slot (DESIGN CHOICE, log 103). -/
def State.fillActive (s : State) (key : Nat) : State :=
  let s1 := (s.quarterWaves key).foldl (fun t p =>
    if p.2.active && p.2.clause.isNone && (!t.couldStart p.1 p.2 || 8 ≤ p.2.starts) then t.leaveActive p.1 else t) s
  (List.range 4).foldl (fun t _ =>
    let ws := t.quarterWaves key
    if 4 ≤ (ws.filter fun p => p.2.active).length then t
    else
      match ws.filter fun p => !p.2.active && t.couldStart p.1 p.2 with
      | [] => t
      | p :: l =>
        let q := l.foldl (fun acc x => if x.2.waitSince < acc.2.waitSince then x else acc) p
        t.modWave q.1 fun w => { w with active := true, starts := 0 }) s1

/-! ### HDR (R101, R33 to R37) -/

/-- What a wave does at a clause start before its header is looked at. -/
inductive Begin where
  /-- it does not start one: it is stopped, has no run, is not in the active set, or its fetch is parked; with the state -/
  | no (s : State)
  /-- the wave, its clause address, its run, the fetched line and the state after the fetch -/
  | yes (w : Wave) (cla : BitVec 52) (run : LaneMask) (line : List Byte) (s : State)

/-- A run whose clause fetch was resolved with POISON is supplied a clause of zero bytes, which fails the check of R36: it does not start, and
no `SKIP` changes (R28, R36, R380). Where its 20 bytes cross the line that is the first check that fails, else `SETA` = `SETB`. The threads of the run
that have not left that PC take the trap. -/
def State.zeroClause (s : State) (key pc : Nat) (run : LaneMask) : State :=
  match s.wave? key with
  | some w =>
    let here := run &&& w.runAt pc
    let s1 := s.setWave key { w with zeroFetch := none }
    if here = 0 then s1
    else if pc / 16 * 16 % 192 = 176 then s1.takeTrap key true 1 0 0 here (BitVec.ofNat 52 (pc / 16)) 0
    else s1.takeTrap key true 2 0x500 0 here (BitVec.ofNat 52 (pc / 16)) 0
  | none => s

/-- A wave comes to a clause start (R28, R29, R37, R248). -/
def State.beginClause (s : State) (key : Nat) : Begin :=
  match s.wave? key with
  | none => .no s
  | some w =>
    if w.clause.isSome || w.stop != .running then .no s
    else if w.haltReq then .no ((s.setWave key { w with haltReq := false, stop := .halted, active := false }).raiseEv (waveDie key) 1)
    else if s.fetchParked key || s.idling key then .no s
    else if let some (pc, run) := w.zeroFetch then .no (s.zeroClause key pc run)
    else
      let s1 := s.fillActive key
      match s1.wave? key with
      | none => .no s
      | some w1 =>
        if !w1.active then .no s1
        else
          match w1.chooseRun with
          | none => .no s1
          | some (pc, run) =>
            match s1.fetchLine key w1 pc run with
            | (none, s2) => .no s2
            | (some line, s2) => .yes w1 (BitVec.ofNat 52 (pc / 16)) run line s2

/-- The environment of a clause check (R36). -/
def checkEnv (s : State) (key : Nat) (w : Wave) (n : Nat) (pipes : BitVec 3) (sa sb : Nat) : CheckEnv :=
  { n := n, pipes := pipes, setA := sa, setB := sb, alloc := allocated w.nregs,
    cvn := (match s.wg? w.wg with | some g => g.cvs.length | none => 0), priv := w.priv, stream := streamCore (waveCoreIn key), pick := Config.freeChoice s.tick }

/-- HDR (R101): the clause is checked (R36), its `WAIT` flags waited for and their registers accepted (R41), and the run
starts (R28, R34). -/
def execHdr (n : BitVec 4) (pipes : BitVec 3) (wait : BitVec 12) (setA setB : BitVec 4) (s : State) : Host.Outcome State Fault Refusal :=
  match s.wave? s.cur with
  | none => .fault .noIssuingWave
  | some w0 =>
    if w0.clause.isSome then .fault .noIssuingWave
    else
      match s.beginClause s.cur with
      | .no t => .next t
      | .yes w cla run line t =>
        let key := s.cur
        let o := cla.toNat * 16 % 192
        let k := n.toNat + 1
        let hdr := lineWord line o
        let words := (List.range k).map fun j => lineWord line (o + 10 * (j + 1))
        let trap := fun (cls detail : Nat) => t.takeTrap key true cls detail hdr run cla 0
        if 192 < o + 10 * (k + 1) then .next (trap 1 0)
        else if setA = setB ∧ setA ≠ 15 then .next (trap 2 (5 * 256))
        else
          match checkSlots (checkEnv t key w k pipes setA.toNat setB.toNat) 0 words with
          | some x => .next (trap x.cls x.detail)
          | none =>
            if w.anyBusy wait then .next (t.leaveActive key)
            else
              let w1 := (w.acceptMask wait).countSkips run
              let cl : Clause := { cla := cla, n := k, setA := setA.toNat, setB := setB.toNat, slot := 0, run := run, words := words,
                                   log := [], fp := [] }
              .next (t.setWave key { w1 with clause := some cl, starts := (if t.othersCould key then w1.starts + 1 else 0) })

/-! ### Transfers (R102 to R106) -/

/-- The wave leaves its clause: each thread of the run continues at its own clause (R32, R33). -/
def Issue.leave (x : Issue) (s : State) (w : Wave) (next : Nat → BitVec 52) : State :=
  s.setWave x.key { w.endClause x.cl next with lastIssue := s.tick }
/-- The fall-through of the clause in progress (R33). -/
def Issue.fall (x : Issue) : BitVec 52 := fallThrough x.cl.cla x.cl.n
/-- The active lanes go to their targets, the others fall through. -/
def Issue.transfer (x : Issue) (s : State) (w : Wave) (tgt : Nat → BitVec 52) : State :=
  x.leave s w fun L => if x.act.getLsbD L then tgt L else x.fall
/-- The link pair written (R103): the fall-through byte address. -/
def Issue.link (x : Issue) (w : Wave) (d : Reg) : Wave :=
  let a := x.fall.toNat * 16
  (dstGroup d 2).zipIdx.foldl (fun w p => w.fixedWrite x.cl.slot x.act p.1 (Row.splat (BitVec.ofNat 32 (a / 2 ^ (32 * p.2))))) w
/-- A transfer by register: a misaligned target traps before any write (R103). -/
def byRegister (c : Ctl) (ds : List Nat) (a : Reg) (s : State) (w : Issue → Wave) : Host.Outcome State Fault Refusal :=
  onIssue c ds s fun x =>
    match (LaneMask.lanes x.act).find? fun L => x.vd a L % 16 != 0 with
    | some L => x.trap s 4 (x.vd a L)
    | none => x.transfer s (w x) fun L => BitVec.ofNat 52 (x.vd a L / 16)

/-- NOP (R102). -/
def execNop (c : Ctl) (s : State) : Host.Outcome State Fault Refusal := onIssue c [] s fun x => x.done s x.w
/-- BRA (R103, R31). -/
def execBra (c : Ctl) (hint : Hint) (off : BitVec 16) (s : State) : Host.Outcome State Fault Refusal :=
  onIssue c [] s fun x =>
    let split := hint == .uniform && x.act != 0 && x.act != x.cl.run
    x.transfer s (if split then x.w.raise wUNIV else x.w) fun _ => x.cl.cla + off.signExtend 52
/-- JMP (R103). -/
def execJmp (c : CtlL) (off : BitVec 32) (s : State) : Host.Outcome State Fault Refusal :=
  onIssue (CtlL.full c) [] s fun x => x.transfer s x.w fun _ => x.cl.cla + off.signExtend 52
/-- CALL (R103). -/
def execCall (c : CtlL) (d : Reg) (off : BitVec 32) (s : State) : Host.Outcome State Fault Refusal :=
  onIssue (CtlL.full c) (dstGroup d 2) s fun x => x.transfer s (x.link x.w d) fun _ => x.cl.cla + off.signExtend 52
/-- JMPI (R103). -/
def execJmpi (c : Ctl) (a : Reg) (s : State) : Host.Outcome State Fault Refusal := byRegister c [] a s fun x => x.w
/-- CALLI (R103): the target is read before the link is written. -/
def execCalli (c : Ctl) (d a : Reg) (s : State) : Host.Outcome State Fault Refusal :=
  byRegister c (dstGroup d 2) a s fun x => x.link x.w d
/-- RET (R103). -/
def execRet (c : Ctl) (a : Reg) (s : State) : Host.Outcome State Fault Refusal := byRegister c [] a s fun x => x.w

/-- Everything that an exit may let happen (R104, R113, R271). -/
def State.afterExit (s : State) (wgn : Nat) : State := ((s.recheckBars wgn).recheckCvs wgn).noteSwappable wgn
/-- EXIT (R104). -/
def execExit (c : Ctl) (s : State) : Host.Outcome State Fault Refusal :=
  onIssue c [] s fun x =>
    if x.act = 0 then x.leave s x.w fun _ => x.fall
    else
      ((x.leave s x.w fun _ => x.fall).modWave x.key fun w => w.setPcs x.act fun _ e => { e with x := true }).afterExit x.w.wg

/-- WAITF (R105): it does not depend on lanes. -/
def execWaitf (c : Ctl) (mask : BitVec 12) (s : State) : Host.Outcome State Fault Refusal :=
  onIssue c [] s fun x => if x.w.anyBusy mask then s else x.done s (x.w.acceptMask mask)
/-- YIELD (R106). -/
def execYieldI (c : Ctl) (s : State) : Host.Outcome State Fault Refusal :=
  onIssue c [] s fun x =>
    let s1 := x.leave s x.w fun _ => x.fall
    if x.act ≠ 0 ∧ s.anyCould x.key then s1.leaveActive x.key else s1

/-! ### Barriers (R107 to R109) -/

/-- The level a barrier names, 7 for the gang (R107, R108). -/
def Issue.level (x : Issue) (k : Kernel) (sel : BarSel) : Nat :=
  match sel with
  | .gang => 7
  | .level j => levelOf k j.toNat
  | .reg a => levelOf k (x.u a % 8)

/-- BAR, BARA and BARW (R109): performed at the issue, or, behind what it has to wait for, later (R182); a thread that is to wait blocks
meanwhile. -/
def barrier (c : Ctl) (sel : BarSel) (i : Instr) (arrive wait : Bool) (s : State) : Host.Outcome State Fault Refusal :=
  onIssue c [] s fun x =>
    let out := fun (t : State) => if wait then x.leave t x.w (fun _ => x.fall) else x.done t x.w
    match s.wg? x.w.wg with
    | none => out s
    | some g =>
      match s.kernelOf g with
      | none => out s
      | some k =>
        if x.act = 0 then out s
        else
          let level := x.level k sel
          let sc := barScope k g x.w.index x.act level
          if s.barReady x.key s.nextId x.act sc arrive then (out s).performBar x.key x.act x.w.wg g k level sc arrive wait g.ticket
          else
            -- a second arrival raises `BOV` here, not when it is performed (R121)
            let second := if arrive then s.secondArrivals x.key level x.act else 0
            let y := if second = 0 then x else { x with w := x.w.raise wBOV }
            let late := fun (t : State) => if wait then y.leave t y.w (fun _ => y.fall) else y.done t y.w
            let s1 := (late (y.addOp s { c with al := 0 } i [] [] [] 0 level false).2).modOp s.nextId fun o => { o with todo := x.act &&& ~~~second }
            let s2 := if wait then s1.modWave x.key fun w => w.setPcs x.act fun _ e => { e with blk := true, skip := 0 } else s1
            (if sc == .core then s2 else s2.drainWcb (waveCore x.key) fun _ => true).noteSwappable x.w.wg

/-- BAR (R107 to R109). -/
def execBar (c : Ctl) (sel : BarSel) (s : State) : Host.Outcome State Fault Refusal := barrier c sel (.bar c sel) true true s
/-- BARA (R107 to R109). -/
def execBara (c : Ctl) (sel : BarSel) (s : State) : Host.Outcome State Fault Refusal := barrier c sel (.bara c sel) true false s
/-- BARW (R107 to R109). -/
def execBarw (c : Ctl) (sel : BarSel) (s : State) : Host.Outcome State Fault Refusal := barrier c sel (.barw c sel) false true s

/-! ### SWAIT and SWAKE (R110, R111) -/

/-- The lowest active lane whose address is not a multiple of the access size: its address (R51). -/
def Issue.misaligned (x : Issue) (n : Nat) (ea : Nat → Nat) : Option Nat :=
  ((LaneMask.lanes x.act).find? fun L => ea L % n != 0).map ea

/-- SWAIT (R110, R111): issued behind a phase of the wave, or behind an access of a thread that reaches its word and is not under way, its threads
block and their words are checked when that is over (R182, R294). -/
def execSwait (c : Ctl) (cmp : SwCmp) (dbl : Bool) (d : Reg) (m : MemRef) (s : State) : Host.Outcome State Fault Refusal :=
  onIssue c [] s fun x =>
    let n := if dbl then 8 else 4
    match x.misaligned n (x.eaG m n) with
    | some a => x.trap s 4 a
    | none =>
      if x.act = 0 then x.leave s x.w fun _ => x.fall
      else
        let ls := LaneMask.lanes x.act
        let cmpd := fun L => BitVec.ofNat 64 (if dbl then x.vd d L else (x.v d L).toNat)
        let late := s.phasePending x.key s.nextId || ls.any fun L => s.waitBehind x.key s.nextId L (x.eaG m n L) n
        let s0 := if late then (x.addOp s { c with al := 0 } (.swait c cmp dbl d m) [] [] [] 0 0 false).2 else s
        let s1 := (x.leave s0 x.w fun _ => x.fall).modWave x.key fun w =>
          let w1 := w.setPcs x.act fun _ e => { e with blk := true, skip := 0 }
          { w1 with waits := ls.foldl (fun ws L => FMap.set ws L (.word (x.eaG m n L) dbl cmp (cmpd L))) w1.waits }
        (if late then s1 else s1.startWaits x.key ls dbl cmp (x.eaG m n) cmpd).noteSwappable x.w.wg

/-- The rows of an address, low word first. -/
def addrRows (f : Nat → Nat) : List Row :=
  [Row.ofLanes fun L => BitVec.ofNat 32 (f L), Row.ofLanes fun L => BitVec.ofNat 32 (f L / 2 ^ 32)]

/-- SWAKE (R110, R111): its flag clears when the unit has taken it (R100). -/
def execSwake (c : Ctl) (m : MemRef) (s : State) : Host.Outcome State Fault Refusal :=
  laterOp { c with al := 0 } (.swake c m) [] s (fun x => addrRows (x.eaG m 4)) (fun _ => 0)
    (fun x => (x.misaligned 4 (x.eaG m 4)).map fun a => (4, a)) fun id x t => t.pump x.key id

/-! ### GETID and GETENV (R114) -/

/-- The selector of a lane. -/
def Issue.selector (x : Issue) (sel : SrcSel) (L : Nat) : Nat := match sel with | .imm v => v.toNat | .reg r => (x.v r L).toNat

/-- A value of GETID (R114, R261, R262). -/
def getidValue (s : State) (x : Issue) (L sel : Nat) : Nat :=
  match s.wg? x.w.wg with
  | none => if sel = 0x15 then L else 0
  | some g =>
    let t := x.w.index * 32 + L
    let id := g.ident + t
    match s.kernelOf g with
    | none => 0
    | some k =>
      match sel with
      | 0x10 => id
      | 0x12 => id % 2 ^ threadBits k
      | 0x13 => id / 2 ^ threadBits k
      | 0x15 => L
      | 0x16 => x.w.index
      | 0x17 => g.pos
      | 0x18 => g.coreIdx (waveCore x.key)
      | j => if j < 6 then (match k.widths[j]? with | some wd => bits id (levelBits k j) wd | none => 0) else 0

/-- GETID (R114). -/
def execGetid (c : Ctl) (w : Bool) (d : Reg) (sel : SrcSel) (s : State) : Host.Outcome State Fault Refusal :=
  fixedOp c d (dblRegs w) s (fun x k L => BitVec.ofNat 32 (getidValue s x L (x.selector sel L) / 2 ^ (32 * k))) fun _ _ => 0

/-- A value of GETENV (R114). -/
def getenvValue (s : State) (x : Issue) (sel : Nat) : Nat :=
  let g := s.wg? x.w.wg
  match sel with
  | 0x00 => (streamCore (waveCoreIn x.key)).toNat
  | 0x01 => waveDie x.key
  | 0x02 => waveCoreIn x.key
  | 0x03 => waveQtr x.key
  | 0x04 => waveSlot x.key
  | 0x05 => match g with | some g => g.size (g.coreIdx (waveCore x.key)) | none => 0
  | 0x06 => match g with | some g => g.acc0 | none => 0
  | 0x07 => match g with | some g => g.accN | none => 0
  | 0x08 => (s.die (waveDie x.key)).cycle.toNat
  | 0x0A => ceilDiv x.w.nregs 8 * 8
  | 0x0B => match g.bind s.kernelOf with | some k => k.flg % 8 | none => 0
  | 0x0C => s.pkg
  | _ => 0

/-- GETENV (R114). -/
def execGetenv (c : Ctl) (w : Bool) (d : Reg) (sel : SrcSel) (s : State) : Host.Outcome State Fault Refusal :=
  fixedOp c d (dblRegs w) s (fun x k L => BitVec.ofNat 32 (getenvValue s x (x.selector sel L) / 2 ^ (32 * k))) fun _ _ => 0

/-! ### BRK, TRAP and ERRRD (R120, R121) -/

/-- BRK (R120). -/
def execBrk (c : Ctl) (imm : BitVec 16) (s : State) : Host.Outcome State Fault Refusal :=
  onIssue c [] s fun x => if x.act = 0 then x.done s x.w else x.trap s 8 imm.toNat
/-- TRAP (R120). -/
def execTrap (c : Ctl) (imm : BitVec 16) (s : State) : Host.Outcome State Fault Refusal :=
  onIssue c [] s fun x => if x.act = 0 then x.done s x.w else x.trap s 9 imm.toNat

/-- A fixed-latency instruction of the clause whose flags an ERRRD at this slot sees (R39, R60). -/
def Issue.sees (x : Issue) (slot : Nat) : Bool := decide (0 < x.pd) && decide (slot + x.pd ≤ x.cl.slot)
/-- `WSTAT` as an ERRRD sees it (R60, R121). -/
def Issue.status (x : Issue) : BitVec 12 :=
  match x.w.clause with
  | some cl => cl.fp.foldl (fun acc p => if x.sees p.1 then acc ||| p.2 else acc) x.w.wstat
  | none => x.w.wstat
/-- The bits of a mask cleared in what the ERRRD saw. -/
def Issue.cleared (x : Issue) (mask : BitVec 12) : Wave :=
  { x.w with
    wstat := x.w.wstat &&& ~~~mask,
    clause := x.w.clause.map fun cl => { cl with fp := cl.fp.map fun p => if x.sees p.1 then (p.1, p.2 &&& ~~~mask) else p } }
/-- ERRRD (R121). -/
def execErrrd (c : Ctl) (d : Reg) (sel : SrcSel) (s : State) : Host.Outcome State Fault Refusal :=
  onIssue c (dstGroup d 1) s fun x =>
    if x.act = 0 then x.done s x.w
    else if !x.w.roomReady (dstGroup d 1) then s
    else
      let mask := BitVec.ofNat 12 (x.selector sel x.low)
      let y := { x with w := x.cleared mask }
      (y.addOp s c (.errrd c d sel) (dstGroup d 1) [] ((dstGroup d 1).map fun _ => Row.splat (x.status.zeroExtend 32)) 0 0 true).2

end Sys2Proof.Machine
end

