-- ==== Sys2Proof/Machine/Memory.lean ====
section
/-! DEFINITION. Memory instructions (spec/08, R172 to R190): loads, stores, atomics, phases, cache maintenance, scratchpad control and the accumulator store. -/

namespace Sys2Proof.Machine

/-- Registers of a datum of an access size (R79). -/
def sizeRegs : Size → Nat | .b64 => 2 | .b128 => 4 | _ => 1
/-- The data rows of a store, captured at its issue (R176). -/
def Issue.dataRows (x : Issue) (d : Reg) (n : Nat) : List Row := (List.range n).map fun k => x.row (nextReg d k)

/-! ### The checks at issue (R173) -/

/-- Misalignment of a global access. -/
def checkGlobal (x : Issue) (n : Nat) (ea : Nat → Nat) : Option (Nat × Nat) := (x.misaligned n ea).map fun a => (4, a)


/-- `DETAIL` of a scratchpad range trap (R51). -/
def rangeDetail (ea : Int) (size : Nat) : Nat := (ea % (2 ^ 32 : Nat)).toNat + size % 2 ^ 32 * 2 ^ 32

/-- The lowest active lane that a test refuses, with its address. -/
def Issue.firstBad (x : Issue) (ea : Nat → Int) (bad : Int → Bool) : Option Int :=
  ((LaneMask.lanes x.act).find? fun L => bad (ea L)).map ea

/-- Checks of a scratchpad access: alignment, then range. -/
def checkPad (s : State) (x : Issue) (n : Nat) (ea : Nat → Int) : Option (Nat × Nat) :=
  match x.firstBad ea fun a => a % (n : Int) != 0 with
  | some a => some (4, (a % (2 ^ 64 : Nat)).toNat)
  | none =>
    let size := s.padSize x
    (x.firstBad ea fun a => decide (a < 0) || decide ((size : Int) < a + n)).map fun a => (6, rangeDetail a size)

/-- The scratchpad size behind a window address: `none` where the address itself is refused (R173). -/
def State.windowSize (s : State) (w : Wave) (a : Int) : Option Nat :=
  if a < 0 ∨ 2 ^ 28 ≤ a ∨ bits a.toNat 21 3 ≠ 0 then none
  else (s.window w.wg a.toNat).bind fun p => (s.wg? p.1).map fun g => g.size p.2.1

/-- Checks of a remote-window access (R173). Of a window address that is itself refused, `DETAIL` names size 0 (DESIGN CHOICE, log 119). -/
def checkRemote (s : State) (x : Issue) (n : Nat) (ea : Nat → Int) : Option (Nat × Nat) :=
  match x.firstBad ea fun a => a % (n : Int) != 0 with
  | some a => some (4, (a % (2 ^ 64 : Nat)).toNat)
  | none =>
    let bad := fun (a : Int) => match s.windowSize x.w a with
      | none => true
      | some size => decide (size < bits a.toNat 0 21 + n)
    (x.firstBad ea bad).map fun a => (6, rangeDetail a ((s.windowSize x.w a).getD 0))

/-! ### Loads and stores (R175 to R178) -/

/-- LDG (R175, R176). -/
def execLdg (c : Ctl) (size : Size) (na : Bool) (d : Reg) (m : MemRef) (s : State) : Host.Outcome State Fault Refusal :=
  let n := Size.bytes size
  laterOp c (.ldg c size na d m) (dstGroup d (sizeRegs size)) s (fun x => addrRows (x.eaG m n)) (fun _ => 0)
    (fun x => checkGlobal x n (x.eaG m n)) fun _ _ t => t
/-- STG (R175, R176): performed at its issue, unless it waits behind a phase or parks; its flag clears when its data is read. -/
def execStg (c : Ctl) (size : Size) (d : Reg) (m : MemRef) (s : State) : Host.Outcome State Fault Refusal :=
  let n := Size.bytes size
  laterOp { c with al := 0 } (.stg c size d m) [] s (fun x => addrRows (x.eaG m n) ++ x.dataRows d (sizeRegs size)) (fun _ => 0)
    (fun x => checkGlobal x n (x.eaG m n)) fun id x t => t.pump x.key id
/-- LDS (R175 to R177). -/
def execLds (c : Ctl) (size : Size) (d : Reg) (m : MemRef) (s : State) : Host.Outcome State Fault Refusal :=
  let n := Size.bytes size
  laterOp c (.lds c size d m) (dstGroup d (sizeRegs size)) s (fun x => addrRows fun L => (x.eaS m n L).toNat) (fun _ => 0)
    (fun x => checkPad s x n (x.eaS m n)) fun _ _ t => t
/-- STS (R175 to R177). -/
def execSts (c : Ctl) (size : Size) (d : Reg) (m : MemRef) (s : State) : Host.Outcome State Fault Refusal :=
  let n := Size.bytes size
  laterOp { c with al := 0 } (.sts c size d m) [] s
    (fun x => (addrRows fun L => (x.eaS m n L).toNat) ++ x.dataRows d (sizeRegs size)) (fun _ => 0)
    (fun x => checkPad s x n (x.eaS m n)) fun id x t => t.pump x.key id
/-- LDR (R175, R178, R289). -/
def execLdr (c : Ctl) (size : Size) (d : Reg) (m : MemRef) (s : State) : Host.Outcome State Fault Refusal :=
  let n := Size.bytes size
  laterOp c (.ldr c size d m) (dstGroup d (sizeRegs size)) s (fun x => addrRows fun L => (x.eaS m n L).toNat) (fun _ => 0)
    (fun x => checkRemote s x n (x.eaS m n)) fun _ _ t => t
/-- STR (R175, R178, R289). -/
def execStr (c : Ctl) (size : Size) (d : Reg) (m : MemRef) (s : State) : Host.Outcome State Fault Refusal :=
  let n := Size.bytes size
  laterOp { c with al := 0 } (.str c size d m) [] s
    (fun x => (addrRows fun L => (x.eaS m n L).toNat) ++ x.dataRows d (sizeRegs size)) (fun _ => 0)
    (fun x => checkRemote s x n (x.eaS m n)) fun id x t => t.pump x.key id

/-! ### Atomics (R179 to R181) -/

/-- The rows of an atomic: address, operand (two words), new value (two words). -/
def Issue.atomRows (x : Issue) (ea : Nat → Nat) (b n : Reg) : List Row := addrRows ea ++ x.dataRows b 2 ++ x.dataRows n 2

/-- ATOMG (R179 to R181). -/
def execAtomg (c : Ctl) (op : AtomOp) (dbl : Bool) (scope : Scope) (ntf : Bool) (d a b n : Reg) (s : State) :
    Host.Outcome State Fault Refusal :=
  let ea := fun (x : Issue) L => x.vd a L % 2 ^ 56
  let nb := if dbl then 8 else 4
  laterOp c (.atomg c op dbl scope ntf d a b n) (dstGroup d (nb / 4)) s (fun x => x.atomRows (ea x) b n) (fun _ => 0)
    (fun x => checkGlobal x nb (ea x)) fun _ _ t => t
/-- REDG (R179 to R181): performed at its issue, unless it waits behind a phase or parks. -/
def execRedg (c : Ctl) (op : AtomOp) (dbl : Bool) (scope : Scope) (ntf : Bool) (a b : Reg) (s : State) :
    Host.Outcome State Fault Refusal :=
  let ea := fun (x : Issue) L => x.vd a L % 2 ^ 56
  laterOp { c with al := 0 } (.redg c op dbl scope ntf a b) [] s (fun x => x.atomRows (ea x) b 255) (fun _ => 0)
    (fun x => checkGlobal x (if dbl then 8 else 4) (ea x)) fun id x t => t.pump x.key id
/-- ATOMS (R179 to R181). -/
def execAtoms (c : Ctl) (op : AtomOp) (dbl : Bool) (d a b n : Reg) (s : State) : Host.Outcome State Fault Refusal :=
  let ea := fun (x : Issue) L => (x.v a L).toNat
  let nb := if dbl then 8 else 4
  laterOp c (.atoms c op dbl d a b n) (dstGroup d (nb / 4)) s (fun x => x.atomRows (ea x) b n) (fun _ => 0)
    (fun x => checkPad s x nb fun L => (ea x L : Int)) fun _ _ t => t

/-! ### Phases (R182) -/

/-- PHASE (R182): it completes with PHASE_COMPLETE. -/
def execPhase (c : Ctl) (opt : PhaseOpt) (scope : Scope) (s : State) : Host.Outcome State Fault Refusal :=
  laterOp c (.phase c opt scope) [] s (fun _ => []) (fun _ => 0) (fun _ => none) fun _ _ t => t

/-- A publish waits for the earlier writes of its threads that are neither performed nor parked; a refresh at CORE for their earlier
accesses (R182, R293, R303). -/
def State.phaseWaits (s : State) (id : Nat) (o : Op) (opt : PhaseOpt) (sc : Scope) : Bool :=
  (opt != .ref && s.olderOps o.wave id o.lanes writesMem) || (opt != .pub && sc == .core && s.olderOps o.wave id o.lanes isAccess)

/-- An order operation ends: its flag clears, and what waited behind it is performed. -/
def State.endOrder (s : State) (id : Nat) (o : Op) : State :=
  let s1 := { s with ops := FMap.erase s.ops id }
  let s2 := match o.flag with
    | some f => s1.ownerMod o.wave o.gen fun w => w.dropFlag f
    | none => s1
  s2.pumpAll o.wave

/-- PHASE_COMPLETE (R182, R290, R293, R303). -/
def execPhaseComplete (op : Nat) (s : State) : Host.Outcome State Fault Refusal :=
  match FMap.get? s.ops op with
  | some o =>
    match o.instr with
    | .phase _ opt sc =>
      let pub := opt != .ref
      if s.phasePending o.wave op then .next s
      else
        let s1 := s.pump o.wave (op - 1)
        if s1.phaseWaits op o opt sc || (pub && s1.parkedLanes o.wave o.lanes) then .next s1
        else
          let s2 := if pub && sc != .core then s1.drainWcb o.core fun _ => true else s1
          if pub && sc != .core && s2.fabricBusy o.core then .next s2
          else
            let s3 := if pub then s2.publish o.core sc else s2
            let s4 := if opt != .pub then s3.refresh o.core sc else s3
            .next (s4.endOrder op o)
    | _ => .next s
  | none => .next s

/-! ### Cache maintenance (R183, R286, R304) -/

/-- CMAINT (R183): it completes with CMAINT_COMPLETE. -/
def execCmaint (c : Ctl) (op : MaintOp) (lvl : MaintLevel) (a b : Reg) (s : State) : Host.Outcome State Fault Refusal :=
  laterOp c (.cmaint c op lvl a b) [] s
    (fun x => (addrRows fun _ => x.ud a % 2 ^ 56) ++ [Row.splat (BitVec.ofNat 32 (x.u b))]) (fun _ => 0) (fun _ => none) fun _ _ t => t

/-- A copy in a die's L2 discarded; a pinned line is refilled from its stack and stays (R286). -/
def State.dropL2 (s : State) (die key : Nat) : State :=
  if s.pinned die (secAddr key) then s.putL2 die key (s.rawSector key) false
  else s.modDie die fun d => { d with l2 := FMap.erase d.l2 key }

/-- CMAINT on one sector (R183). -/
def State.maintSector (s : State) (core : Nat) (op : MaintOp) (lvl : MaintLevel) (key : Nat) : State :=
  let die := core / 48
  let home := s.home? (secAddr key)
  let s1 :=
    if op == .inv then s
    else
      let t := s.cleanL1 core key (lvl != .l1)
      if lvl == .l1 then t
      else
        let u := t.cleanCopy die key
        if lvl == .sys then u.cleanHome key else u
  if op == .clean then s1
  else
    let t := s1.modCore core fun c => { c with l1 := FMap.erase c.l1 key }
    if lvl == .l1 then t
    else
      let u := if home == some die then t else t.dropL2 die key
      if lvl == .sys then (match home with | some h => u.dropL2 h key | none => u) else u

/-- CMAINT on a range of physical addresses within one page: every cached sector that overlaps it. Of fabric memory the L1 holds the
only copies, and a CLEAN sends what the write-combining buffer holds of the range (R304, R323). -/
def State.maintRange (s : State) (core ctx : Nat) (op : MaintOp) (lvl : MaintLevel) (pa n : Nat) : State :=
  let inside := fun (lo hi k : Nat) => decide (lo ≤ k) && decide (k ≤ hi)
  if bits pa 48 4 = 15 then
    match s.aperture? ctx pa with
    | none => s
    | some a =>
      let off := bits pa 0 40
      let s1 := if op == .inv then s
        else s.drainWcb core fun e => e.pkg == a.pkg && e.win == a.win && decide (e.off < off + n) && decide (off < e.off + 192)
      if op == .clean then s1
      else (s1.modCore core fun c => { c with l1 := c.l1.filter fun p =>
          !([0, 1, 2].any fun cls => inside (fabKey a cls off) (fabKey a cls (off + n - 1)) p.1) }).staleReads core fun r =>
        r.pkg == a.pkg && r.acc.window == a.win && meets r.acc.offset r.acc.size off n
  else
    let within := fun (l : FMap Sector) => (FMap.keys l).filter (inside (pa / 48) ((pa + n - 1) / 48))
    let keys := dedup (within (s.core core).l1 ++ within (s.die (core / 48)).l2 ++
      (if lvl == .sys then s.dies.flatMap fun d => within d.2.l2 else []))
    keys.foldl (fun t k => t.maintSector core op lvl k) s

/-- The start and the length of a CMAINT's range. -/
def Op.maintSpan (o : Op) : Nat × Nat := (o.ea 0, (o.data 0 0).toNat)

/-- The pages of a range, from the first: virtual address and bytes within the page. -/
def pagesOf (va len : Nat) : List (Nat × Nat) :=
  if len = 0 then []
  else
    (List.range ((va + len - 1) / pageBytes - va / pageBytes + 1)).map fun i =>
      let a := if i = 0 then va else (va / pageBytes + i) * pageBytes
      (a % 2 ^ 56, min (va + len) ((va / pageBytes + i + 1) * pageBytes) - a)

/-- The permission a CMAINT needs (R183). -/
def maintAcc : MaintOp → Acc | .clean => .load | _ => .store

/-- A CMAINT goes on at its page number `aux` until it ends or parks; a CLEAN ends once the fabric has answered the core's writes
(R183, R290, R304). -/
def State.maintFrom (s : State) (id : Nat) (o : Op) (op : MaintOp) (lvl : MaintLevel) : List (Nat × Nat) → State
  | [] => if op != .inv && s.fabricBusy o.core then s else s.modOp id fun o => { o with todo := 0, done := true }
  | (va, n) :: t =>
    match s.anyWave? o.wave with
    | none => s
    | some w =>
      let next := fun (u : State) => State.maintFrom (u.modOp id fun o => { o with aux := o.aux + 1 }) id { o with walkOn := [] } op lvl t
      if w.priv then next (s.maintRange o.core w.ctx op lvl (va % 2 ^ 52) n)
      else
        match s.ctx? w.ctx with
        | none => s
        | some c =>
          match translate s (some o.core) (o.walkDie 0) c va (maintAcc op) with
          | (.ok pa, u) => next ((u.modOp id fun o => { o with walkOn := [] }).maintRange o.core w.ctx op lvl pa n)
          | (.error f, u) => u.park (o.walkDie 0) (.op id o.lanes) w.ctx c va f (maintAcc op) (some o.wave) w.gen

/-- A CMAINT goes on (R183): at its completion event, and at the replay of the page at which it parked. -/
def State.maintGo (s : State) (id : Nat) : State :=
  match FMap.get? s.ops id with
  | some o =>
    match o.instr with
    | .cmaint _ op lvl _ _ =>
      let s1 := s.maintFrom id o op lvl ((pagesOf o.maintSpan.1 o.maintSpan.2).drop o.aux)
      match FMap.get? s1.ops id with
      | some p => if p.done then s1.endOrder id p else s1
      | none => s1
    | _ => s
  | none => s

/-- A parked request of the active threads falls in a range (R303). -/
def State.parkedIn (s : State) (key : Nat) (lanes : LaneMask) (va len : Nat) : Bool :=
  s.dies.any fun p => p.2.reqs.any fun x => x.2.wave == some key &&
    (match x.2.kind with | .op _ m => m &&& lanes != 0 | _ => false) &&
    decide (va / pageBytes ≤ x.2.vpage) && decide (x.2.vpage * pageBytes < va + len)

/-- A CMAINT waits for the earlier global accesses of its threads, and one that cleans for all their writes, as a publish does
(R183, R304). -/
def State.maintWaits (s : State) (id : Nat) (o : Op) (op : MaintOp) : Bool :=
  s.olderOps o.wave id o.lanes (fun i => memClass i == .global) || (op != .inv && s.olderOps o.wave id o.lanes writesMem)

/-- CMAINT_COMPLETE (R183, R303). -/
def execCmaintComplete (op : Nat) (s : State) : Host.Outcome State Fault Refusal :=
  match FMap.get? s.ops op with
  | some o =>
    match o.instr with
    | .cmaint _ mop _ _ _ =>
      if s.phasePending o.wave op || s.opParked op != 0 then .next s
      else
        let s1 := s.pump o.wave (op - 1)
        if s1.maintWaits op o mop || s1.parkedIn o.wave o.lanes o.maintSpan.1 o.maintSpan.2 then .next s1
        else .next (s1.maintGo op)
    | _ => .next s
  | none => .next s

/-! ### PREF (R184) -/

/-- PREF (R184): it waits for the wave's earlier phases (R182); a miss drops the request. -/
def execPref (c : Ctl) (l2 : Bool) (m : MemRef) (s : State) : Host.Outcome State Fault Refusal :=
  laterOp { c with al := 0 } (.pref c l2 m) [] s (fun x => addrRows (x.eaG m 4)) (fun _ => 0) (fun _ => none)
    fun id x t => t.pump x.key id

/-! ### WAYCFG (R185, R267, R287, R288) -/

/-- A WAYCFG is refused (R185): the launch is not core-exclusive, or asks for too many ways. -/
def wayRefused (s : State) (w : Wave) (core n : Nat) : Bool :=
  match s.wg? w.wg with
  | none => true
  | some g =>
    match s.kernelOf g with
    | some k => !k.flg.testBit 2 || decide ((if streamCore (core % 48) then 30 else 14) < n)
    | none => true

/-- The ways that a listed WAYCFG of a core asks for: `none` for another operation, one that has been answered, and a refused one. -/
def Op.waysAsked (o : Op) (core : Nat) : Option Nat :=
  match o.instr with
  | .waycfg .. => if o.core = core ∧ !o.done ∧ o.aux < 2 ^ 32 then some o.aux else none
  | _ => none

/-- An older WAYCFG of the core is not complete. -/
def State.olderWaycfg (s : State) (core id : Nat) : Bool :=
  s.ops.any fun p => decide (p.1 < id) && p.2.core == core && !p.2.done && (match p.2.instr with | .waycfg .. => true | _ => false)

/-- The least number of ways that a WAYCFG issued after `id` asks for: its fall holds from its issue on (R185). -/
def State.youngerWays (s : State) (core id : Nat) : Option Nat :=
  ((s.ops.filter fun p => decide (id < p.1)).filterMap fun p => p.2.waysAsked core).foldl
    (fun acc n => some (match acc with | some m => min m n | none => n)) none

/-- The size of a workgroup's scratchpad on one of its cores set (R185, R287). -/
def Workgroup.setSize (g : Workgroup) (ci size : Nat) : Workgroup := { g with spSizes := modAt g.spSizes ci fun _ => size }

/-- The sizes a refused WAYCFG and a performed one write. -/
def wayWord (refused : Bool) (size : Nat) : Word := BitVec.ofNat 32 (size + if refused then 2 ^ 31 else 0)

/-- WAYCFG (R185): a refusal and an equal size are answered at once where nothing older is left to wait for; a smaller size holds from
the issue on, on the issuing core alone (R287). -/
def execWaycfg (c : Ctl) (d : Reg) (b : SrcB) (s : State) : Host.Outcome State Fault Refusal :=
  onIssue c (dstGroup d 1) s fun x =>
    if x.act = 0 then x.done s x.w
    else if !x.w.roomReady (dstGroup d 1) then s
    else
      let core := waveCore x.key
      let n := x.ub b x.low
      let ref := wayRefused s x.w core n
      let size := s.padSize x
      let atOnce := !s.olderWaycfg core s.nextId && !s.phasePending x.key s.nextId && (ref || n * 49152 == size)
      let (_, s1) := x.addOp s c (.waycfg c d b) (dstGroup d 1) []
        ((dstGroup d 1).map fun _ => if atOnce then Row.splat (wayWord ref size) else Row.zero) 0
        (if ref then 2 ^ 32 else n) atOnce
      if ref then s1 else s1.modWg x.w.wg fun g => g.setSize (g.coreIdx core) (min (g.size (g.coreIdx core)) (n * 49152))

/-- An access issued before still reaches the workgroup's scratchpad on a core at or above an offset, from the core itself or through
the window (R185). -/
def State.padBeyond (s : State) (id wgn core off : Nat) : Bool :=
  s.ops.any fun p => decide (p.1 < id) && !p.2.done &&
    (match memClass p.2.instr with
     | .pad => p.2.wg == wgn && p.2.core == core &&
       (match p.2.instr with
        | .lds .. => (LaneMask.lanes p.2.todo).any fun L => off ≤ p.2.ea L
        | .sts .. => (LaneMask.lanes p.2.todo).any fun L => off ≤ p.2.ea L
        | .atoms .. => (LaneMask.lanes p.2.todo).any fun L => off ≤ p.2.ea L
        | _ => true)
     | .remote => (LaneMask.lanes p.2.todo).any fun L => s.windowCore p.2.wg (p.2.ea L) == some core &&
       (match s.window p.2.wg (p.2.ea L) with | some (n, _, a) => n == wgn && decide (off ≤ a) | none => false)
     | _ => false)

/-- An engine command issued before fills the workgroup's scratchpad on a core (R185, R226 to R230). -/
def State.fillsBefore (s : State) (id wgn ci : Nat) : Bool :=
  s.cmds.any fun p => decide (p.1 < id) &&
    (let own := p.2.wg == wgn && p.2.core == ci
     match p.2.instr with
     | .cpyt _ st .. => !st && own
     | .cpyl _ dir .. => (dir == .gs || dir == .ss) && own
     | .gath _ l2 .. => !l2 && own
     | .cpyh _ put .. =>
       if put then (match s.window p.2.wg (p.2.args.getD 1 0).toNat with | some (n, c, _) => n == wgn && c == ci | none => false) else own
     | _ => false)

/-- A CPYH issued before gets bytes of the workgroup's scratchpad on a core at or above an offset, by the window (R185, R228). -/
def State.getsBefore (s : State) (id wgn ci off : Nat) : Bool :=
  s.cmds.any fun p => decide (p.1 < id) &&
    (match p.2.instr with
     | .cpyh _ false .. => (match s.window p.2.wg (p.2.args.getD 1 0).toNat with
        | some (n, c, a) => n == wgn && c == ci && decide (off < a + (p.2.args.getD 2 0).toNat) | none => false)
     | _ => false)

/-- The scratchpad of a workgroup on one of its cores after a WAYCFG to a number of ways: what lies beyond is gone, and the lines from
`from_` on are EMPTY (R185), with zero bytes (DESIGN CHOICE, log 135). -/
def Workgroup.resize (g : Workgroup) (ci size lines from_ : Nat) : Workgroup :=
  let kept := g.sp.filter fun p => p.1 / 2 ^ 20 != ci || decide (p.1 % 2 ^ 20 < lines)
  let sp := (List.range (lines - from_)).foldl (fun m i => FMap.set m (ci * 2 ^ 20 + from_ + i) ⟨LineState.empty, List.replicate 128 0⟩) kept
  { g with spSizes := modAt g.spSizes ci fun _ => size, spBases := modAt g.spBases ci fun _ => 0, sp := sp }

/-- WAYCFG_COMPLETE (R185, R288): the requests of a core in issue order, behind its wave's earlier phases (R182); growing cleans and
invalidates the added ways as cache and makes the new lines EMPTY, shrinking waits for the accesses and the engine fills in flight and gives the
ways to L1 empty. -/
def execWaycfgComplete (op : Nat) (s : State) : Host.Outcome State Fault Refusal :=
  match FMap.get? s.ops op with
  | some o =>
    match o.instr with
    | .waycfg .. =>
      if o.done then .next (s.returnOp op)
      else if s.olderWaycfg o.core op || s.phasePending o.wave op then .next s
      else
        match s.wg? o.wg with
        | none => .next s
        | some g =>
          let ci := g.coreIdx o.core
          if 2 ^ 32 ≤ o.aux then
            .next ((s.modOp op fun o => o.finishAll [wayWord true (g.size ci)] 0).returnOp op)
          else
            let new := o.aux * 49152
            let old := (s.core o.core).spWays
            let fills := s.fabricReqs.any fun r => r.2.core == o.core && r.2.acc.kind == 0
            let reads := s.locks.any fun l => l.wg == o.wg && l.core == ci && decide (new < l.hi * 128)
            if (decide (old < o.aux) && fills) || (decide (o.aux < old) && (reads || s.padBeyond op o.wg o.core new || s.fillsBefore op o.wg ci || s.getsBefore op o.wg ci new)) then .next s
            else
              let taken := (s.core o.core).l1.filter fun p => decide (p.2.way < o.aux)
              let s1 := taken.foldl (fun t p => t.cleanL1 o.core p.1 false) s
              let s2 := s1.modCore o.core fun k => { k with spWays := o.aux, l1 := k.l1.filter fun p => decide (o.aux ≤ p.2.way) }
              let s3 := match s.youngerWays o.core op with
                | none => s2.modWg o.wg fun g => g.resize ci new (o.aux * 384) (ceilDiv (g.size ci) 128)
                -- a younger request has lowered the size since: the lines of the ways there were are kept
                | some n => s2.modWg o.wg fun g => g.resize ci (min new (n * 49152)) (o.aux * 384) (max (ceilDiv (g.size ci) 128) (old * 384))
              .next ((s3.modOp op fun o => o.finishAll [wayWord false new] 0).returnOp op)
    | _ => .next s
  | none => .next s

/-! ### SPMARK and SPTEST (R186, R187) -/

/-- SPMARK (R186). -/
def execSpmark (c : Ctl) (st : LineState) (a : Reg) (b : SrcB) (s : State) : Host.Outcome State Fault Refusal :=
  laterOp c (.spmark c st a b) [] s (fun x => addrRows fun _ => x.u a) (fun x => x.ub b x.low)
    (fun x =>
      if x.u a % 128 ≠ 0 then some (4, x.u a)
      else if 0 < x.ub b x.low ∧ s.padSize x < x.u a + x.ub b x.low * 128 then some (6, rangeDetail (x.u a) (s.padSize x))
      else none) fun id x t => t.pump x.key id
/-- The offset SPTEST tests in a lane (R187). -/
def Issue.testOffset (x : Issue) (b : SrcB) (L : Nat) : Nat :=
  match b with | .reg r => (x.v r L).toNat | .imm v => v.toNat * 128
/-- SPTEST (R187). -/
def execSptest (c : Ctl) (d : Reg) (b : SrcB) (s : State) : Host.Outcome State Fault Refusal :=
  laterOp c (.sptest c d b) (dstGroup d 1) s (fun x => addrRows (x.testOffset b)) (fun _ => 0)
    (fun x => checkPad s x 1 fun L => (x.testOffset b L : Int)) fun _ _ t => t

/-! ### The accumulator store (R188 to R190) -/

/-- The cells of a window that an instruction acts on (R188): owned rows and columns 0 to 191. -/
def windowCells (g : Workgroup) (v : Nat) : List (Nat × Nat) :=
  let r0 := bits v 0 8
  let c0 := bits v 8 8
  ((List.range (bits v 16 8 + 1)).map (r0 + ·)).flatMap fun r =>
    if g.acc0 ≤ r ∧ r < g.acc0 + g.accN then
      ((List.range (bits v 24 8 + 1)).map (c0 + ·)).filterMap fun q => if q < 192 then some (r, q) else none
    else []

/-- The address of a cell's element (R189). -/
def cellAddr (v off pitch e : Nat) (rc : Nat × Nat) : Nat := off + (rc.1 - bits v 0 8) * pitch + e * (rc.2 - bits v 8 8)

/-- The checks of an instruction with a scratchpad area (R188). `DETAIL` names the offset before the pitch, and the least address out of range (R51;
DESIGN CHOICE, log 128). -/
def checkArea (s : State) (x : Issue) (a b r : Reg) (e : Nat) : Option (Nat × Nat) :=
  let off := x.u b
  let pitch := bits (x.u r) 0 20
  if off % 16 ≠ 0 then some (4, off)
  else if pitch % 16 ≠ 0 then some (4, pitch)
  else
    match s.wg? x.w.wg with
    | none => none
    | some g =>
      let size := s.padSize x
      let past := ((windowCells g (x.u a)).map (cellAddr (x.u a) off pitch e)).filter fun q => decide (size < q + e)
      match past with
      | [] => none
      | q :: t => some (6, rangeDetail ((t.foldl min q : Nat) : Int) size)

/-- An accumulator instruction issues (R188): it completes with ACCUMULATOR_COMPLETE. -/
def accIssue (c : Ctl) (i : Instr) (l : List Reg) (s : State) (check : Issue → Option (Nat × Nat)) : Host.Outcome State Fault Refusal :=
  laterOp c i [] s (fun x => l.map fun r => Row.splat (BitVec.ofNat 32 (x.u r))) (fun _ => 0) check fun _ _ t => t

/-- ACCLD (R188, R189). -/
def execAccld (c : Ctl) (a b r : Reg) (s : State) : Host.Outcome State Fault Refusal :=
  accIssue c (.accld c a b r) [a, b, r] s fun x => checkArea s x a b r 4
/-- ACCST (R188, R189). -/
def execAccst (c : Ctl) (a b r : Reg) (s : State) : Host.Outcome State Fault Refusal :=
  accIssue c (.accst c a b r) [a, b, r] s fun x => checkArea s x a b r 4
/-- ACCZ (R188, R189). -/
def execAccz (c : Ctl) (a : Reg) (s : State) : Host.Outcome State Fault Refusal := accIssue c (.accz c a) [a] s fun _ => none
/-- ACCCP (R188, R189). -/
def execAcccp (c : Ctl) (a b : Reg) (s : State) : Host.Outcome State Fault Refusal := accIssue c (.acccp c a b) [a, b] s fun _ => none
/-- ACCCV (R188, R189). -/
def execAcccv (c : Ctl) (fmt : FFmt) (sat : Bool) (m : RMode) (a b r : Reg) (s : State) : Host.Outcome State Fault Refusal :=
  accIssue c (.acccv c fmt sat m a b r) [a, b, r] s fun x => checkArea s x a b r (FFmt.bits fmt / 8)

/-- Bytes of one line written: a line written whole becomes FULL, another keeps its state (R189). -/
def Workgroup.putLine (g : Workgroup) (ci n : Nat) (bs : FMap Byte) : Workgroup :=
  let l := g.line ci n
  if bs.length = 128 then g.setLine ci n ⟨.full, bs.map Prod.snd⟩
  else g.setLine ci n { l with data := l.data.zipIdx.map fun p => (FMap.get? bs p.2).getD p.1 }

/-- Bytes by scratchpad offset written, line by line. -/
def Workgroup.putBytes (g : Workgroup) (ci : Nat) (bs : FMap Byte) : Workgroup :=
  (dedup ((FMap.keys bs).map (· / 128))).foldl
    (fun g n => g.putLine ci n ((bs.filter fun p => p.1 / 128 == n).map fun p => (p.1 % 128, p.2))) g

/-- The bytes that an ACCST or ACCCV writes: cells in order, each as `e` bytes; where they overlap, the later cell's stay (R189; DESIGN CHOICE, log 127). -/
def cellBytes (acc : FMap Word) (v off pitch e : Nat) (conv : Word → Nat) (cells : List (Nat × Nat)) : FMap Byte :=
  cells.foldl (fun m rc =>
    (leBytes e (conv (FMap.getD acc (rc.1 * 192 + rc.2) 0))).zipIdx.foldl
      (fun m p => FMap.set m (cellAddr v off pitch e rc + p.2) p.1) m) []

/-- The code of ACCCV's conversion (R189). -/
def accConvert (fmt : FFmt) (sat : Bool) (m : RMode) (v : Word) : Nat := (roundFmt (dec .f32 v.toNat) fmt m sat).1

/-- An accumulator instruction performed (R189): `none` while a line it reads is EMPTY or a line it writes is held by a reader. -/
def accEffect (s : State) (id : Nat) (o : Op) (g : Workgroup) : Option (State × Bool) :=
  let ci := g.coreIdx o.core
  let acc := (s.core o.core).acc
  let v := o.scalar 0
  let off := o.scalar 1
  let pitch := bits (o.scalar 2) 0 20
  let cells := windowCells g v
  let setAcc := fun (a : FMap Word) => s.modCore o.core fun k => { k with acc := a }
  let write := fun (e : Nat) (conv : Word → Nat) =>
    let bs := cellBytes acc v off pitch e conv cells
    if (dedup ((FMap.keys bs).map (· / 128))).any fun n => s.lineLocked id o.wg ci n then none
    else some (s.modWg o.wg fun g => g.putBytes ci bs, false)
  match o.instr with
  | .accld .. =>
    let addr := cellAddr v off pitch 4
    if cells.any fun rc => (g.line ci (addr rc / 128)).st == .empty then none
    else
      let bad := cells.any fun rc => (g.line ci (addr rc / 128)).st == .poison
      some (setAcc (cells.foldl (fun a rc => FMap.set a (rc.1 * 192 + rc.2)
        (if (g.line ci (addr rc / 128)).st == .poison then 0 else BitVec.ofNat 32 (leNat (g.spRead ci (addr rc) 4)))) acc), bad)
  | .accst .. => write 4 BitVec.toNat
  | .accz .. => some (setAcc (cells.foldl (fun a rc => FMap.set a (rc.1 * 192 + rc.2) 0) acc), false)
  | .acccp .. =>
    let dst := fun (rc : Nat × Nat) => (bits off 0 8 + (rc.1 - bits v 0 8), bits off 8 8 + (rc.2 - bits v 8 8))
    let act := cells.filter fun rc => decide (g.acc0 ≤ (dst rc).1) && decide ((dst rc).1 < g.acc0 + g.accN) && decide ((dst rc).2 < 192)
    some (setAcc (act.foldl (fun a rc => FMap.set a ((dst rc).1 * 192 + (dst rc).2) (FMap.getD acc (rc.1 * 192 + rc.2) 0)) acc), false)
  | .acccv _ fmt sat m _ _ _ => write (FFmt.bits fmt / 8) (accConvert fmt sat m)
  | _ => none

/-- ACCUMULATOR_COMPLETE (R189, R190). -/
def execAccumulatorComplete (op : Nat) (s : State) : Host.Outcome State Fault Refusal :=
  match FMap.get? s.ops op with
  | some o =>
    let s0 := s.pump o.wave (op - 1)
    match s0.wg? o.wg with
    | none => .next s0
    | some g =>
      if !s0.accTurn op o then .next s0
      else
        match accEffect s0 op o g with
        | none => .next s0
        | some (s1, bad) =>
          let s2 := s1.modOp op fun o => { o with todo := 0, done := true }
          let s3 := if bad then s2.ownerMod o.wave o.gen fun w => w.raise wEERR else s2
          .next ((s3.reap op).pumpGang o.wg)
  | none => .next s

end Sys2Proof.Machine
end

