-- ==== Sys2Proof/Machine/Engines.lean ====
section
/-! DEFINITION. The copy engine, the gleaners and the layout engine (spec/10, R219 to R231). -/

namespace Sys2Proof.Machine

/-! ### What a command says -/

/-- The opcode of an engine instruction, as `qer` reports it (R222). -/
def engOp : Instr → Nat
  | .cpyt .. => 0xB4 | .cpyl .. => 0xB5 | .cpyh .. => 0xB6 | .gath .. => 0xB7 | .scat .. => 0xB8 | .layx .. => 0xB9
  | .send .. => 0xBB | .sendl .. => 0xBC | _ => 0
/-- The queue an engine instruction goes through (R213). -/
def engQueue : Instr → Nat
  | .gath .. => 2 | .scat .. => 2 | .layx .. => 3 | .send .. => 4 | .sendl .. => 4 | _ => 1
/-- The counter class of an engine instruction (R217). -/
def engClass (i : Instr) : Nat := (queueClass (engQueue i)).getD 0

/-- An operand of a command. -/
def Cmd.arg (c : Cmd) (k : Nat) : Nat := (c.args.getD k 0).toNat
/-- A pair operand. -/
def Cmd.arg2 (c : Cmd) (k : Nat) : Nat := c.arg k + 2 ^ 32 * c.arg (k + 1)
/-- The token of a copy to memory, 0 otherwise (R222, R229). -/
def Cmd.token (c : Cmd) : Nat :=
  if State.tokensDue.owesToken c.instr then
    match c.instr with | .cpyt .. => c.arg 7 % 2 ^ 16 | _ => c.arg 5 % 2 ^ 16
  else 0
/-- The die whose translation and cellar serve a command. -/
def Cmd.die (c : Cmd) : Nat := waveDie c.wave

/-- A `qer` record for a command (R222). -/
def State.postQer (s : State) (c : Cmd) (code w2 w3 : Nat) : State :=
  s.ownerMod c.wave c.gen fun w => w.postError code (engQueue c.instr) (engOp c.instr) c.token w2 w3

/-! ### Layout records (R223, R224) -/

/-- A layout record. -/
structure TRec where
  base : Nat
  fmt : Nat
  /-- rank, 1 to 8 -/
  rank : Nat
  pad : Nat
  ovl : Bool
  ext : List Nat
  str : List Nat
  box : List Nat
  /-- a reserved bit is set -/
  reserved : Bool
  deriving DecidableEq, Repr

/-- The element size of a format code (R223); of the codes 11 to 15, which have none, 1 byte (DESIGN CHOICE, log 140). -/
def elemSize (fmt : Nat) : Nat := [1, 2, 4, 8, 16, 2, 2, 4, 8, 1, 1].getD fmt 1
/-- The float format of a format code. -/
def elemFmt (fmt : Nat) : Option FFmt :=
  match fmt with
  | 5 => some .f16 | 6 => some .bf16 | 7 => some .f32 | 8 => some .f64 | 9 => some .f8e4 | 10 => some .f8e5 | _ => none

/-- The fields of a record (R223). -/
def recOf (bs : List Byte) : TRec :=
  let r := leNat bs
  { base := bits r 0 56, fmt := bits r 64 4, rank := bits r 72 3 + 1, pad := bits r 75 2, ovl := r.testBit 77,
    ext := (List.range 5).map fun i => bits r (96 + 32 * i) 32,
    str := elemSize (bits r 64 4) :: (List.range 4).map fun i => bits r (256 + 40 * i) 40,
    box := (List.range 5).map fun i => bits r (416 + 16 * i) 16,
    reserved := bits r 496 16 != 0 || bits r 78 18 != 0 || bits r 68 4 != 0 || bits r 56 8 != 0 }

/-- The element size. -/
def TRec.s (t : TRec) : Nat := elemSize t.fmt
/-- An extent; 1 beyond the rank. -/
def TRec.e (t : TRec) (i : Nat) : Nat := if i < t.rank then t.ext.getD i 1 else 1
/-- A stride. -/
def TRec.st (t : TRec) (i : Nat) : Nat := t.str.getD i 0
/-- A box extent; a zero counts as one (R224). -/
def TRec.b (t : TRec) (i : Nat) : Nat := if i < t.rank then max 1 (t.box.getD i 1) else 1
/-- The row pitch P in the scratchpad (R224). -/
def TRec.pitch (t : TRec) : Nat := 16 * ceilDiv (t.b 0 * t.s) 16
/-- The box bytes (R224). -/
def TRec.boxBytes (t : TRec) : Nat := t.pitch * t.b 1 * t.b 2 * t.b 3 * t.b 4

/-- The first dimension, 0 to 4, that a test finds at fault. -/
def firstDim (t : TRec) (lo : Nat) (p : Nat → Bool) : Option Nat := (List.range 5).find? fun i => decide (lo ≤ i) && decide (i < t.rank) && p i

/-- The first check of R224 that fails: code, dimension. That a copy reads more planes than the tensor has (R64) has no code there, and is not reported
(DESIGN CHOICE, log 123). -/
def TRec.check (t : TRec) : Option (Nat × Nat) :=
  if t.reserved || decide (5 < t.rank) ||
      (List.range 5).any fun i => decide (t.rank ≤ i) && (t.ext.getD i 0 != 0 || t.box.getD i 0 != 0 || t.str.getD i 0 != 0) then some (0x02, 0)
  else if 11 ≤ t.fmt then some (0x03, 0)
  else if t.pad = 3 ∨ (t.pad = 2 ∧ (elemFmt t.fmt).isNone) then some (0x04, 0)
  else if t.base % max t.s 16 ≠ 0 then some (0x05, 0)
  else
    match firstDim t 0 fun i => t.ext.getD i 0 == 0 with
    | some i => some (0x06, i)
    | none =>
    match firstDim t 0 fun i => t.box.getD i 0 == 0 with
    | some i => some (0x07, i)
    | none =>
    match firstDim t 1 fun i => t.st i % t.s != 0 with
    | some i => some (0x08, i)
    | none =>
    match if t.ovl then none else firstDim t 1 fun i => decide (t.st i < t.e (i - 1) * t.st (i - 1)) with
    | some i => some (0x09, i)
    | none =>
      if 2 ^ 56 < t.base + ((List.range t.rank).map fun i => (t.e i - 1) * t.st i).foldl (· + ·) 0 + t.s then some (0x0A, 0) else none

/-! ### Pages at hand (R376, R380) -/

/-- The number under which a page is kept that was replayed for a kind of access. -/
def pageKey (va : Nat) (acc : Acc) : Nat := va / pageBytes * 8 + acc.code

/-- What a replayed page holds for its requester: its physical base, and for a read its bytes as they stand. -/
def State.snapshot (s : State) (acc : Acc) (pa va : Nat) : Nat × List Byte :=
  (pa - va % pageBytes, if acc.needsWr then [] else match s.backing pa with
    | .dev _ => s.homeRead (pa - va % pageBytes) pageBytes | .host _ _ => s.homeRead (pa - va % pageBytes) pageBytes | _ => [])

/-! ### Global accesses of a command (R219, R220, R321) -/

/-- A run of bytes in virtual memory and its place in the command's buffer. -/
structure Piece where
  va : Nat
  n : Nat
  k : Nat
  deriving DecidableEq, Repr

/-- Neighbouring pieces joined. -/
def joinPieces (l : List Piece) : List Piece :=
  (l.foldl (fun (acc : List Piece) p =>
    match acc with
    | q :: t => if q.va + q.n = p.va ∧ q.k + q.n = p.k then { q with n := q.n + p.n } :: t else p :: q :: t
    | [] => [p]) []).reverse

/-- A piece cut at the boundaries of a size. -/
def cutPiece (unit : Nat) : Nat → Piece → List Piece
  | 0, _ => []
  | fuel + 1, p =>
    if p.n = 0 then []
    else
      let m := min p.n (unit - p.va % unit)
      ⟨p.va, m, p.k⟩ :: cutPiece unit fuel ⟨p.va + m, p.n - m, p.k + m⟩

/-- Pieces cut at the pages. -/
def cutPages (l : List Piece) : List Piece := l.flatMap fun p => cutPiece pageBytes (p.n / pageBytes + 2) p

/-- The context a command's addresses are translated in; `none` for a privileged wave's. -/
def State.cmdCtx (s : State) (c : Cmd) : Option (Nat × Context) :=
  let n := match s.anyWg? c.wg with
    | some g => some g.ctx
    | none => match s.wave? c.wave with | some w => if w.priv then none else some w.ctx | none => none
  n.bind fun k => (s.ctx? k).map fun x => (k, x)
/-- Its context's number. -/
def State.cmdCtxNum (s : State) (c : Cmd) : Nat := match s.cmdCtx c with | some (k, _) => k | none => 0

/-- A part of a command that counts as resolved with POISON (R220, R279): its mark, and one record with code 0x30. -/
def State.noteMark (s : State) (id va mark : Nat) : State :=
  match FMap.get? s.cmds id with
  | none => s
  | some c =>
    (s.modCmd id fun c => { c with pois := true, poisPages := c.poisPages ++ [mark] }).postQer c 0x30 (va % 2 ^ 32) (va / 2 ^ 32 % 2 ^ 24)

/-- A page read or written by a command counts as resolved with POISON (R220, R279). -/
def State.notePoison (s : State) (id va : Nat) : State := s.noteMark id va (va / pageBytes)

/-- A parked part of a command on a page. -/
def State.cmdParked (s : State) (id page : Nat) : Bool :=
  s.dies.any fun d => d.2.reqs.any fun r => r.2.vpage == page && (match r.2.kind with | .cmd k => k == id | _ => false)
/-- Some part of a command is parked. -/
def State.cmdWaits (s : State) (id : Nat) : Bool :=
  s.dies.any fun d => d.2.reqs.any fun r => match r.2.kind with | .cmd k => k == id | _ => false

/-- One page of a command translated, whatever stands at its address: the physical address, `none` under POISON; or parked, and not
ready (R219, R220). -/
def State.engWalk (s : State) (id : Nat) (acc : Acc) (va : Nat) : Option (Option Nat) × State :=
  match FMap.get? s.cmds id with
  | none => (none, s)
  | some c =>
    if c.poisPages.contains (va / pageBytes) then (some none, s)
    else if s.cmdParked id (va / pageBytes) then (none, s)
    else
      match FMap.get? c.got (pageKey va acc) with
      | some g => (some (some (g.1 + va % pageBytes)), s)
      | none =>
        match s.cmdCtx c with
        | none => (some (some (va % 2 ^ 52)), s)
        | some (k, x) =>
          match translate s none c.die x va acc with
          | (.ok pa, t) => (some (some pa), t)
          | (.error f, t) => (none, t.park c.die (.cmd id) k x va f acc (some c.wave) c.gen)

/-- A command's parked part at its replay (R219, R220, R376, R380): its page is walked again; it parks anew if it faults, else the page is at hand, a
read one with the bytes that it holds now. -/
def State.cmdTouch (s : State) (die id : Nat) (r : Req) : State :=
  let acc := if r.acc = Acc.engWrite.code then Acc.engWrite else .engRead
  match s.ctx? r.ctx with
  | none => s
  | some x =>
    match translate s none die x r.va acc with
    | (.ok pa, t) => t.modCmd id fun c => { c with got := FMap.set c.got (pageKey r.va acc) (t.snapshot acc pa r.va) }
    | (.error f, t) => t.park die (.cmd id) r.ctx x r.va f acc r.wave r.gen

/-- One page of a command translated: its physical address, `none` under POISON and where the page is unbacked (R279). -/
def State.engPage (s : State) (id : Nat) (acc : Acc) (va : Nat) : Option (Option Nat) × State :=
  match s.engWalk id acc va with
  | (some (some pa), t) =>
    match t.backing pa with
    | .none home => (some none, (t.countUnbacked home (match FMap.get? t.cmds id with | some c => c.die | none => 0)).notePoison id va)
    | _ => (some (some pa), t)
  | r => r

/-- Bytes at physical addresses and their place in the buffer; an address `none` is a POISON page. -/
structure PPiece where
  pa : Option Nat
  va : Nat
  n : Nat
  k : Nat
  deriving DecidableEq, Repr

/-- The bytes of a piece as its replayed page gave them, else those given. -/
def snapRead (got : FMap (Nat × List Byte)) (p : PPiece) (acc : Acc) (now : List Byte) : List Byte :=
  match FMap.get? got (pageKey p.va acc) with
  | some g => if g.2.isEmpty then now else (g.2.drop (p.va % pageBytes)).take p.n
  | none => now

/-- The ranges of physical pieces that are not fabric memory. -/
def homeParts (l : List PPiece) : List (Nat × Nat) := l.filterMap fun p => p.pa.bind fun pa => if bits pa 48 4 = 15 then none else some (pa, p.n)

/-- Every page of a command's pieces translated, every miss parked: the physical pieces once all are ready. -/
def State.engMap (s : State) (id : Nat) (acc : Acc) (l : List Piece) : Option (List PPiece) × State :=
  let ps := cutPages l
  let pages := dedup (ps.map fun p => p.va / pageBytes)
  let (tr, s1) := pages.foldl (fun (a : List (Nat × Option (Option Nat)) × State) pg =>
    let va := match ps.find? fun p => p.va / pageBytes == pg with | some p => p.va | none => pg * pageBytes
    let (r, t) := a.2.engPage id acc va
    (a.1 ++ [(pg, r.map fun o => o.map fun pa => pa - va % pageBytes)], t)) ([], s)
  if tr.any fun x => x.2.isNone then (none, s1)
  else
    (some (ps.map fun p =>
      let base := ((tr.find? fun x => x.1 == p.va / pageBytes).bind fun x => x.2).join
      ⟨base.map fun b => b + p.va % pageBytes, p.va, p.n, p.k⟩), s1)

/-- Some access of a command awaits the fabric's answer. -/
def State.cmdFabric (s : State) (id : Nat) : Bool := s.fabricReqs.any fun r => r.2.op == some id

/-- A fabric line that is answered as unbacked (R279, R395, R396): its bytes count as resolved with POISON, and an empty
line stands for them; one record for each line. -/
def State.lineUnbacked (s : State) (id line va : Nat) : State :=
  match FMap.get? s.cmds id with
  | none => s
  | some c =>
    (s.modCmd id fun c => { c with pois := true, lines := FMap.set c.lines line [] }).postQer c 0x30 (va % 2 ^ 32) (va / 2 ^ 32 % 2 ^ 24)

/-- A fabric line asked of its target for a command, unless it is at hand or asked for already (R321). -/
def State.askLine (s : State) (id line va : Nat) : State :=
  match FMap.get? s.cmds id with
  | none => s
  | some c =>
    let ctx := s.cmdCtxNum c
    let core := waveCore c.wave
    match s.aperture? ctx line with
    | none => if (FMap.get? c.lines line).isSome then s else (s.countUnbacked none c.die).lineUnbacked id line va
    | some a =>
      if (FMap.get? c.lines line).isSome || s.fabricReqs.any fun r => r.2.op == some id && r.2.pa == line then s
      else s.fabricSend { plainReq (plainAccess a 0 (bits line 0 40) 192 (s.ctxProt ctx)) a.pkg core ctx line with op := some id, va := va }

/-- The parts of a physical piece that lie in fabric lines: the line, the virtual address, and the place and length of the part. -/
def PPiece.fabricLines (p : PPiece) : List (Nat × Piece) :=
  match p.pa with
  | some pa => if bits pa 48 4 = 15 then
      let base := fabricLine pa
      (cutPiece 192 (p.n / 192 + 2) ⟨pa - base, p.n, 0⟩).map fun x => (base + x.va / 192 * 192, ⟨p.va + x.k, x.n, p.k + x.k⟩)
    else []
  | none => []

/-- The data of physical pieces (R219): place, bytes, POISON; `none` while the fabric has not answered. -/
def State.engRead (s : State) (id : Nat) (l : List PPiece) : Option (List (Nat × List Byte × Bool)) × State :=
  let s1 := (l.flatMap PPiece.fabricLines).foldl (fun t x => t.askLine id x.1 x.2.va) s
  if s1.cmdFabric id then (none, s1)
  else
    match FMap.get? s1.cmds id, s1.rowGate (.cmd id) (homeParts l) with
    | none, _ => (none, s1)
    | some _, (false, s2) => (none, s2)
    | some c, (true, s2) =>
      (some (l.flatMap fun p =>
        match p.pa with
        | none => [(p.k, List.replicate p.n 0, true)]
        | some pa =>
          if bits pa 48 4 = 15 then
            p.fabricLines.map fun x =>
              let d := FMap.getD c.lines x.1 []
              (x.2.k, fitBytes x.2.n (d.drop (pa + (x.2.k - p.k) - x.1)), d.isEmpty)
          else [(p.k, snapRead c.got p .engRead (s2.homeRead pa p.n), false)]), s2)

/-- Bytes written to fabric memory by an engine: one masked write per line, past the write-combining buffer (R321). -/
def State.engFabricWrite (s : State) (id : Nat) (c : Cmd) (pa va : Nat) (bs : List Byte) : State :=
  let ctx := s.cmdCtxNum c
  (cutPiece 192 (bs.length / 192 + 2) ⟨bits pa 0 40, bs.length, 0⟩).foldl (fun t p =>
    match t.aperture? ctx pa with
    | none => (t.countUnbacked none c.die).notePoison id (va + p.k)
    | some a =>
      let o := p.va % 192
      let acc := { plainAccess a 1 (p.va - o) 192 (t.ctxProt ctx) with
        data := fitBytes 192 (List.replicate o 0 ++ (bs.drop p.k).take p.n),
        mask := (List.range 192).map fun i => decide (o ≤ i) && decide (i < o + p.n) }
      t.fabricSend { plainReq acc a.pkg (waveCore c.wave) ctx (pa + p.k) with op := some id, va := va + p.k }) s

/-- The data of physical pieces written at its home, in order (R219); what is bound for a POISON page is dropped. -/
def State.engWrite (s : State) (id : Nat) (c : Cmd) (l : List PPiece) (data : List Byte) : State :=
  l.foldl (fun t p =>
    match p.pa with
    | none => t
    | some pa =>
      let bs := (data.drop p.k).take p.n
      if bits pa 48 4 = 15 then t.engFabricWrite id c pa p.va bs else t.homeWrite pa (t.kept pa bs)) s

/-! ### The scratchpad side (R219, R221) -/

/-- `n` bytes of a scratchpad from an offset, across lines; POISON lines read zero. -/
def Workgroup.spBytes (g : Workgroup) (ci off n : Nat) : List Byte :=
  (cutPiece 128 (n / 128 + 2) ⟨off, n, 0⟩).flatMap fun p => g.spRead ci p.va p.n

/-- Bytes put into scratchpad lines whatever their state; what lies beyond a size that has fallen is discarded with the ways (R185). -/
def Workgroup.putRaw (g : Workgroup) (ci off : Nat) (bs : List Byte) : Workgroup :=
  (cutPiece 128 (bs.length / 128 + 2) ⟨off, bs.length, 0⟩).foldl (fun g p =>
    let l := g.line ci (p.va / 128)
    g.setLine ci (p.va / 128) { l with data := splice l.data (p.va % 128) ((bs.drop p.k).take p.n) }) g

/-- Lines that a byte range overlaps. -/
def linesOf (off n : Nat) : List Nat := if n = 0 then [] else (List.range ((off + n - 1) / 128 - off / 128 + 1)).map (off / 128 + ·)

/-- Lines of a byte range given a state; POISON lines read zero. Those that a WAYCFG under way takes away are among them, so that an access in
flight to them ends (R185). -/
def Workgroup.markRange (g : Workgroup) (ci off n : Nat) (st : LineState) : Workgroup :=
  (linesOf off n).foldl (fun g i =>
    let l := g.line ci i
    g.setLine ci i ⟨st, if st = .poison then List.replicate 128 0 else l.data⟩) g

/-- A fill at its completion (R220, R226): the data, then every line of the range FULL, or POISON where it received a
POISON page. -/
def Workgroup.fill (g : Workgroup) (ci off n : Nat) (segs : List (Nat × List Byte × Bool)) : Workgroup :=
  let g1 := segs.foldl (fun g x => g.putRaw ci (off + x.1) x.2.1) g
  let g2 := g1.markRange ci off n .full
  segs.foldl (fun g x => if x.2.2 then g.markRange ci (off + x.1) x.2.1.length .poison else g) g2

/-- A line of a range is held by a reader (R202, R219): `own` for a fill of a command that the workgroup issued on that core. -/
def State.rangeHeld (s : State) (id wgn ci off n : Nat) (own : Bool) : Bool := (linesOf off n).any fun i => s.lineHeld id wgn ci i own

/-- A line of a range is held by a reader against a command's own fill (R202, R219, R302). -/
def State.rangeLocked (s : State) (id wgn ci off n : Nat) : Bool := s.rangeHeld id wgn ci off n true

/-- The wave's earlier scratchpad accesses are all performed (R219, R300), those through the window among them (R289). -/
def State.padClear (s : State) (c : Cmd) (id : Nat) : Bool := !s.olderPending c.wave id .pad && !s.olderOwn c.wave id

/-! ### The end of a command -/

/-- The holds of a command on the lines it reads are over. -/
def State.unlockCmd (s : State) (id : Nat) : State := { s with locks := s.locks.filter fun l => l.owner != id }

/-- The operand registers of a command are released and its flag clears (R43, R100, R225). -/
def State.releaseCmd (s : State) (id : Nat) : State :=
  match FMap.get? s.cmds id with
  | none => s
  | some c =>
    if c.released then s
    else
      let s1 := s.modCmd id fun c => { c with released := true }
      s1.ownerMod c.wave c.gen fun w =>
        let w1 := { w with locks := FMap.erase w.locks id }
        match c.flag with | some f => w1.dropFlag f | none => w1

/-- A command completes (R217, R221, R229, R270): its token, its counter, and what waited for its lines. -/
def State.endCmd (s : State) (id : Nat) (err : Bool) : State :=
  match FMap.get? s.cmds id with
  | none => s
  | some c =>
    let s1 := (s.releaseCmd id).unlockCmd id
    let s2 :=
      if c.staging then s1.modWg c.wg fun g => { g with staging := g.staging.filter (· != id) }
      else
        s1.ownerMod c.wave c.gen fun w =>
          let w1 := if State.tokensDue.owesToken c.instr then
            { w with pop := modAt w.pop 6 fun l => l ++ [[BitVec.ofNat 32 (c.token + if err then 2 ^ 31 else 0)]] } else w
          w1.completeOp (engClass c.instr) id
    { s2 with cmds := FMap.erase s2.cmds id }.pumpGang c.wg

/-- A command's global writes have been performed: its lines are released; it ends when the fabric has answered (R219, R229). -/
def State.finishOut (s : State) (id : Nat) (pages : List Nat) (bad : Bool) : State :=
  match FMap.get? s.cmds id with
  | none => s
  | some c =>
    let s1 := ((s.modCmd id fun c => { c with sent := true }).unlockCmd id).pumpGang c.wg
    if s1.cmdFabric id then s1 else s1.endCmd id (bad || pages.any fun pg => match FMap.get? s1.cmds id with | some c => c.poisPages.contains pg | none => false)

/-- The writes of a command within one page translated already performed, and the command with them (R219, R230). -/
def State.finishWrite (s : State) (id : Nat) (l : List PPiece) (data : List Byte) : State :=
  match FMap.get? s.cmds id with
  | none => s
  | some c =>
    match s.rowGate (.cmd id) (homeParts l) with
    | (false, t) => t
    | (true, t) => (t.engWrite id c l data).finishOut id (l.map fun p => p.va / pageBytes) (l.any fun p => p.pa.isNone)

/-- The pieces of one page written for a command, if the page is ready. -/
def State.engPut (s : State) (id pg : Nat) (mine : List Piece) (data : List Byte) : State :=
  match FMap.get? s.cmds id, s.engMap id .engWrite mine with
  | some _, (some l, t) =>
    match t.rowGate (.cmd id) (homeParts l) with
    | (false, u) => u
    | (true, u) => match FMap.get? u.cmds id with
      | some c => (u.engWrite id c l data).modCmd id fun c => { c with wrote := c.wrote ++ [pg] }
      | none => u
  | _, (none, t) => t
  | none, _ => s

/-- A command's global writes performed page by page, as each page is ready (R219, R220, R376); with the last one, what follows them. -/
def State.engOut (s : State) (id : Nat) (ps : List Piece) (data : List Byte) : State :=
  let cut := cutPages ps
  let pages := dedup (cut.map fun p => p.va / pageBytes)
  let has := fun (t : State) (pg : Nat) => match FMap.get? t.cmds id with | some c => c.wrote.contains pg | none => true
  let s1 := pages.foldl (fun t pg => if has t pg then t else t.engPut id pg (cut.filter fun p => p.va / pageBytes == pg) data) s
  if pages.all (has s1) then s1.finishOut id pages false else s1

/-- A scratchpad fill performed and the command ended. -/
def State.finishFill (s : State) (id ci off n : Nat) (segs : List (Nat × List Byte × Bool)) : State :=
  match FMap.get? s.cmds id with
  | none => s
  | some c =>
    if s.rangeLocked id c.wg ci off n then s
    else (s.modWg c.wg fun g => g.fill ci off n segs).endCmd id false

/-! ### Issue (R213, R217, R225 to R231) -/

/-- An engine command issues: the checks, then its place on the push side and in its counter (R213, R217, R229). -/
def pushEngine (c : Ctl) (i : Instr) (regs : List Reg) (s : State) (args : Issue → List Word)
    (check : Issue → Option (Nat × Nat)) (locks : Issue → List (Nat × Nat)) (more : Issue → List LineLock := fun _ => []) : Host.Outcome State Fault Refusal :=
  onIssue c [] s fun x =>
    if x.act = 0 then x.done s x.w
    else
      match check x with
      | some (cls, detail) => x.trap s cls detail
      | none =>
        let q := engQueue i
        if 8 ≤ (x.w.pushed q).length || x.w.full (engClass i) ||
            (State.tokensDue.owesToken i && decide (64 ≤ s.tokensDue x.key x.w)) then s
        else
          let (id, s1) := s.fresh
          let flag := x.cl.flagOf c.al
          let w1 := match flag with | some f => x.w.takeFlag f | none => x.w
          let names := regs.filterMap fun r => if r = 255 then none else some r.toNat
          let w2 := { (w1.enter (engClass i) id q) with
            push := modAt w1.push q fun l => l ++ [PushEntry.cmd id], locks := FMap.set w1.locks id names }
          let ci := match s.wg? x.w.wg with | some g => g.coreIdx (waveCore x.key) | none => 0
          let cmd : Cmd := { wave := x.key, gen := x.w.gen, wg := x.w.wg, core := ci, instr := i, args := args x, flag := flag,
                             stage := .pushed, record := [], err := none, pois := false, poisPages := [], released := false,
                             staging := false, lines := [], sent := false, ticket := s.ticketOf x.w.wg, got := [], wrote := [] }
          { x.done s1 w2 with
            cmds := FMap.set s1.cmds id cmd,
            locks := s1.locks ++ ((locks x).filterMap fun p =>
              if p.2 = 0 then none else some ⟨id, x.w.wg, ci, p.1 / 128, ceilDiv (p.1 + p.2) 128, false⟩) ++ (more x).map fun l => { l with owner := id } }

/-- A run-wide operand as a register word. -/
def Issue.uw (x : Issue) (r : Reg) : Word := x.v r x.low

/-- CPYT (R225, R226). -/
def execCpyt (c : Ctl) (st : Bool) (a b r d : Reg) (s : State) : Host.Outcome State Fault Refusal :=
  pushEngine c (.cpyt c st a b r d) ([a] ++ (List.range 5).map (nextReg b) ++ [r] ++ (if st then [d] else [])) s
    (fun x => [x.uw a] ++ x.us b 5 ++ [x.uw r, x.uw d])
    (fun x => if x.u r % 128 ≠ 0 then some (4, x.u r)
      else if s.padSize x ≤ x.u r then some (6, rangeDetail (x.u r) (s.padSize x)) else none)
    (fun x => if st then [(x.u r, 2 ^ 28 - x.u r)] else [])

/-- Global source and global destination of a direction (R225). -/
def CopyDir.sides : CopyDir → Bool × Bool | .gs => (true, false) | .sg => (false, true) | .gg => (true, true) | .ss => (false, false)

/-- CPYL (R227). -/
def execCpyl (c : Ctl) (dir : CopyDir) (a b r d : Reg) (s : State) : Host.Outcome State Fault Refusal :=
  let (gs, gd) := CopyDir.sides dir
  let src := fun (x : Issue) => if gs then x.ud a else x.u a
  let dst := fun (x : Issue) => if gd then x.ud b else x.u b
  pushEngine c (.cpyl c dir a b r d)
    ((if gs then [a, nextReg a 1] else [a]) ++ (if gd then [b, nextReg b 1] else [b]) ++ [r] ++ (if gd then [d] else [])) s
    (fun x => [BitVec.ofNat 32 (src x), BitVec.ofNat 32 (src x / 2 ^ 32), BitVec.ofNat 32 (dst x), BitVec.ofNat 32 (dst x / 2 ^ 32), x.uw r, x.uw d])
    (fun x =>
      let size := s.padSize x
      match [src x, dst x, x.u r].find? fun v => v % 16 != 0 with
      | some v => some (4, v)
      | none =>
        if !gs && decide (size < src x + x.u r) then some (6, rangeDetail (src x) size)
        else if !gd && decide (size < dst x + x.u r) then some (6, rangeDetail (dst x) size)
        else none)
    (fun x => if gs then [] else [(src x, x.u r)])

/-- CPYH (R228): the checks of R173 with the whole range. -/
def execCpyh (c : Ctl) (put : Bool) (a b r : Reg) (s : State) : Host.Outcome State Fault Refusal :=
  pushEngine c (.cpyh c put a b r) [a, b, r] s (fun x => [x.uw a, x.uw b, x.uw r])
    (fun x =>
      let size := s.padSize x
      if size < x.u a + x.u r then some (6, rangeDetail (x.u a) size)
      else
        match s.windowSize x.w (x.u b) with
        | none => some (6, rangeDetail (x.u b) 0)
        | some z => if z < bits (x.u b) 0 21 + x.u r then some (6, rangeDetail (x.u b) z) else none)
    (fun x => if put then [(x.u a, x.u r)] else [])
    -- a get by the window of its own workgroup reads that scratchpad (R219)
    (fun x => match if put then none else s.window x.w.wg (x.u b) with
      | some (n, ci, off) => if n = x.w.wg ∧ x.u r ≠ 0 then [⟨0, n, ci, off / 128, ceilDiv (off + x.u r) 128, false⟩] else []
      | none => [])

/-- Element size and count of a gleaner descriptor's third word (R230). -/
def gleanSize (w : Nat) : Nat := bits w 26 6 + 1
/-- The count. -/
def gleanCount (w : Nat) : Nat := bits w 0 16 + 1

/-- The checks of a gleaner command (R230): alignment, then scratchpad ranges. -/
def checkGlean (s : State) (x : Issue) (a b : Reg) (l2 : Bool) : Option (Nat × Nat) :=
  let size := s.padSize x
  let w2 := (x.v (nextReg a 2) x.low).toNat
  let list := (x.v (nextReg a 3) x.low).toNat
  if list % 16 ≠ 0 then some (4, list)
  else if !l2 && x.u b % 128 != 0 then some (4, x.u b)
  else if size < list + 4 * gleanCount w2 then some (6, rangeDetail list size)
  else if !l2 && decide (size < x.u b + gleanCount w2 * gleanSize w2) then some (6, rangeDetail (x.u b) size)
  else none

/-- GATH (R230). -/
def execGath (c : Ctl) (l2 : Bool) (a b : Reg) (s : State) : Host.Outcome State Fault Refusal :=
  pushEngine c (.gath c l2 a b) ((List.range 4).map (nextReg a) ++ (if l2 then [b, nextReg b 1] else [b])) s
    (fun x => x.us a 4 ++ [x.uw b, x.v (nextReg b 1) x.low]) (fun x => checkGlean s x a b l2)
    (fun x => [((x.v (nextReg a 3) x.low).toNat, 4 * gleanCount (x.v (nextReg a 2) x.low).toNat)])
/-- SCAT (R230). -/
def execScat (c : Ctl) (a b : Reg) (s : State) : Host.Outcome State Fault Refusal :=
  pushEngine c (.scat c a b) ((List.range 4).map (nextReg a) ++ [b]) s
    (fun x => x.us a 4 ++ [x.uw b, x.v (nextReg b 1) x.low]) (fun x => checkGlean s x a b false)
    (fun x =>
      let w2 := (x.v (nextReg a 2) x.low).toNat
      [((x.v (nextReg a 3) x.low).toNat, 4 * gleanCount w2), (x.u b, gleanCount w2 * gleanSize w2)])
/-- LAYX (R231): a destination that is not a multiple of 192 traps. -/
def execLayx (c : Ctl) (a b : Reg) (s : State) : Host.Outcome State Fault Refusal :=
  pushEngine c (.layx c a b) ((List.range 4).map (nextReg a) ++ [b, nextReg b 1]) s
    (fun x => x.us a 4 ++ [x.uw b, x.v (nextReg b 1) x.low])
    (fun x => if x.ud b % 192 ≠ 0 then some (4, x.ud b) else none) (fun _ => [])

/-! ### Taking a command (R221, R223) -/

/-- A range of virtual addresses lies within one range pinned on a die (R286). -/
def State.inPinned (s : State) (die ctx va n : Nat) : Bool :=
  let ps := (s.die die).pins.filter fun p => p.ctx == ctx
  ps.any fun x => (cutPiece pageBytes (n / pageBytes + 2) ⟨va, n, 0⟩).all fun q =>
    ps.any fun p => p.node == x.node && p.range == x.range && decide (p.va ≤ q.va) && decide (q.va + q.n ≤ p.va + p.len)

/-- A command fails a check (R221): the record goes to `qer`. -/
def State.failCmd (s : State) (id : Nat) (c : Cmd) (code w2 w3 : Nat) : State :=
  ((s.modCmd id fun c => { c with stage := .taken, err := some (code, BitVec.ofNat 32 w2, BitVec.ofNat 32 w3) }).postQer c code w2 w3).unlockCmd id

/-- A layout record read for a command (R223): its bytes; a number that has no record, or a read that failed, by code; or not
yet. -/
def State.readRecord (s : State) (id num : Nat) (c : Cmd) : Option (Except (Nat × Nat × Nat) (List Byte)) × State :=
  if 2 ^ 12 ≤ num then (some (.error (0x02, num % 2 ^ 12, 0)), s)
  else
    match s.cmdCtx c with
    | none => (some (.error (0x01, num, 0)), s)
    | some (_, x) =>
      if x.lrtn ≤ num then (some (.error (0x01, num, 0)), s)
      else
        let va := x.lrt + 64 * num
        match s.engMap id .engRead [⟨va, 64, 0⟩] with
        | (none, t) => (none, t)
        | (some l, t) =>
          match t.engRead id l with
          | (none, u) => (none, u)
          | (some ds, u) =>
            if ds.any fun d => d.2.2 then (some (.error (0x30, va % 2 ^ 32, va / 2 ^ 32 % 2 ^ 24)), u)
            else (some (.ok (ds.flatMap fun d => d.2.1)), u)

/-- What LAYX's descriptor says (R231). -/
structure LayGeom where
  sx : Nat
  sy : Nat
  kw : Nat
  kh : Nat
  px : Nat
  py : Nat
  dx : Nat
  dy : Nat
  np : Nat
  p0 : Nat
  deriving DecidableEq, Repr

/-- The geometry in a command's words. -/
def Cmd.geom (c : Cmd) : LayGeom :=
  let a := c.arg 1
  let b := c.arg 2
  let d := c.arg 3
  { sy := bits a 24 8, sx := bits a 16 8, kh := bits a 8 8, kw := bits a 0 8, py := bits b 24 8, px := bits b 16 8,
    dy := bits b 8 8, dx := bits b 0 8, np := bits d 16 16, p0 := bits d 0 16 }

/-- An output extent (R231): input extent, padding, dilation, kernel, stride. -/
def outExtent (n p d k st : Nat) : Int := ((n : Int) + 2 * p - d * ((k : Int) - 1) - 1) / st + 1

/-- The bytes of an output row (R231). -/
def LayGeom.rowBytes (g : LayGeom) (t : TRec) : Nat := g.kh * g.kw * t.e 0 * t.s
/-- The pitch of the output rows. -/
def LayGeom.pitch (g : LayGeom) (t : TRec) : Nat := 192 * ceilDiv (g.rowBytes t) 192

/-- The geometry is invalid (R231): error 0x18. -/
def LayGeom.bad (g : LayGeom) (t : TRec) : Bool :=
  g.sx == 0 || g.sy == 0 || g.dx == 0 || g.dy == 0 || g.kw == 0 || g.kh == 0 || g.np == 0 || !(t.rank == 3 || t.rank == 4) ||
  (let ow := outExtent (t.e 1) g.px g.dx g.kw g.sx
   let oh := outExtent (t.e 2) g.py g.dy g.kh g.sy
   decide (ow < 1) || decide (oh < 1) || decide (ow * oh * t.e 3 < g.p0 + g.np))

/-- The current scratchpad size of a command's workgroup. -/
def State.cmdSize (s : State) (c : Cmd) : Nat := match s.wg? c.wg with | some g => g.size c.core | none => 0

/-- The checks of a command whose record has been read, or that needs none (R221, R224, R226, R227, R230, R231): code, word 2,
word 3. -/
def State.checkCmd (s : State) (c : Cmd) : Option (Nat × Nat × Nat) :=
  let t := recOf c.record
  match c.instr with
  | .cpyt .. =>
    let num := c.arg 0 % 2 ^ 12
    match t.check with
    | some (code, dim) => some (code, num, dim)
    | none =>
      if s.cmdSize c < c.arg 6 + t.boxBytes then some (0x0B, num, min t.boxBytes 0x00FFFFFF) else none
  | .cpyl _ dir .. =>
    let (gs, gd) := CopyDir.sides dir
    let src := c.arg2 0
    let dst := c.arg2 2
    let n := c.arg 4
    if n = 0 ∨ 3 * 2 ^ 20 < n ∨ (gs ∧ 2 ^ 56 < src + n) ∨ (gd ∧ 2 ^ 56 < dst + n) ∨
        (gs = gd ∧ src < dst + n ∧ dst < src + n) then some (0x0C, 0, 0)
    else none
  | .gath _ l2 _ _ =>
    if bits (c.arg 2) 16 10 ≠ 0 then some (0x11, 0, 0)
    else if l2 && !s.inPinned c.die (s.cmdCtxNum c) (c.arg2 4) (gleanCount (c.arg 2) * gleanSize (c.arg 2)) then some (0x12, 0, 0)
    else none
  | .scat .. => if bits (c.arg 2) 16 10 ≠ 0 then some (0x11, 0, 0) else none
  | .layx .. =>
    match t.check with
    | some (code, dim) => some (code, c.arg 0 % 2 ^ 12, dim)
    | none =>
      let g := c.geom
      if g.bad t then some (0x18, 0, 0)
      else if !s.inPinned c.die (s.cmdCtxNum c) (c.arg2 4) ((g.np - 1) * g.pitch t + g.rowBytes t) then some (0x12, 0, 0)
      else none
  | _ => none

/-- A command needs a layout record. -/
def usesRecord : Instr → Bool | .cpyt .. => true | .layx .. => true | _ => false

/-- The take of a command goes on (R221, R223): its record is read, then it is checked; a CPYT.ST holds the lines of its box, and the
lines that a staging copy will fill become EMPTY (R269). -/
def State.takeGo (s : State) (id : Nat) : State :=
  match FMap.get? s.cmds id with
  | none => s
  | some c =>
    if c.stage ≠ .reading then s
    else
      let checked := fun (s : State) (c : Cmd) =>
        match s.checkCmd c with
        | some (code, w2, w3) => s.failCmd id c code w2 w3
        | none =>
          let s1 := s.modCmd id fun c => { c with stage := .taken }
          match c.instr with
          | .cpyt _ true _ _ _ _ =>
            let off := c.arg 6
            let s2 := s1.unlockCmd id
            let box : LineLock := ⟨id, c.wg, c.core, off / 128, ceilDiv (off + (recOf c.record).boxBytes) 128, false⟩
            { s2 with locks := s2.locks ++ [box] }.pumpGang c.wg
          | .cpyt .. =>
            if c.staging then s1.modWg c.wg fun g => g.markRange c.core (c.arg 6) (recOf c.record).boxBytes .empty else s1
          | _ => s1
      -- a tile-operand descriptor that is not valid (R270)
      if c.staging && c.arg 7 == 1 then (s.failCmd id c 0x02 (c.arg 0 % 2 ^ 12) 0).pumpGang c.wg
      else if usesRecord c.instr then
        match s.readRecord id (c.arg 0) c with
        | (none, t) => t
        | (some (.error (code, w2, w3)), t) =>
          -- a read that met POISON has its record already (R220, R223)
          if code = 0x30 then ((t.modCmd id fun c => { c with stage := .taken, err := some (code, BitVec.ofNat 32 w2, BitVec.ofNat 32 w3) }).unlockCmd id).pumpGang c.wg
          else (t.failCmd id c code w2 w3).pumpGang c.wg
        | (some (.ok bs), t) =>
          let c1 := { c with record := bs, got := [] }
          checked (t.modCmd id fun c => { c with record := bs, got := [] }) c1
      else checked s c

/-- An engine takes the oldest command of its queue (R213, R220, R221): its flag and operand registers are free by then (R43, R100, R225). A staging copy is on no queue; that of a saved workgroup waits
for the restore (R270). -/
def State.takeCmd (s : State) (id : Nat) (c : Cmd) : State :=
  let first := match s.wave? c.wave with
    | some w => w.gen == c.gen && (w.pushed (engQueue c.instr)).find? (fun e => !e.isMarker) == some (.cmd id)
    | none => false
  if (c.staging && (s.wg? c.wg).isSome) || first then
    let s1 := (s.releaseCmd id).modWave c.wave fun w => { w with push := modAt w.push (engQueue c.instr) fun l => l.filter (· != .cmd id) }
    (s1.modCmd id fun c => { c with stage := .reading }).takeGo id
  else s

/-! ### Performing a command -/

/-- The elements of a box in increasing order: coordinates within the box, dimension 0 first (R226). -/
def boxElems (t : TRec) : List (List Nat) :=
  (List.range (t.b 4)).flatMap fun b4 => (List.range (t.b 3)).flatMap fun b3 => (List.range (t.b 2)).flatMap fun b2 =>
    (List.range (t.b 1)).flatMap fun b1 => (List.range (t.b 0)).map fun b0 => [b0, b1, b2, b3, b4]

/-- The place of a box element in the scratchpad (R226). -/
def boxPlace (t : TRec) (b : List Nat) : Nat :=
  b.getD 0 0 * t.s + t.pitch * (b.getD 1 0 + t.b 1 * (b.getD 2 0 + t.b 2 * (b.getD 3 0 + t.b 3 * b.getD 4 0)))

/-- The tensor coordinates of a box element (R226). -/
def boxCoord (c : Cmd) (b : List Nat) : List Int := (List.range 5).map fun i => sext (c.arg (1 + i)) 32 + (b.getD i 0 : Int)

/-- A coordinate lies in the tensor. -/
def inTensor (t : TRec) (x : List Int) : Bool := (List.range 5).all fun i => decide (0 ≤ x.getD i 0) && decide (x.getD i 0 < t.e i)
/-- The address of a tensor element (R223, R226). -/
def elemAddr (t : TRec) (x : List Int) : Nat :=
  t.base + ((List.range 5).map fun i => (x.getD i 0).toNat * t.st i).foldl (· + ·) 0
/-- The nearest element in range (R223, EDGE). -/
def clampCoord (t : TRec) (x : List Int) : List Int := (List.range 5).map fun i => max 0 (min (x.getD i 0) ((t.e i : Int) - 1))

/-- Where an element of a CPYT.LD comes from: memory, or the bytes that `PAD` gives (R223, R226). -/
def loadElem (t : TRec) (x : List Int) : Except (List Byte) Nat :=
  if inTensor t x then .ok (elemAddr t x)
  else if t.pad = 1 then .ok (elemAddr t (clampCoord t x))
  else .error (leBytes t.s (if t.pad = 2 then (match elemFmt t.fmt with | some f => cnan f | none => 0) else 0))

/-- A CPYT.LD performed (R226). -/
def State.runLoad (s : State) (id : Nat) (c : Cmd) : State :=
  let t := recOf c.record
  let es := (boxElems t).map fun b => (boxPlace t b, loadElem t (boxCoord c b))
  let ps := joinPieces (es.filterMap fun e => match e.2 with | .ok a => some ⟨a, t.s, e.1⟩ | .error _ => none)
  let pads := es.filterMap fun e => match e.2 with | .ok _ => none | .error bs => some (e.1, bs, false)
  match s.engMap id .engRead ps with
  | (none, s1) => s1
  | (some l, s1) =>
    match s1.engRead id l with
    | (none, s2) => s2
    | (some ds, s2) => s2.finishFill id c.core (c.arg 6) t.boxBytes (ds ++ pads)

/-- A command's writes already sent: it ends once the fabric has answered. -/
def State.awaitFabric (s : State) (id : Nat) (c : Cmd) (writes : List Piece) : State :=
  if s.cmdFabric id then s
  else s.endCmd id ((cutPages writes).any fun p => c.poisPages.contains (p.va / pageBytes))

/-- A copy out of the scratchpad performed (R219, R226, R227): `range` is what it reads of the scratchpad, and a piece's
place counts from its start. -/
def State.runStore (s : State) (id : Nat) (c : Cmd) (off n : Nat) (ps : List Piece) : State :=
  if c.sent then s.awaitFabric id c ps
  else
    match s.wg? c.wg with
    | none => s.endCmd id true
    | some g =>
      if rangeEmpty g c.core off n then s
      else
        s.engOut id ps (g.spBytes c.core off n)

/-- A CPYT.ST performed (R226). -/
def State.runTensorStore (s : State) (id : Nat) (c : Cmd) : State :=
  let t := recOf c.record
  let ps := (boxElems t).filterMap fun b =>
    let x := boxCoord c b
    if inTensor t x then some ⟨elemAddr t x, t.s, boxPlace t b⟩ else none
  s.runStore id c (c.arg 6) t.boxBytes (joinPieces ps)

/-- A CPYL performed (R227). -/
def State.runLinear (s : State) (id : Nat) (c : Cmd) (dir : CopyDir) : State :=
  let src := c.arg2 0
  let dst := c.arg2 2
  let n := c.arg 4
  match dir with
  | .sg => s.runStore id c src n [⟨dst, n, 0⟩]
  | .ss =>
    match s.wg? c.wg with
    | none => s.endCmd id true
    | some g => if rangeEmpty g c.core src n then s else s.finishFill id c.core dst n [(0, g.spBytes c.core src n, false)]
  | .gs =>
    match s.engMap id .engRead [⟨src, n, 0⟩] with
    | (none, s1) => s1
    | (some l, s1) =>
      match s1.engRead id l with
      | (none, s2) => s2
      | (some ds, s2) => s2.finishFill id c.core dst n ds
  | .gg =>
    if c.sent then s.awaitFabric id c [⟨dst, n, 0⟩]
    else
      match s.engMap id .engRead [⟨src, n, 0⟩] with
      | (none, s1) => s1
      | (some l, s1) =>
        match s1.engRead id l with
        | (none, s2) => s2
        | (some ds, s2) => s2.engOut id [⟨dst, n, 0⟩] (ds.flatMap fun d => d.2.1)

/-- An older remote access of the core to the same target core is not performed (R289). -/
def State.cpyhBehind (s : State) (id : Nat) (c : Cmd) : Bool :=
  let tgt := s.windowCore c.wg (c.arg 1)
  (s.ops.any fun p => decide (p.1 < id) && p.2.core == waveCore c.wave && memClass p.2.instr == .remote && !p.2.done &&
    (LaneMask.lanes p.2.todo).any fun L => s.windowCore p.2.wg (p.2.ea L) == tgt) ||
  (s.cmds.any fun p => decide (p.1 < id) && waveCore p.2.wave == waveCore c.wave &&
    (match p.2.instr with | .cpyh .. => s.windowCore p.2.wg (p.2.arg 1) == tgt | _ => false))

/-- A CPYH performed (R228, R289, R410). -/
def State.runRemote (s : State) (id : Nat) (c : Cmd) (put : Bool) : State :=
  let n := c.arg 2
  match s.wg? c.wg, s.window c.wg (c.arg 1) with
  | some g, some (rw, rc, off) =>
    match s.wg? rw with
    | none => s.endCmd id true
    | some h =>
      let ok := c.ticket == h.ticket
      if s.cpyhBehind id c then s
      else if put then
        if rangeEmpty g c.core (c.arg 0) n || s.rangeHeld id rw rc off n (rw == c.wg && rc == c.core) then s
        else if ok then (s.modWg rw fun x => x.fill rc off n [(0, g.spBytes c.core (c.arg 0) n, false)]).endCmd id false
        else ((s.count 0x06 (waveDie c.wave)).modWg rw fun x => x.markRange rc off n .poison).endCmd id false
      else if ok then
        if rangeEmpty h rc off n then s else s.finishFill id c.core (c.arg 0) n [(0, h.spBytes rc off n, false)]
      else (s.count 0x06 (waveDie c.wave)).finishFill id c.core (c.arg 0) n [(0, List.replicate n 0, false)]
  -- what arrives after the target has gone is checked against ticket 0 (R411)
  | _, _ => (if c.ticket = 0 then s else s.count 0x06 (waveDie c.wave)).endCmd id true

/-- The page that holds a gleaner's extent address (R230): first address and size, as the die's translation gives it. -/
def State.extentPage (s : State) (c : Cmd) (e : Nat) : Nat × Nat :=
  match s.cmdCtx c with
  | none => (e / pageBytes * pageBytes, pageBytes)
  | some (_, x) =>
    match (s.die c.die).tlb.find? fun t => tlbServes t x e .engRead || tlbServes t x e .engWrite with
    | some t => (t.base, t.size)
    | none => (e / pageBytes * pageBytes, pageBytes)

/-- The elements of a command that lie at unbacked addresses count as resolved with POISON, page by page (R279): a large page may have
unbacked parts. -/
def State.engBacked (s : State) (id : Nat) (c : Cmd) (l : List PPiece) : List PPiece × State :=
  l.foldl (fun (a : List PPiece × State) p =>
    (cutPiece pageBytes (p.n / pageBytes + 2) ⟨p.va, p.n, 0⟩).foldl (fun (a : List PPiece × State) q =>
      let keep := fun (pa : Option Nat) (t : State) => (a.1 ++ [⟨pa, q.va, q.n, p.k + q.k⟩], t)
      match p.pa with
      | none => keep none a.2
      | some pa =>
        match a.2.backing (pa + q.k) with
        | .none home =>
          -- one record for a part, told from a page that was resolved with POISON
          let part := 2 ^ 60 + q.va / pageBytes
          match FMap.get? a.2.cmds id with
          | some d => if d.poisPages.contains part then keep none a.2 else keep none ((a.2.countUnbacked home c.die).noteMark id q.va part)
          | none => keep none a.2
        | _ => keep (some (pa + q.k)) a.2) a) ([], s)

/-- A gleaner command performed (R230). -/
def State.runGlean (s : State) (id : Nat) (c : Cmd) (scat l2 : Bool) : State :=
  let e := c.arg2 0 % 2 ^ 56
  let size := gleanSize (c.arg 2)
  let count := gleanCount (c.arg 2)
  let list := c.arg 3
  let total := count * size
  let dst := c.arg 4
  if c.sent then s.awaitFabric id c (if l2 then [⟨c.arg2 4, total, 0⟩] else [⟨e, 1, 0⟩])
  else
    match s.wg? c.wg with
    | none => s.endCmd id true
    | some g =>
      if rangeEmpty g c.core list (4 * count) || (scat && rangeEmpty g c.core dst total) then s
      else
        match s.engWalk id (if scat then .engWrite else .engRead) e with
        | (none, s1) => s1
        | (some pa0, s1) =>
          let (pb, pz) := s1.extentPage c e
          let index := fun j => leNat (g.spBytes c.core (list + 4 * j) 4)
          let inside := fun j => decide (e + index j * size + size ≤ pb + pz)
          let elems := (List.range count).map fun j =>
            if inside j then some (⟨pa0.map fun p => p + index j * size, e + index j * size, size, j * size⟩ : PPiece) else none
          let (good, s1) := s1.engBacked id c (elems.filterMap fun x => x)
          let report := fun (t : State) =>
            match (List.range count).find? fun j => !inside j with
            | some j => t.postQer c 0x10 j 0
            | none => t
          if scat then (report s1).finishWrite id good (g.spBytes c.core dst total)
          else
            match s1.engRead id good with
            | (none, s2) => s2
            | (some ds, s2) =>
              let skipped := (List.range count).filterMap fun j =>
                if inside j then none else some (j * size, List.replicate size (0 : Byte), false)
              if l2 then
                let data := (ds ++ skipped).foldl (fun acc x => splice acc x.1 x.2.1) (List.replicate total 0)
                let out := [(⟨c.arg2 4, total, 0⟩ : Piece)]
                -- the skipped elements are reported once, with the first page written
                if c.wrote.isEmpty then
                  match s2.engMap id .engWrite out with
                  | (none, s3) => s3
                  | (some _, s3) => (report s3).engOut id out data
                else s2.engOut id out data
              else if s2.rangeLocked id c.wg c.core dst total then s2
              else (report s2).finishFill id c.core dst total (ds ++ skipped)

/-- The pieces a LAYX reads, with their places, and where each row goes (R231). -/
def layPieces (t : TRec) (g : LayGeom) (dst : Nat) : List Piece × List Piece :=
  let ow := (outExtent (t.e 1) g.px g.dx g.kw g.sx).toNat
  let oh := (outExtent (t.e 2) g.py g.dy g.kh g.sy).toNat
  let rb := g.rowBytes t
  let reads := (List.range g.np).flatMap fun p =>
    let q := g.p0 + p
    let ox := q % ow
    let oy := q / ow % oh
    let n := q / (ow * oh)
    (List.range g.kh).flatMap fun ky => (List.range g.kw).flatMap fun kx => (List.range (t.e 0)).filterMap fun ch =>
      let x : List Int := [(ch : Nat), ((ox * g.sx + kx * g.dx : Nat) : Int) - g.px, ((oy * g.sy + ky * g.dy : Nat) : Int) - g.py, (n : Nat), 0]
      let place : Nat := p * rb + ((ky * g.kw + kx) * t.e 0 + ch) * t.s
      if inTensor t x then some (Piece.mk (elemAddr t x) t.s place) else none
  (joinPieces reads, (List.range g.np).map fun p => ⟨dst + p * g.pitch t, rb, p * rb⟩)

/-- A LAYX performed (R231). -/
def State.runLayout (s : State) (id : Nat) (c : Cmd) : State :=
  let t := recOf c.record
  let g := c.geom
  let (rd, wr) := layPieces t g (c.arg2 4)
  if c.sent then s.awaitFabric id c wr
  else
    match s.engMap id .engRead rd with
    | (none, s1) => s1
    | (some l, s1) =>
      match s1.engRead id l with
      | (none, s2) => s2
      | (some ds, s2) =>
        s2.engOut id wr (ds.foldl (fun acc x => splice acc x.1 x.2.1) (List.replicate (g.np * g.rowBytes t) 0))

/-- The scratchpad lines that a failed command would have filled: offset and bytes (R221); of a copy whose layout record was not read, none (DESIGN
CHOICE, log 139). -/
def Cmd.wouldFill (c : Cmd) : Nat × Nat :=
  match c.instr with
  | .cpyt _ false _ _ _ _ => (c.arg 6, if c.record.isEmpty then 0 else (recOf c.record).boxBytes)
  | .cpyl _ dir .. => if dir = .gs ∨ dir = .ss then (c.arg 2, c.arg 4) else (0, 0)
  | .gath _ false _ _ => (c.arg 4, gleanCount (c.arg 2) * gleanSize (c.arg 2))
  | _ => (0, 0)

/-- A taken command is performed as far as it can be (R219 to R231). -/
def State.runCmd (s : State) (id : Nat) : State :=
  match FMap.get? s.cmds id with
  | none => s
  | some c =>
    let s0 := s.pump c.wave (id - 1)
    if c.stage ≠ .taken || (c.err.isSome && s0.cmdWaits id) || !s0.padClear c id then s0
    else
      match c.err with
      | some _ =>
        let (off, n) := c.wouldFill
        if s0.rangeLocked id c.wg c.core off n then s0
        else (s0.modWg c.wg fun g => g.markRange c.core off n .poison).endCmd id true
      | none =>
        match c.instr with
        | .cpyt _ st _ _ _ _ => if st then s0.runTensorStore id c else s0.runLoad id c
        | .cpyl _ dir _ _ _ _ => s0.runLinear id c dir
        | .cpyh _ put _ _ _ => s0.runRemote id c put
        | .gath _ l2 _ _ => s0.runGlean id c false l2
        | .scat .. => s0.runGlean id c true false
        | .layx .. => s0.runLayout id c
        | _ => s0

/-- ENGINE_OPERAND_RELEASE (R43, R100, R225). -/
def execEngineOperandRelease (cmd : Nat) (s : State) : Host.Outcome State Fault Refusal := .next (s.releaseCmd cmd)
/-- ENGINE_COMPLETE (R217, R219 to R231). -/
def execEngineComplete (cmd : Nat) (s : State) : Host.Outcome State Fault Refusal := .next (s.runCmd cmd)

end Sys2Proof.Machine
end

