-- ==== Sys2Proof/Machine/UnitAccess.lean ====
section
/-! DEFINITION. The memory accesses of the units of the IO dies and of SPAWN (spec/14 R279; spec/17 R321; spec/22 R372, R380; spec/26 R440). -/

namespace Sys2Proof.Machine

/-- The parked request of a unit for an access to a virtual page, if there is one, on whichever die it stands: that of a SPAWN keeps its place
when its wave is restored on another (R385). -/
def State.unitReq (s : State) (kind : ReqKind) (acc : Acc) (page : Nat) : Option Req :=
  s.dies.findSome? fun d => (d.2.reqs.find? fun r => r.2.kind == kind && r.2.vpage == page && r.2.acc == acc.code).map Prod.snd

/-- What an access has at hand: of fabric memory, and of pages that were replayed. -/
def State.unitHas (s : State) (kind : ReqKind) : UnitFabric := (s.unitFabric.find? fun u => u.kind == kind).getD ⟨kind, [], false, [], []⟩
/-- That changed. -/
def State.modFab (s : State) (kind : ReqKind) (f : UnitFabric → UnitFabric) : State :=
  { s with unitFabric := (s.unitFabric.filter fun u => u.kind != kind) ++ [f (s.unitHas kind)] }
/-- One page of an access translated on a die for a unit, or for a wave's operation: its physical address; `none` under POISON;
or parked, and not ready. A page resolved with POISON keeps its request until the whole access has been performed; one whose request was
replayed is at hand. -/
def State.unitPage (s : State) (kind : ReqKind) (die ctx : Nat) (acc : Acc) (va : Nat) (who : Option Nat := none) (gen : Nat := 0) :
    Option (Option Nat) × State :=
  match s.unitReq kind acc (va / pageBytes) with
  | some r => if r.res = some .poison ∧ r.place = .cellar then (some none, s) else (none, s)
  | none =>
    match FMap.get? (s.unitHas kind).got (pageKey va acc) with
    | some g => (some (some (g.1 + va % pageBytes)), s)
    | none =>
      match s.ctx? ctx with
      | none => (some none, s)
      | some c =>
        match translate s none die c va acc with
        | (.ok pa, t) => (some (some pa), t)
        | (.error f, t) => (none, t.park die kind ctx c va f acc who gen)

/-- The pages of pieces translated for a unit; every miss parks at once. -/
def State.unitMap (s : State) (kind : ReqKind) (die ctx : Nat) (acc : Acc) (l : List Piece) (who : Option Nat) (gen : Nat) :
    Option (List PPiece) × State :=
  let ps := cutPages l
  let pages := dedup (ps.map fun p => p.va / pageBytes)
  let (tr, s1) := pages.foldl (fun (a : List (Nat × Option (Option Nat)) × State) pg =>
    let va := match ps.find? fun p => p.va / pageBytes == pg with | some p => p.va | none => pg * pageBytes
    let (r, t) := a.2.unitPage kind die ctx acc va who gen
    (a.1 ++ [(pg, r.map fun o => o.map fun pa => pa - va % pageBytes)], t)) ([], s)
  if tr.any fun x => x.2.isNone then (none, s1)
  else
    (some (ps.map fun p =>
      let base := ((tr.find? fun x => x.1 == p.va / pageBytes).bind fun x => x.2).join
      ⟨base.map fun b => b + p.va % pageBytes, p.va, p.n, p.k⟩), s1)

/-! ### Fabric memory (R219, R321) -/

/-- The number that stands for a unit on a die where a core's is asked for. -/
def unitCore (die : Nat) : Nat := 1152 + die
/-- An access awaits the fabric's answer. -/
def State.unitWaits (s : State) (kind : ReqKind) : Bool := s.fabricReqs.any fun r => r.2.unit == some kind
/-- An access is over: what it has of fabric memory is forgotten, and an answer that is still due is of no use. -/
def State.forgetUnit (s : State) (kind : ReqKind) : State :=
  { s with unitFabric := s.unitFabric.filter fun u => u.kind != kind,
           fabricReqs := s.fabricReqs.map fun (r : Nat × FabricReq) => if r.2.unit = some kind then (r.1, { r.2 with unit := none }) else r }

/-- A fabric line asked of its target for a unit, unless it is at hand or asked for already; one that leads nowhere is empty (R279, R395). -/
def State.unitAsk (s : State) (kind : ReqKind) (die ctx line : Nat) : State :=
  if (FMap.get? (s.unitHas kind).lines line).isSome || s.fabricReqs.any fun r => r.2.unit == some kind && r.2.acc.kind == 0 && r.2.pa == line then s
  else
    match s.aperture? ctx line with
    | none => (s.countUnbacked none die).modFab kind fun u => { u with lines := FMap.set u.lines line [] }
    | some a =>
      s.fabricSend { plainReq (plainAccess a 0 (bits line 0 40) 192 (s.ctxProt ctx)) a.pkg (unitCore die) ctx line with unit := some kind }

/-- Bytes written to fabric memory by a unit: one masked write per line, past any write-combining buffer (R321). -/
def State.unitFabricWrite (s : State) (kind : ReqKind) (die ctx pa : Nat) (bs : List Byte) : State :=
  (cutPiece 192 (bs.length / 192 + 2) ⟨bits pa 0 40, bs.length, 0⟩).foldl (fun t p =>
    match t.aperture? ctx pa with
    | none => t.countUnbacked none die
    | some a =>
      let o := p.va % 192
      let acc := { plainAccess a 1 (p.va - o) 192 (t.ctxProt ctx) with
        data := fitBytes 192 (List.replicate o 0 ++ (bs.drop p.k).take p.n),
        mask := (List.range 192).map fun i => decide (o ≤ i) && decide (i < o + p.n) }
      t.fabricSend { plainReq acc a.pkg (unitCore die) ctx (pa + p.k) with unit := some kind }) s

/-! ### Reads and writes -/

/-- What a unit read: its address, its bytes, and whether it was a POISON page or unbacked. -/
structure UnitPart where
  va : Nat
  bytes : List Byte
  poison : Bool
  unbacked : Bool
  deriving DecidableEq, Repr

/-- The parts of a translated piece: of fabric memory, line by line. -/
def State.unitParts (s : State) (kind : ReqKind) (die : Nat) (acc : Acc) (p : PPiece) : List UnitPart × State :=
  match p.pa with
  | none => ([⟨p.va, List.replicate p.n 0, true, false⟩], s)
  | some pa =>
    match s.backing pa with
    | .none home => ([⟨p.va, List.replicate p.n 0, false, true⟩], s.countUnbacked home die)
    | .fabric _ _ =>
      (p.fabricLines.map fun x =>
        let d := FMap.getD (s.unitHas kind).lines x.1 []
        ⟨x.2.va, fitBytes x.2.n (d.drop (pa + (x.2.k - p.k) - x.1)), false, d.isEmpty⟩, s)
    | _ => ([⟨p.va, snapRead (s.unitHas kind).got p acc (s.homeRead pa p.n), false, false⟩], s)

/-- Bytes read by a unit at their home (R219, R350): `none` while a page is parked or the fabric has not answered. -/
def State.unitRead (s : State) (kind : ReqKind) (die ctx : Nat) (acc : Acc) (va n : Nat) (who : Option Nat := none) (gen : Nat := 0) :
    Option (List UnitPart) × State :=
  match s.unitMap kind die ctx acc [⟨va, n, 0⟩] who gen with
  | (none, t) => (none, t)
  | (some l, t) =>
    let t1 := (l.flatMap PPiece.fabricLines).foldl (fun u x => u.unitAsk kind die ctx x.1) t
    if t1.unitWaits kind then (none, t1)
    else
      match t1.rowGate kind (homeParts l) with
      | (false, u) => (none, u)
      | (true, u) =>
        let (parts, t2) := l.foldl (fun (a : List UnitPart × State) p =>
          let (x, u) := a.2.unitParts kind die acc p
          (a.1 ++ x, u)) ([], u)
        (some parts, if (t2.unitHas kind).got.isEmpty then t2 else t2.modFab kind fun u => { u with got := [] })

/-- The bytes of the parts, in order. -/
def partBytes (l : List UnitPart) : List Byte := l.flatMap fun p => p.bytes
/-- Some part was not real data. -/
def partBad (l : List UnitPart) : Bool := l.any fun p => p.poison || p.unbacked

/-- The pieces of one page written by a unit at their home, if the page is ready (R219): it is written then. -/
def State.unitPut (s : State) (kind : ReqKind) (die ctx : Nat) (acc : Acc) (mine : List Piece) (pg : Nat) (data : List Byte) (who : Option Nat)
    (gen : Nat) : State :=
  match s.unitMap kind die ctx acc mine who gen with
  | (none, t) => t
  | (some l, t) =>
    match t.rowGate kind (homeParts l) with
    | (false, u) => u
    | (true, u) =>
      (l.foldl (fun u p =>
        match p.pa with
        | none => u
        | some pa =>
          let bs := (data.drop p.k).take p.n
          match u.backing pa with
          | .none home => u.countUnbacked home die
          | .fabric _ _ => u.unitFabricWrite kind die ctx pa bs
          | _ => u.homeWrite pa (u.kept pa bs)) u).modFab kind fun f => { f with pages := f.pages ++ [pg] }

/-- Pieces of data written by a unit at their home, page by page as each is ready (R219, R376, R380): whether a page met POISON; `none` while a page
is parked, and until the fabric has answered what was sent there. -/
def State.unitWriteAll (s : State) (kind : ReqKind) (die ctx : Nat) (acc : Acc) (ps : List Piece) (data : List Byte) (who : Option Nat := none)
    (gen : Nat := 0) : Option Bool × State :=
  let cut := cutPages ps
  let pages := dedup (cut.map fun p => p.va / pageBytes)
  let t := pages.foldl (fun u pg =>
    if (u.unitHas kind).pages.contains pg then u
    else u.unitPut kind die ctx acc (cut.filter fun p => p.va / pageBytes == pg) pg data who gen) s
  if !pages.all (t.unitHas kind).pages.contains then (none, t)
  else if t.unitWaits kind then (none, t.modFab kind fun u => { u with wrote := true })
  else
    let bad := pages.any fun pg => match t.unitReq kind acc pg with | some r => r.res == some .poison | none => false
    (some bad, if pages.isEmpty then t else t.modFab kind fun u => { u with wrote := false, pages := [], got := [] })

/-- The kind of access of a parked request of a unit; the press reads its map first (R367). -/
def State.unitAcc (s : State) (r : Req) : Acc :=
  match r.acc, r.kind with
  | 0, _ => .load | 1, _ => .store | 2, _ => .atomic | 3, _ => .fetch | 4, _ => .engRead | 5, _ => .engWrite
  | _, .press n => match (s.node? n).bind Node.press with | some p => if p.loaded then .pressWrite else .pressRead | none => .pressRead
  | _, _ => .pressRead

/-- A unit's parked request at its replay (R376, R380): its page is walked again, on the die that held it; it parks anew if it faults, else the page
is at hand, a read one with the bytes that it holds now. -/
def State.unitTouch (s : State) (die : Nat) (r : Req) : State :=
  let acc := s.unitAcc r
  match s.ctx? r.ctx with
  | none => s
  | some c =>
    match translate s none die c r.va acc with
    | (.ok pa, t) => t.modFab r.kind fun u => { u with got := FMap.set u.got (pageKey r.va acc) (t.snapshot acc pa r.va) }
    | (.error f, t) => t.park die r.kind r.ctx c r.va f acc r.wave r.gen

/-- Bytes written by a unit at a virtual address. -/
def State.unitWrite (s : State) (kind : ReqKind) (die ctx : Nat) (acc : Acc) (va : Nat) (bs : List Byte) (who : Option Nat := none)
    (gen : Nat := 0) : Option Bool × State := s.unitWriteAll kind die ctx acc [⟨va, bs.length, 0⟩] bs who gen

/-- The parked requests of a unit that its access no longer needs, and what it has of fabric memory. -/
def State.dropUnit (s : State) (kind : ReqKind) : State := (s.dropReqs fun r => r.kind == kind).forgetUnit kind

end Sys2Proof.Machine
end

