-- ==== Sys2Proof/Machine/Messages.lean ====
section
/-! DEFINITION. The exchange and receive engines (spec/10, R232 to R238; spec/17, R325 to R332). -/

namespace Sys2Proof.Machine

/-! ### Issue -/

/-- The issue of SEND and SENDL (R232): the source must be a multiple of 16; a scratchpad source lies within the size. -/
def pushSend (c : Ctl) (i : Instr) (g : Bool) (a b : Reg) (s : State) : Host.Outcome State Fault Refusal :=
  let src := fun (x : Issue) => if g then x.ud b else x.u b
  let len := fun (x : Issue) => (x.v (nextReg a 2) x.low).toNat
  pushEngine c i ((List.range 3).map (nextReg a) ++ (if g then [b, nextReg b 1] else [b])) s
    (fun x => x.us a 3 ++ [BitVec.ofNat 32 (src x), BitVec.ofNat 32 (src x / 2 ^ 32)])
    (fun x =>
      if src x % 16 ≠ 0 then some (4, src x)
      else if !g && decide (s.padSize x < src x + len x) then some (6, rangeDetail (src x) (s.padSize x))
      else none)
    (fun x => if g then [] else [(src x, len x)])
/-- SEND (R232, R233). -/
def execSend (c : Ctl) (g : Bool) (a b : Reg) (s : State) : Host.Outcome State Fault Refusal := pushSend c (.send c g a b) g a b s
/-- SENDL (R232, R233). -/
def execSendl (c : Ctl) (g : Bool) (a b : Reg) (s : State) : Host.Outcome State Fault Refusal := pushSend c (.sendl c g a b) g a b s

/-- The words of an entry, captured run-wide at issue. -/
def Issue.entryRows (x : Issue) (a : Reg) (n : Nat) : List Row := (x.us a n).map Row.splat

/-- POSTR (R234): performed by the receive engine. -/
def execPostr (c : Ctl) (d a : Reg) (s : State) : Host.Outcome State Fault Refusal :=
  laterOp c (.postr c d a) (dstGroup d 1) s (fun x => x.entryRows a 8) (fun _ => 0) (fun _ => none) fun _ _ t => t
/-- CANRV (R238). -/
def execCanrv (c : Ctl) (d a : Reg) (s : State) : Host.Outcome State Fault Refusal :=
  laterOp c (.canrv c d a) (dstGroup d 1) s (fun x => x.entryRows a 1) (fun _ => 0) (fun _ => none) fun _ _ t => t
/-- PROBE (R238). -/
def execProbe (c : Ctl) (d a : Reg) (s : State) : Host.Outcome State Fault Refusal :=
  laterOp c (.probe c d a) (dstGroup d 4) s (fun x => x.entryRows a 4) (fun _ => 0) (fun _ => none) fun _ _ t => t

/-! ### Headers at the sender (R233, R326, R395) -/

/-- Blocks of a message (R236). -/
def Msg.nblocks (m : Msg) : Nat := ceilDiv m.len 192
/-- A header of the pair that was issued earlier is not accepted: a command not taken yet, or a message (R233, R326). -/
def State.pairBehind (s : State) (m : Msg) : Bool :=
  match m.cmd with
  | none => false
  | some cid =>
    s.cmds.any fun p => decide (p.1 < cid) && !p.2.staging &&
      (match p.2.instr with | .send .. => true | .sendl .. => true | _ => false) &&
      p.2.arg 0 % 2 ^ 18 == m.dstPkg + m.dstCtx * 2 ^ 8 && s.cmdCtxNum p.2 == m.srcCtx && p.2.err.isNone &&
      (match s.msgs.find? fun x => x.2.cmd == some p.1 with
       | some x => (match x.2.snd with | .accepted => false | .marked => false | .ended => false | _ => true)
       | none => true)

/-- The destination as `qer` reports it (R222). -/
def Msg.dest (m : Msg) : Nat := m.dstPkg + m.dstCtx * 2 ^ 8

/-- Some port in service leads to a package, on the minimal route or a detour (R390). -/
def State.reachable (s : State) (dst : Nat) : Bool :=
  dst == s.pkg || s.ports.any fun p => p.up && !p.spare && (p.peer == nextHop s.pkg dst || detourOk s.pkg dst p.peer)

/-- A send ends with an error found at its header (R233): the record, then its counter. -/
def State.failSend (s : State) (id : Nat) (m : Msg) (code w2 : Nat) : State :=
  let s1 := { s with msgs := FMap.erase s.msgs id }
  match m.cmd with
  | some cid => match FMap.get? s1.cmds cid with
    | some c => ((s1.postQer c code w2 0).unlockCmd cid).endCmd cid true
    | none => s1
  | none => s1

/-- The flit body of a message flit to another package (R392). -/
def msgFlit (m : Msg) (cls kind dst : Nat) (pay : List Byte) (ctxs : Nat × Nat) : FlitBody :=
  { cls := cls, kind := kind, dst := dst, srcCtx := ctxs.1, dstCtx := ctxs.2, window := 0, offset := m.num, pay := pay, mask := [] }

/-- A message of this package belongs to a protected context. -/
def State.msgProt (s : State) (m : Msg) : Bool := match s.ctx? m.srcCtx with | some c => c.prot | none => false

/-- A header is sent, if no earlier one of its pair stands in the way (R233, R326); an unreachable destination is found here. -/
def State.sendHeader (s : State) (id : Nat) : State :=
  match FMap.get? s.msgs id with
  | none => s
  | some m =>
    match m.snd with
    | .waiting n =>
      if s.pairBehind m then s
      else if m.dstPkg = s.pkg then s.modMsg id fun m => { m with snd := .flying n }
      else if !s.reachable m.dstPkg then s.failSend id m 0x20 m.dest
      else if s.msgProt m && !s.ports.any (fun p => p.up && !p.spare && p.sealPolicy && (p.peer == nextHop s.pkg m.dstPkg || detourOk s.pkg m.dstPkg p.peer))
        then s.failSend id m 0x23 m.dest
      else
        match s.sendFlit (msgFlit m 0 0x10 m.dstPkg (Config.payOf 0x10 [m.tag.toNat, m.len, m.lossy.toNat, m.num]) (m.srcCtx, m.dstCtx)) (s.msgProt m) with
        | some t => t.modMsg id fun m => { m with snd := .flying n }
        | none => s
    | _ => s

/-- Every header that may go now is sent. -/
def State.sendHeaders (s : State) : State := (FMap.keys s.msgs).foldl (fun t id => t.sendHeader id) s

/-- A message whose header has not left (R233): between two contexts, each with its package. -/
def newMsg (src dst : Nat × Nat) (tag : Word) (len : Nat) (lossy : Bool) (cmd : Option Nat) (snd : SendState) (num : Nat) (prot : Bool) : Msg :=
  { srcPkg := src.1, srcCtx := src.2, dstPkg := dst.1, dstCtx := dst.2, tag := tag, len := len, lossy := lossy, cmd := cmd, snd := snd,
    retryAt := 0, sent := [], count := 0, next := 0, num := num, rcv := .none, arrived := [], ended := false, endAt := 0, blocks := 0,
    port := none, prot := prot, wrote := none }

/-- A send command is taken by the exchange engine (R221, R233): its length is checked, and its header follows. Bits 31 to 18 of the descriptor's
first word are ignored (DESIGN CHOICE, log 138). -/
def State.takeSend (s : State) (id : Nat) : State :=
  match FMap.get? s.cmds id with
  | none => s
  | some c =>
    let lossy := match c.instr with | .sendl .. => true | _ => false
    let len := c.arg 2
    if 3 * 2 ^ 20 < len || (lossy && (len == 0 || len % 192 != 0)) then s.failCmd id c 0x22 len 0
    else
      let (mid, s1) := s.fresh
      let m := newMsg (s.pkg, s.cmdCtxNum c) (c.arg 0 % 2 ^ 8, bits (c.arg 0) 8 10) (BitVec.ofNat 32 (c.arg 1)) len lossy (some id) (.waiting 0) mid false
      (({ s1 with msgs := FMap.set s1.msgs mid m }.modCmd id fun c => { c with stage := .header })).sendHeader mid

/-- ENGINE_TAKE (R213, R221, R223, R233): also the further course of a take whose record's read was parked. -/
def execEngineTake (cmd : Nat) (s : State) : Host.Outcome State Fault Refusal :=
  match FMap.get? s.cmds cmd with
  | none => .next s
  | some c =>
    if c.stage = .reading then .next (s.takeGo cmd)
    else if c.stage ≠ .pushed then .next s
    else
      let s1 := s.takeCmd cmd c
      match FMap.get? s1.cmds cmd, c.instr with
      | some c1, .send .. => if c1.stage = .taken && c1.err.isNone then .next (s1.takeSend cmd) else .next s1
      | some c1, .sendl .. => if c1.stage = .taken && c1.err.isNone then .next (s1.takeSend cmd) else .next s1
      | _, _ => .next s1

/-! ### Matching at the destination (R234, R235, R325, R326) -/

/-- A posted entry matches a header (R235). -/
def entryMatches (words : List Word) (srcPkg srcCtx : Nat) (tag : Word) : Bool :=
  let src := BitVec.ofNat 32 (srcPkg + srcCtx * 2 ^ 8)
  ((src ^^^ words.getD 0 0) &&& words.getD 1 0) == 0 && ((tag ^^^ words.getD 2 0) &&& words.getD 3 0) == 0

/-- A workgroup is saved in a frame. -/
def State.saved (s : State) (wgn : Nat) : Bool := s.frames.any fun f => f.2.id == wgn

/-- Blocks of the buffer area that a message takes (R326): one whose receive was matched before its workgroup was saved, and whose payload is for
the scratchpad, takes its own from the save on (R327). -/
def State.blocksOf (s : State) (m : Msg) : Nat :=
  match m.rcv with
  | .matched p => if s.saved p.wg && !(p.words.getD 4 0).getLsbD 31 then m.nblocks else m.blocks
  | _ => m.blocks

/-- Blocks of a context's buffer area in use (R326). -/
def State.bufferUsed (s : State) (ctx : Nat) : Nat :=
  (s.msgs.map fun m => if m.2.dstPkg = s.pkg ∧ m.2.dstCtx = ctx then s.blocksOf m.2 else 0).foldl (· + ·) 0

/-- The bytes a receive accepts (R234). -/
def Posted.limit (p : Posted) : Nat := bits (p.words.getD 4 0).toNat 0 22
/-- It lands in a tensor record (R234). -/
def Posted.tensor (p : Posted) : Bool := (p.words.getD 4 0).getLsbD 31
/-- The offset of its validity mask, if it has one. -/
def Posted.mask? (p : Posted) : Option Nat := let v := (p.words.getD 7 0).toNat; if v = 2 ^ 32 - 1 then none else some v

/-- A header reaches the receive engine of its destination context (R235, R325 to R327): an answer is on its way back. -/
def State.arriveHeader (s : State) (id : Nat) (m : Msg) : State :=
  match s.ctx? m.dstCtx with
  | none => s
  | some c =>
    -- a zero-length message takes no blocks (R326)
    let room := m.nblocks == 0 || decide (s.bufferUsed m.dstCtx + m.nblocks ≤ c.rxn)
    let hit := c.posted.find? fun p => entryMatches p.words m.srcPkg m.srcCtx m.tag
    match hit with
    | some p =>
      -- a saved workgroup's scratchpad: the payload waits in the buffer area (R327)
      let held := s.saved p.wg && !p.tensor
      if held && !room then s.modMsg id fun m => { m with snd := match m.snd with | .flying n => .bounced n | x => x }
      else
        (s.modCtx m.dstCtx fun c => { c with posted := c.posted.filter (· != p) }).modMsg id fun m =>
          { m with rcv := .matched p, blocks := if held then m.nblocks else 0 }
    | none =>
      if c.unexpected.length < 1024 && room then
        (s.modCtx m.dstCtx fun c => { c with unexpected := c.unexpected ++ [id] }).modMsg id fun m =>
          { m with rcv := .unexpected, blocks := m.nblocks }
      else s.modMsg id fun m => { m with snd := match m.snd with | .flying n => .bounced n | x => x }

/-- A destination takes messages from a context (R325). -/
def State.accepts (s : State) (m : Msg) : Bool :=
  match s.ctx? m.dstCtx with
  | some c => !c.ended && c.accept.contains (m.srcPkg, m.srcCtx)
  | none => false

/-- What answers a message leaves by SEAL ports only: its destination is protected, or its header came so (R394, R395). -/
def State.replyProt (s : State) (m : Msg) : Bool := s.ctxProt m.dstCtx || m.prot

/-- The answer to a message of another package, as a flit (R392): header accepted, refused, or failed with a code. -/
def State.replyFlit (s : State) (m : Msg) (kind code : Nat) : State :=
  s.sendOrWait (msgFlit m 0 kind m.srcPkg (Config.payOf kind [m.num, code]) (m.dstCtx, m.srcCtx)) (s.replyProt m)

/-- HEADER_ARRIVAL (R235, R325 to R327). -/
def execHeaderArrival (msg : Nat) (s : State) : Host.Outcome State Fault Refusal :=
  match FMap.get? s.msgs msg with
  | none => .next s
  | some m =>
    match m.snd, m.rcv with
    | .flying _, .none =>
      if m.dstPkg ≠ s.pkg then .next s
      else if !s.accepts m then
        .next (if m.srcPkg = s.pkg then s.failSend msg m 0x21 m.dest
          else { s.replyFlit m 0x12 0x21 with msgs := FMap.erase s.msgs msg })
      else
        let s1 := s.arriveHeader msg m
        if m.srcPkg = s.pkg then .next s1
        else
          match FMap.get? s1.msgs msg with
          | some m1 =>
            match m1.rcv with
            | .none => .next { s1.replyFlit m 0x12 0 with msgs := FMap.erase s1.msgs msg }
            | _ => .next ((s1.modMsg msg fun m => { m with snd := .accepted }).replyFlit m 0x11 0)
          | none => .next s1
    | _, _ => .next s

/-- The next retry interval in clk after `n` refusals (R326). -/
def retryInterval (n : Nat) : Nat := min 65536 (1024 * 2 ^ min n 6)

/-- The sending die's cycle counter. -/
def State.sendClock (s : State) (m : Msg) : Nat :=
  match m.cmd.bind fun k => FMap.get? s.cmds k with | some c => (s.die c.die).cycle.toNat | none => 0

/-- The sender learns of a refusal (R326). -/
def State.refuseHeader (s : State) (id : Nat) (m : Msg) (n : Nat) : State :=
  s.modMsg id fun x => { x with snd := .refused (n + 1), retryAt := s.sendClock m + retryInterval n }

/-- HEADER_REFUSE (R233, R326). -/
def execHeaderRefuse (msg : Nat) (s : State) : Host.Outcome State Fault Refusal :=
  match FMap.get? s.msgs msg with
  | some m => match m.snd with | .bounced n => .next (s.refuseHeader msg m n) | _ => .next s
  | none => .next s

/-- HEADER_RETRY (R326): after the interval; a header that waits behind others goes once it may. -/
def execHeaderRetry (msg : Nat) (s : State) : Host.Outcome State Fault Refusal :=
  match FMap.get? s.msgs msg with
  | some m =>
    match m.snd with
    | .refused n =>
      if m.retryAt ≤ s.sendClock m then .next ((s.modMsg msg fun m => { m with snd := .waiting n }).sendHeader msg) else .next s
    | .waiting _ => .next (s.sendHeader msg)
    | _ => .next s
  | none => .next s

/-! ### Payload (R233, R329 to R332) -/

/-- The armed test-drop control takes a block (R332). -/
def State.drops (s : State) (m : Msg) (block : Nat) : Bool :=
  let v := s.lossdrop.toNat
  m.lossy && v.testBit 63 && bits v 32 8 == m.dstPkg && bits v 40 10 == m.dstCtx && bits v 0 14 == block &&
  ((m.tag ^^^ BitVec.ofNat 32 (bits v 96 32)) &&& BitVec.ofNat 32 (bits v 64 32)) == 0

/-- The source of a payload cut into blocks (R233, R236). Within this package they are all sent now, but for the one that the test-drop
control takes; it counts as sent (R332, R341). -/
def State.cutBlocks (s : State) (id : Nat) (m : Msg) (data : List Byte) : State :=
  let block := fun k => fitBytes 192 ((data.drop (192 * k)).take 192)
  if m.dstPkg = s.pkg then
    let s1 := (List.range m.nblocks).foldl (fun t k =>
      if t.drops m k then { t with lossdrop := t.lossdrop &&& ~~~((1 : BitVec 128) <<< 63) }
      else t.modMsg id fun m => { m with sent := FMap.set m.sent k (block k) }) s
    s1.modMsg id fun m => { m with count := m.nblocks }
  else s.modMsg id fun m => { m with sent := (List.range m.nblocks).map fun k => (k, block k) }

/-- The flits of a payload that other packages' ports take now, block by block (R233). A lossy block goes by the port of the message's
route, or is lost; the one that the test-drop control takes counts as sent (R329 to R332, R341). -/
def State.pushBlocks (s : State) (id : Nat) : Nat → State
  | 0 => s
  | fuel + 1 =>
    match FMap.get? s.msgs id with
    | none => s
    | some m =>
      match FMap.get? m.sent m.next with
      | none => s
      | some bs =>
        let b : FlitBody := { msgFlit m (if m.lossy then 1 else 0) 0x13 m.dstPkg bs (m.srcCtx, m.dstCtx) with
          window := m.next % 4096, offset := m.num * 16 + m.next / 4096 }
        let on := fun (t : State) (sent : Nat) =>
          State.pushBlocks (t.modMsg id fun m => { m with next := m.next + 1, count := m.count + sent }) id fuel
        if m.lossy then
          match m.port with
          | none => on s 0
          | some k => if s.drops m m.next then on { s with lossdrop := s.lossdrop &&& ~~~((1 : BitVec 128) <<< 63) } 1 else on (s.sendOn b k none) 1
        else
          match s.sendFlit b (s.msgProt m) with
          | some t => on t 1
          | none => s

/-- The end marker of a message leaves: of a SENDL by the port of its blocks, once its flow may take that one, unless the port has failed
(R233, R330, R331, R391). -/
def State.sendMarker (s : State) (m : Msg) : Option State :=
  let b := msgFlit m 0 0x14 m.dstPkg (Config.payOf 0x14 [m.num, m.count]) (m.srcCtx, m.dstCtx)
  match m.port with
  | some k =>
    if s.stuck 0 s.pkg m.dstPkg then none
    else match s.binding 0 s.pkg m.dstPkg with
    | some r => if r = (k, none) then (s.takes 0 r (s.msgProt m)).map fun r => s.sendOn b r.1 r.2 else none
    | none => (s.takes 0 (k, none) (s.msgProt m)).map fun r => s.sendOn b r.1 r.2
  | none => s.sendFlit b (s.msgProt m)

/-- The sender of an accepted message goes on (R233): the source is read, the blocks and then the end marker are sent. -/
def State.sendPayload (s : State) (id : Nat) : State :=
  match FMap.get? s.msgs id with
  | none => s
  | some m =>
    match m.snd, m.cmd with
    | .accepted, some cid =>
      match FMap.get? s.cmds cid with
      | none => s
      | some c =>
        let read := fun (t : State) (data : List Byte) =>
          ((t.cutBlocks id m data).modCmd cid fun c => { c with stage := .payload }).unlockCmd cid
        let s1 : State :=
          if c.stage = .payload then s
          else if m.len = 0 then read s []
          else
            let g := match c.instr with | .send _ g _ _ => g | .sendl _ g _ _ => g | _ => false
            if g then
              match s.engMap cid .engRead [⟨c.arg2 3, m.len, 0⟩] with
              | (none, t) => t
              | (some l, t) => match t.engRead cid l with
                | (none, u) => u
                | (some ds, u) => read u (ds.flatMap fun d => d.2.1)
            else
              let t := s.pump c.wave (cid - 1)
              match t.wg? c.wg with
              | none => t
              | some w =>
                if !t.padClear c cid || rangeEmpty w c.core (c.arg 3) m.len then t
                else (read t (w.spBytes c.core (c.arg 3) m.len)).pumpGang c.wg
        match FMap.get? s1.cmds cid with
        | some c1 =>
          if c1.stage ≠ .payload then s1
          else if m.dstPkg = s1.pkg then s1.modMsg id fun m => { m with snd := .marked }
          else
            let s2 := s1.pushBlocks id (m.nblocks + 1)
            match FMap.get? s2.msgs id with
            | some m2 =>
              if m2.next < m2.nblocks then s2
              else
                match s2.sendMarker m2 with
                | some t => t.modMsg id fun m => { m with snd := .marked }
                | none => s2
            | none => s2
        | none => s1
    | _, _ => s

/-- A command goes on as far as it can: its take, its course, or the payload of its message. -/
def State.goCmd (s : State) (id : Nat) : State :=
  match FMap.get? s.cmds id with
  | none => s
  | some c =>
    match c.stage with
    | .reading => s.takeGo id
    | .taken => s.runCmd id
    | _ => match s.msgs.find? fun m => m.2.cmd == some id with | some m => s.sendPayload m.1 | none => s

/-- The port of a SENDL's route, fixed now: the minimal route's, if one is in service (R329, R331). -/
def State.lossyPort (s : State) (m : Msg) : Option Nat :=
  if m.lossy && m.dstPkg != s.pkg then (s.choose 1 s.pkg m.dstPkg (s.msgProt m) false).map Prod.fst else none

/-- A sender's message is accepted: later headers of the pair may go, and the payload follows. -/
def State.acceptHeader (s : State) (id : Nat) : State :=
  ((s.modMsg id fun m => { m with snd := .accepted, port := s.lossyPort m }).sendPayload id).sendHeaders

/-- HEADER_ACCEPT (R233, R332): also the further course of a payload whose source was not at hand. -/
def execHeaderAccept (msg : Nat) (s : State) : Host.Outcome State Fault Refusal :=
  match FMap.get? s.msgs msg with
  | none => .next s
  | some m =>
    match m.snd, m.rcv with
    | .flying _, .none => .next s
    | .flying _, _ => .next (if m.srcPkg = s.pkg then s.acceptHeader msg else s)
    | .accepted, _ => .next (s.sendPayload msg)
    | _, _ => .next s

/-- A block reaches the destination (R236, R330): one that comes after the end marker is discarded; the marker has counted it as lost. -/
def State.arriveBlock (s : State) (id k : Nat) (bs : List Byte) : State :=
  match FMap.get? s.msgs id with
  | none => s
  | some m =>
    if m.ended then s
    else if k < m.nblocks then s.modMsg id fun m => { m with arrived := FMap.set m.arrived k bs } else s

/-- PAYLOAD_BLOCK_ARRIVAL (R236, R330): of a message within this package. -/
def execPayloadBlockArrival (msg block : Nat) (s : State) : Host.Outcome State Fault Refusal :=
  match FMap.get? s.msgs msg with
  | none => .next s
  | some m =>
    if m.srcPkg ≠ s.pkg || m.dstPkg ≠ s.pkg || (FMap.get? m.arrived block).isSome then .next s
    else
      match FMap.get? m.sent block with
      | some bs => .next (s.arriveBlock msg block bs)
      | none => .next s

/-! ### Landing and completion (R236, R237, R327, R328) -/

/-- The payload as it lands: a block that did not arrive is zeros (R236). -/
def Msg.payload (m : Msg) (n : Nat) : List Byte :=
  ((List.range (ceilDiv n 192)).flatMap fun k => FMap.getD m.arrived k (List.replicate 192 0)).take n

/-- The bytes of a validity mask over `nb` blocks (R236). -/
def Msg.maskBytes (m : Msg) (nb : Nat) : List Byte :=
  bitBytes (ceilDiv nb 8) ((List.range nb).map fun k => (FMap.get? m.arrived k).isSome)

/-- Landed blocks that are valid. -/
def Msg.valid (m : Msg) (nb : Nat) : Nat := ((List.range nb).filter fun k => (FMap.get? m.arrived k).isSome).length

/-- A completion (R237). -/
def completionOf (m : Msg) (cookie : Word) (landed count status : Nat) : List Word :=
  [cookie, m.tag, BitVec.ofNat 32 (landed + m.srcCtx * 2 ^ 22),
   BitVec.ofNat 32 (count + m.lossy.toNat * 2 ^ 15 + m.srcPkg * 2 ^ 16 + status * 2 ^ 24)]

/-- A completion reaches a wave's `qxr`, or is held for want of room (R213, R237). -/
def Wave.complete (w : Wave) (e : List Word) : Wave :=
  if (w.present 5).length < 8 then { w with pop := modAt w.pop 5 fun l => l ++ [e] } else { w with heldRx := w.heldRx ++ [e] }

/-- The receive of a message has ended: the completion is delivered, the blocks of the buffer area are free. -/
def State.endReceive (s : State) (id : Nat) (m : Msg) (p : Posted) (landed count status : Nat) : State :=
  let s0 := (s.dropReqs fun r => r.kind == .land id).forgetUnit (.land id)
  let s1 := s0.ownerMod p.wave p.gen fun w => w.complete (completionOf m (p.words.getD 5 0) landed count status)
  let s2 := s1.modMsg id fun m => { m with rcv := .landed, blocks := 0, arrived := [], sent := [] }
  match (FMap.get? s2.msgs id).map Msg.snd with
  | some .ended => { s2 with msgs := FMap.erase s2.msgs id }
  | _ => s2

/-- The elements of a tensor in order, dimension 0 fastest, up to `n` bytes: the pieces of the byte stream (R234). -/
def tensorPieces (t : TRec) (n : Nat) : List Piece :=
  joinPieces ((List.range (ceilDiv n t.s)).map fun k =>
    let x : List Nat := [k % t.e 0, k / t.e 0 % t.e 1, k / (t.e 0 * t.e 1) % t.e 2, k / (t.e 0 * t.e 1 * t.e 2) % t.e 3,
      k / (t.e 0 * t.e 1 * t.e 2 * t.e 3)]
    Piece.mk (elemAddr t (x.map Int.ofNat)) (min t.s (n - k * t.s)) (k * t.s))

/-- The end of a landing in a tensor of `n` bytes: once the fabric has answered its writes, the mask, which of a saved workgroup waits
for the restore, and the completion (R236, R327, R328). The mask covers the blocks accepted, whatever the tensor holds of them. -/
def State.landTail (s : State) (id : Nat) (m : Msg) (p : Posted) (n : Nat) : State :=
  let nb := ceilDiv (min m.len p.limit) 192
  let fin := fun (t : State) => (t.endReceive id m p n (m.valid nb) (if n < m.len then 1 else 0)).pumpGang p.wg
  if s.unitWaits (.land id) then s
  else
    match p.mask? with
    | none => fin s
    | some off =>
      if s.saved p.wg || s.rangeLocked p.num p.wg p.core off (ceilDiv nb 8) then s
      else fin (s.modWg p.wg fun g => g.fill p.core off (ceilDiv nb 8) [(0, m.maskBytes nb, false)])

/-- A landing in a tensor (R234, R236, R328, R440). -/
def State.landTensor (s : State) (id : Nat) (m : Msg) (p : Posted) : State :=
  let num := (p.words.getD 6 0).toNat
  let fail := fun (t : State) => t.endReceive id m p 0 0 3
  match s.ctx? m.dstCtx, m.wrote with
  | none, _ => fail s
  | some _, some n => s.landTail id m p n
  | some c, none =>
    if c.lrtn ≤ num then fail s
    else
      let die := translatingDie c.homeIod
      match s.unitRead (.land id) die m.dstCtx .engRead (c.lrt + 64 * num) 64 (some p.wave) p.gen with
      | (none, t) => t
      | (some l, t) =>
        let r := recOf (partBytes l)
        if partBad l || r.check.isSome then fail t
        else
          let full := r.s * r.e 0 * r.e 1 * r.e 2 * r.e 3 * r.e 4
          let n := min (min m.len p.limit) full
          match t.unitWriteAll (.land id) die m.dstCtx .engWrite (tensorPieces r n) (m.payload n) (some p.wave) p.gen with
          | (none, u) => if (u.unitHas (.land id)).wrote then u.modMsg id fun m => { m with wrote := some n } else u
          | (some _, u) => (u.modMsg id fun m => { m with wrote := some n }).landTail id m p n

/-- A landing in a scratchpad (R236, R328): of a saved workgroup it waits for the restore (R327). A receive without a mask writes none
(R333). -/
def State.landPad (s : State) (id : Nat) (m : Msg) (p : Posted) : State :=
  match s.wg? p.wg with
  | none => if s.saved p.wg then s else s.endReceive id m p 0 0 0
  | some _ =>
    let n := min m.len p.limit
    let nb := ceilDiv n 192
    let off := (p.words.getD 6 0).toNat
    let mlen := ceilDiv nb 8
    if s.rangeLocked p.num p.wg p.core off n || (match p.mask? with | some moff => s.rangeLocked p.num p.wg p.core moff mlen | none => false) then s
    else
      let s1 := s.modWg p.wg fun g =>
        let g1 := g.fill p.core off n [(0, m.payload n, false)]
        match p.mask? with | some moff => g1.fill p.core moff mlen [(0, m.maskBytes nb, false)] | none => g1
      (s1.endReceive id m p n (m.valid nb) (if n < m.len then 1 else 0)).pumpGang p.wg

/-- A matched message that has ended lands, if it can now (R236, R327). -/
def State.landMsg (s : State) (id : Nat) : State :=
  match FMap.get? s.msgs id with
  | none => s
  | some m =>
    match m.rcv with
    | .matched p =>
      if !m.ended then s
      else if p.tensor then s.landTensor id m p
      else s.landPad id m p
    | _ => s

/-- A message's end marker has arrived (R330, R236): blocks that have not arrived are lost. -/
def State.arriveMarker (s : State) (id : Nat) : State :=
  match FMap.get? s.msgs id with
  | none => s
  | some m =>
    if m.ended then s.landMsg id
    else
      let lost := m.nblocks - (m.arrived.filter fun b => decide (b.1 < m.nblocks)).length
      let s1 := (List.range lost).foldl (fun t _ => t.count 0x0A m.dstCtx) s
      let (n, s2) := s1.fresh
      (s2.modMsg id fun m => { m with ended := true, endAt := n }).landMsg id

/-- END_MARKER_ARRIVAL (R236, R237, R330): also the further course of a landing that had to wait. -/
def execEndMarkerArrival (msg : Nat) (s : State) : Host.Outcome State Fault Refusal :=
  match FMap.get? s.msgs msg with
  | none => .next s
  | some m =>
    if m.ended then .next (s.landMsg msg)
    else if m.srcPkg = s.pkg ∧ m.dstPkg = s.pkg ∧ m.snd = .marked ∧ m.sent.all (fun b => (FMap.get? m.arrived b.1).isSome) then
      .next (s.arriveMarker msg)
    else .next s

/-- A send is acknowledged (R233): its counter retires it. -/
def State.ackSend (s : State) (id : Nat) : State :=
  match FMap.get? s.msgs id with
  | none => s
  | some m =>
    let s1 := match m.cmd with | some cid => s.endCmd cid false | none => s
    let landed := m.dstPkg ≠ s.pkg || (match m.rcv with | .landed => true | _ => false)
    if landed then { s1 with msgs := FMap.erase s1.msgs id } else s1.modMsg id fun m => { m with snd := .ended, cmd := none }

/-- END_ACKNOWLEDGEMENT (R217, R233): of a message within this package, or the answer to another package's. -/
def execEndAcknowledgement (msg : Nat) (s : State) : Host.Outcome State Fault Refusal :=
  match FMap.get? s.msgs msg with
  | none => .next s
  | some m =>
    if !m.ended then .next s
    else if m.srcPkg = s.pkg then (if m.snd = .marked then .next (s.ackSend msg) else .next s)
    else if m.snd = .ended then .next s
    else
      match s.sendFlit (msgFlit m 0 0x15 m.srcPkg (Config.payOf 0x15 [m.num, 0]) (m.dstCtx, m.srcCtx)) (s.replyProt m) with
      | none => .next s
      | some t =>
        match m.rcv with
        | .landed => .next { t with msgs := FMap.erase t.msgs msg }
        | _ => .next (t.modMsg msg fun m => { m with snd := .ended })

/-- RECEIVE_COMPLETION_RELEASE (R213): completions held for want of room reach the pop side while it has room. -/
def execReceiveCompletionRelease (wave : Nat) (s : State) : Host.Outcome State Fault Refusal :=
  .next (s.modWave wave fun w =>
    let n := 8 - (w.present 5).length
    { w with pop := modAt w.pop 5 fun l => l ++ w.heldRx.take n, heldRx := w.heldRx.drop n })

/-! ### POSTR, CANRV and PROBE performed (R234, R235, R238) -/

/-- A word of an operation's entry. -/
def Op.entry (o : Op) (k : Nat) : Word := Row.lane (o.srcs.getD k []) 0

/-- The entry of a POSTR is valid (R234). -/
def postValid (size : Nat) (w : List Word) : Bool :=
  let v := fun k => (w.getD k 0).toNat
  let lim := bits (v 4) 0 22
  let mlen := ceilDiv (ceilDiv lim 192) 8
  bits (v 0) 18 14 == 0 && bits (v 1) 18 14 == 0 && bits (v 4) 22 9 == 0 &&
  (if bits (v 4) 31 1 = 1 then decide (v 6 < 2 ^ 12) else v 6 % 128 == 0 && decide (v 6 + lim ≤ size)) &&
  (v 7 == 2 ^ 32 - 1 || (v 7 % 16 == 0 && decide (v 7 + mlen ≤ size)))

/-- POSTR performed (R234, R235). -/
def State.performPostr (s : State) (id : Nat) (o : Op) : State :=
  let finish := fun (t : State) (v : Word) => t.modOp id fun o => o.finishAll [v] 0
  match s.wave? o.wave with
  | none => s
  | some w =>
    let words := (List.range 8).map o.entry
    match s.ctx? w.ctx with
    | none => finish s 3
    | some c =>
      if !postValid (s.sizeOn o.wg o.core) words then finish s 3
      else
        let ci := match s.wg? o.wg with | some g => g.coreIdx o.core | none => 0
        let p : Posted := { wave := o.wave, gen := o.gen, wg := o.wg, core := ci, words := words, num := id }
        let hit := c.unexpected.find? fun k => match FMap.get? s.msgs k with
          | some m => entryMatches words m.srcPkg m.srcCtx m.tag | none => false
        match hit with
        | some k =>
          let s1 := (s.modCtx w.ctx fun c => { c with unexpected := c.unexpected.filter (· != k) }).modMsg k fun m => { m with rcv := .matched p }
          finish (s1.landMsg k) 1
        | none =>
          if 4096 ≤ c.posted.length then finish s 2
          else finish (s.modCtx w.ctx fun c => { c with posted := c.posted ++ [p] }) 0

/-- CANRV performed (R238). -/
def State.performCanrv (s : State) (id : Nat) (o : Op) : State :=
  match s.wave? o.wave with
  | none => s
  | some w =>
    let finish := fun (t : State) (v : Word) => t.modOp id fun o => o.finishAll [v] 0
    match s.ctx? w.ctx with
    | none => finish s 1
    | some c =>
      match c.posted.find? fun p => p.wg == o.wg && p.words.getD 5 0 == o.entry 0 with
      | some p => finish (s.modCtx w.ctx fun c => { c with posted := c.posted.filter (· != p) }) 0
      | none => finish s 1

/-- PROBE performed (R238). -/
def State.performProbe (s : State) (id : Nat) (o : Op) : State :=
  match s.wave? o.wave with
  | none => s
  | some w =>
    let words := (List.range 4).map o.entry
    let hit := match s.ctx? w.ctx with
      | none => none
      | some c => (c.unexpected.filterMap fun k => FMap.get? s.msgs k).find? fun m => entryMatches words m.srcPkg m.srcCtx m.tag
    let r := match hit with
      | some m => completionOf m 0 m.len (m.valid m.nblocks) (if m.ended then 0 else 2)
      | none => [0, 0, 0, BitVec.ofNat 32 (4 * 2 ^ 24)]
    s.modOp id fun o => o.finishAll r 0

end Sys2Proof.Machine
end

