-- ==== Sys2Proof/Machine/Press.lean ====
section
/-! DEFINITION. The tile press and the press instructions (spec/05 R115 to R118, spec/16 R307 to R320). -/

namespace Sys2Proof.Machine

/-! ### Lattice and map (R309, R312, R313) -/

/-- The digits of a number in mixed radix, the first position fastest. -/
def digits : List Nat → Nat → List Nat
  | [], _ => []
  | n :: t, k => k % n :: digits t (k / n)

/-- A linear index from coordinates, dimension 0 fastest (R313). -/
def linearOf : List Nat → List Nat → Nat
  | g :: gs, x :: xs => g + x * linearOf gs xs
  | _, _ => 0

/-- The product of a list. -/
def product (l : List Nat) : Nat := l.foldl (· * ·) 1

/-- The rank of the iteration space (R307). -/
def Press.rank (p : Press) : Nat := p.ext.length
/-- Granules of the iteration space. -/
def Press.size (p : Press) : Nat := product p.ext
/-- A schedule register of the generation in force as a number. -/
def Press.reg (p : Press) (k : Nat) : Nat := (p.regs.getD k 0).toNat
/-- The dimension at each position of the loop order (R309). -/
def Press.order (p : Press) : List Nat :=
  let o := bits (p.reg 0) 0 18
  if o = 0 then List.range p.rank else (List.range p.rank).map fun k => bits o (3 * k) 3
/-- The tile extent of a dimension (R309, R312). -/
def Press.tileExt (p : Press) (i : Nat) : Nat := min (max (bits (p.reg (1 + i)) 0 16) 1) (p.ext.getD i 1)
/-- Tiles along a dimension. -/
def Press.tilesOf (p : Press) (i : Nat) : Nat := ceilDiv (p.ext.getD i 1) (p.tileExt i)
/-- Tiles of the lattice (R312). -/
def Press.tileCount (p : Press) : Nat := product (p.order.map p.tilesOf)
/-- Values given by position of the loop order, put by dimension. -/
def Press.byDim (p : Press) (l : List Nat) : List Nat :=
  (List.range p.rank).map fun i => l.getD ((p.order.findIdx? (· == i)).getD 0) 0
/-- The tile with a number: its origin and its extent (R312). -/
def Press.tileAt (p : Press) (k : Nat) : List Nat × List Nat :=
  let org := ((p.byDim (digits (p.order.map p.tilesOf) k)).zipIdx).map fun d => d.1 * p.tileExt d.2
  (org, org.zipIdx.map fun o => min (p.tileExt o.2) (p.ext.getD o.2 1 - o.1))
/-- The granules of a box, in the loop order: coordinates (R312). -/
def Press.granules (p : Press) (org ext : List Nat) : List (List Nat) :=
  let dims := p.order.map fun i => ext.getD i 1
  (List.range (product dims)).map fun k => ((p.byDim (digits dims k)).zipIdx).map fun d => d.1 + org.getD d.2 0
/-- A granule is FREE (R313). -/
def Press.isFree (p : Press) (g : Nat) : Bool := (FMap.get? p.map g).isNone
/-- Some granule is FREE. -/
def Press.anyFree (p : Press) : Bool := decide (p.map.length < p.size)
/-- Every granule is DONE (R320). -/
def Press.allDone (p : Press) : Bool := p.map.length == p.size && p.map.all fun x => x.2 == 2
/-- Granules given a code; FREE is no entry. -/
def Press.mark (p : Press) (gs : List Nat) (code : Nat) : Press :=
  { p with map := gs.foldl (fun m g => if code = 0 then FMap.erase m g else FMap.set m g code) p.map }

/-- A handle that no live tile has (R314). -/
def freshHandle (tiles : FMap Tile) : Nat → Nat → Nat
  | 0, h => h
  | fuel + 1, h => if (FMap.get? tiles h).isSome then freshHandle tiles fuel ((h + 1) % 2 ^ 32) else h

/-- A tile handed out (R314): its granules become CLAIMED and it receives a handle. -/
def Press.handOut (p : Press) (wg : Option Nat) (org ext : List Nat) : Nat × Press :=
  let gs := (p.granules org ext).map fun g => linearOf g p.ext
  let h := freshHandle p.tiles (p.tiles.length + 1) (p.next % 2 ^ 32)
  let tile : Tile := { org := org, ext := ext, granules := gs, gen := p.gen, wg := wg }
  (h, { p.mark gs 1 with tiles := FMap.set p.tiles h tile, next := (h + 1) % 2 ^ 32 })

/-- The loop of `claim()` (R314): some granule is FREE; the loop meets it within one round of the lattice. -/
def Press.claimLoop (wg : Option Nat) : Nat → Press → Option (Nat × Press)
  | 0, _ => none
  | fuel + 1, p0 =>
    let p := if p0.tileCount ≤ p0.cur then { p0 with cur := 0 } else p0
    let (org, ext) := p.tileAt p.cur
    let all := p.granules org ext
    let free := all.filter fun g => p.isFree (linearOf g p.ext)
    if free.length = all.length then some ({ p with cur := p.cur + 1 }.handOut wg org ext)
    else
      match free with
      | g :: _ => some (p.handOut wg g (g.map fun _ => 1))
      | [] => Press.claimLoop wg fuel { p with cur := p.cur + 1 }

/-- `claim()` at the press (R314): a handle and the press, or no granule FREE. -/
def Press.claim (p : Press) (wg : Option Nat) : Option (Nat × Press) :=
  if p.anyFree then Press.claimLoop wg (p.tileCount + 2) p else none

/-- The tiles that no workgroup holds return to FREE, and their handles lapse (R315). -/
def Press.recall (p : Press) : Press :=
  let back := p.tiles.filter fun t => t.2.wg.isNone
  { back.foldl (fun q t => q.mark t.2.granules 0) p with tiles := p.tiles.filter fun t => t.2.wg.isSome }

/-- The granules of a discarded workgroup's live handles revert, and the handles lapse (R318). -/
def Press.discard (p : Press) (wg : Nat) : Press :=
  let back := p.tiles.filter fun t => t.2.wg == some wg
  { back.foldl (fun q t => q.mark t.2.granules 0) p with tiles := p.tiles.filter fun t => t.2.wg != some wg }

/-- A handle handed out to a workgroup (R117). -/
def Press.valid? (p : Press) (h : Nat) : Option Tile := (FMap.get? p.tiles h).bind fun t => if t.wg.isSome then some t else none

/-- A tile retired or abandoned (R117, R318). -/
def Press.retire (p : Press) (h : Nat) (t : Tile) (abn : Bool) : Press :=
  { p.mark t.granules (if abn then 0 else 2) with tiles := FMap.erase p.tiles h }

/-- A schedule set passes the checks of R309 for a rank. -/
def schOk (r : Nat) (w : List Word) : Bool :=
  let v := fun k => (w.getD k 0).toNat
  let o := bits (v 0) 0 18
  bits (v 0) 18 14 == 0 && ((List.range 6).all fun i => bits (v (1 + i)) 16 16 == 0) && bits (v 7) 24 8 == 0 &&
  bits (v 9) 15 17 == 0 && bits (v 10) 4 28 == 0 &&
  (o == 0 || (List.range r).all fun i => ((List.range r).filter fun k => bits o (3 * k) 3 == i).length == 1)

/-- A commit (R316, R318): an accepted set becomes the next generation; the pre-claims are recalled and the cursor moves to
the first tile. `none` is a rejection. -/
def Press.commit (p : Press) : Option Press :=
  if schOk p.rank p.shadow then some { p.recall with regs := p.shadow, gen := (p.gen + 1) % 2 ^ 16, cur := 0 } else none

/-- The bytes of the map (R313). -/
def Press.bytes (p : Press) : List Byte :=
  (List.range (ceilDiv p.size 4)).map fun b =>
    BitVec.ofNat 8 (((List.range 4).map fun j => FMap.getD p.map (4 * b + j) 0 * 4 ^ j).foldl (· + ·) 0)
/-- The codes of a map in memory, as read with `INIT` = 0: DONE stays, every other code counts as FREE (R313). -/
def mapOfBytes (n : Nat) (bs : List Byte) : FMap Nat :=
  (List.range n).filterMap fun g => if bits (bs.getD (g / 4) 0).toNat (2 * (g % 4)) 2 = 2 then some (g, 2) else none

/-! ### The press of a node (R313, R315) -/

/-- The state with a node's press changed. -/
def State.modPress (s : State) (n : Nat) (f : Press → Press) : State := s.modNode n fun x => { x with press := x.press.map f }
/-- The press of a node. -/
def State.press? (s : State) (n : Nat) : Option Press := (s.node? n).bind Node.press
/-- Every die agent's pre-claims of a node return (R315). -/
def State.recallAll (s : State) (n : Nat) : State :=
  let s1 := s.dies.foldl (fun t d => if d.2.preclaims.any fun p => p.1 == n then t.modDie d.1 fun x => { x with preclaims := x.preclaims.filter fun p => p.1 != n } else t) s
  s1.modPress n Press.recall

/-- The map read into the press before the first claim, with `INIT` too, whose granules are all FREE whatever is read (R313): whether it is at hand,
`none` while a read is parked or under way, and `false` where a page was resolved with POISON, which ends the launch (R313, R356); at its end such
a page counts as zero. -/
def State.loadMap (s : State) (n : Nat) : Option Bool × State :=
  match s.node? n, s.press? n with
  | some x, some p =>
    if p.loaded then (some true, s)
    else
      match s.unitRead (.press n) 0 x.ctx .pressRead p.cmap (ceilDiv p.size 4) with
      | (none, t) => (none, t)
      | (some l, t) =>
        let good := !l.any UnitPart.poison
        if !good && x.stage == .running then (some false, t)
        else (some good, (t.dropUnit (.press n)).modPress n fun p =>
          { p with loaded := true, map := if p.init then [] else mapOfBytes p.size (partBytes l) })
  | _, _ => (some true, s)

/-- `claim()` for a workgroup or, with `none`, for a die agent (R314): the recall of the pre-claims comes first where no
granule is FREE. -/
def State.claimAt (s : State) (n : Nat) (wg : Option Nat) : Option Nat × State :=
  match s.press? n with
  | none => (none, s)
  | some p0 =>
    let s1 := if p0.anyFree then s else s.recallAll n
    match s1.press? n with
    | none => (none, s1)
    | some p =>
      match p.claim wg with
      | some (h, q) => (some h, s1.modPress n fun _ => q)
      | none => (none, s1)

/-! ### Press instructions -/

/-- The launch node of an operation's workgroup. -/
def State.opNode (s : State) (o : Op) : Nat := match s.wg? o.wg with
  | some g => g.node
  | none => match s.frames.find? fun f => f.2.id == o.wg with | some f => f.2.wg.node | none => 0

/-- A press instruction (R319). -/
def isPress : Instr → Bool
  | .claim .. => true | .tret .. => true | .schrd .. => true | .schwr .. => true | .schcm .. => true | _ => false
/-- An older press operation of the wave has not been performed (R319). -/
def State.olderPress (s : State) (key id : Nat) : Bool :=
  s.ops.any fun p => decide (p.1 < id) && p.2.wave == key && isPress p.2.instr && !p.2.done

/-- The wave is the tuner of its launch (R311, R118): wave 0 of claimer 0 of a tiled node flagged so. -/
def State.isTuner (s : State) (key : Nat) : Bool :=
  match s.wave? key with
  | none => false
  | some w =>
    match s.wg? w.wg with
    | none => false
    | some g =>
      match s.node? g.node with
      | some n => n.press.isSome && (match n.kernel with | some k => k.flg.testBit 1 | none => false) && w.index == 0 && g.ordinal == 0
      | none => false

/-- The words of a claimed tile (R116). -/
def tileWords (t : Tile) (h : Nat) : List Word :=
  ((List.range 6).map fun i => BitVec.ofNat 32 (t.ext.getD i 0 * 2 ^ 16 + t.org.getD i 0)) ++ [BitVec.ofNat 32 h, BitVec.ofNat 32 t.gen]
/-- The words of a claim without a tile (R116): status in bits 31 to 24; the spec states no generation for it, so the low half
is a free value (log 21). -/
def noTileWords (status : Nat) (free : BitVec 64) : List Word :=
  List.replicate 7 0 ++ [BitVec.ofNat 32 (status * 2 ^ 24 + bits free.toNat 0 16)]

/-- CLAIM performed (R116, R314, R315): by the die agent's cache, else by the press. -/
def State.performClaim (s : State) (id : Nat) (o : Op) : State :=
  if s.olderPress o.wave id then s
  else
    let n := s.opNode o
    let finish := fun (t : State) (ws : List Word) => t.modOp id fun o => o.finishAll ws 0
    match s.press? n with
    | none => finish s (noTileWords 2 (Config.freeWord s.tick))
    | some _ =>
      let die := o.core / 48
      match (s.die die).preclaims.find? fun p => p.1 == n with
      | some e =>
        let s1 := (s.modDie die fun d => { d with preclaims := d.preclaims.filter (· != e) }).modPress n fun p =>
          { p with tiles := p.tiles.map fun t => if t.1 = e.2 then (t.1, { t.2 with wg := some o.wg }) else t }
        match (s1.press? n).bind fun p => FMap.get? p.tiles e.2 with
        | some t => finish s1 (tileWords t e.2)
        | none => s1
      | none =>
        match s.loadMap n with
        | (some true, t) =>
          match t.claimAt n (some o.wg) with
          | (none, u) => finish u (noTileWords 1 (Config.freeWord s.tick))
          | (some h, u) =>
            match (u.press? n).bind fun p => FMap.get? p.tiles h with
            | some x => finish u (tileWords x h)
            | none => u
        | (_, t) => t

/-- CLAIM (R116): eight registers, performed by the press. -/
def execClaim (c : Ctl) (d : Reg) (s : State) : Host.Outcome State Fault Refusal :=
  laterOp c (.claim c d) (dstGroup d 8) s (fun _ => []) (fun _ => 0) (fun _ => none) fun _ _ t => t

/-- TRET performed (R117, R121): after the thread's earlier phases and once no thread of the run has a parked request. -/
def State.performTret (s : State) (id : Nat) (o : Op) : State :=
  if o.done || s.olderPress o.wave id || s.phasePending o.wave id || s.parkedBefore o.wave (BitVec.ofNat 32 o.aux) id then s
  else
    let n := s.opNode o
    let h := (o.entry 0).toNat
    let abn := match o.instr with | .tret _ a _ => a | _ => false
    let s1 := match (s.press? n).bind fun p => p.valid? h with
      | some t => s.modPress n fun p => p.retire h t abn
      | none => s.ownerMod o.wave o.gen fun w => w.raise wPRX
    (s1.modOp id fun o => { o with todo := 0, done := true }).reap id

/-- TRET (R117): its flag clears when the press has performed it (R121). -/
def execTret (c : Ctl) (abn : Bool) (a : Reg) (s : State) : Host.Outcome State Fault Refusal :=
  laterOp c (.tret c abn a) [] s (fun x => [Row.splat (x.v a x.low)]) (fun x => x.cl.run.toNat) (fun _ => none) fun id _ t =>
    match FMap.get? t.ops id with | some o => t.performTret id o | none => t

/-- The bits of a schedule register that are not reserved (R309). -/
def schBits (n : Nat) : Word :=
  if n = 0 then 0x3FFFF else if n ≤ 6 then 0xFFFF else if n = 7 then 0xFFFFFF else if n = 9 then 0x7FFF else if n = 10 then 0xF else 0xFFFFFFFF

/-- A schedule register as it reads, of the generation in force or of the shadow set; sch15 is the generation in force (R118, R309, R310). Reserved
bits read zero (R9), whatever the shadow keeps of them for the test of SCHCM (log 111). -/
def Press.schRead (p : Press) (sh : Bool) (n : Nat) : Word :=
  if n = 15 then BitVec.ofNat 32 p.gen else (if sh then p.shadow else p.regs).getD n 0 &&& schBits n

/-- SCHRD performed (R118, R310). -/
def State.performSchrd (s : State) (id : Nat) (o : Op) : State :=
  if s.olderPress o.wave id then s
  else
    let v := match o.instr, s.press? (s.opNode o) with
      | .schrd _ sh _ n, some p => p.schRead sh n.toNat
      | _, _ => 0
    s.modOp id fun o => o.finishAll [v] 0

/-- SCHRD (R118). -/
def execSchrd (c : Ctl) (sh : Bool) (d : Reg) (n : BitVec 4) (s : State) : Host.Outcome State Fault Refusal :=
  laterOp c (.schrd c sh d n) (dstGroup d 1) s (fun _ => []) (fun _ => 0) (fun _ => none) fun _ _ t => t

/-- SCHWR performed (R118, R316): in its place among the wave's press operations; `aux` 1 is a write that changes nothing. -/
def State.performSchwr (s : State) (id : Nat) (o : Op) : State :=
  if o.done || s.olderPress o.wave id then s
  else
    let s1 := match o.instr with
      | .schwr _ n _ => if o.aux = 0 then s.modPress (s.opNode o) fun p => { p with shadow := modAt p.shadow n.toNat fun _ => o.entry 0 } else s
      | _ => s
    (s1.modOp id fun o => { o with todo := 0, done := true }).reap id

/-- SCHWR (R118, R310, R121): misuse raises `PRX` at issue. -/
def execSchwr (c : Ctl) (n : BitVec 4) (a : Reg) (s : State) : Host.Outcome State Fault Refusal :=
  let bad := fun (x : Issue) => !s.isTuner x.key || n == 15
  laterOp c (.schwr c n a) [] s (fun x => [Row.splat (x.v a x.low)]) (fun x => (bad x).toNat) (fun _ => none) fun id x t =>
    let t1 := if bad x then t.modWave x.key fun w => w.raise wPRX else t
    match FMap.get? t1.ops id with | some o => t1.performSchwr id o | none => t1

/-- SCHCM performed (R118, R316): `aux` is 0 for the tuner, 1 for another wave of a tiled node, 2 in another launch. -/
def State.performSchcm (s : State) (id : Nat) (o : Op) : State :=
  if s.olderPress o.wave id then s
  else
    let n := s.opNode o
    let finish := fun (t : State) (v : Nat) => t.modOp id fun o => o.finishAll [BitVec.ofNat 32 v] 0
    match o.aux, s.press? n with
    | 0, some p =>
      match p.commit with
      | none => finish s (p.gen + 2 ^ 31)
      | some q => finish ((s.recallAll n).modPress n fun _ => q) q.gen
    | 1, some p => finish s (p.gen + 2 ^ 30)
    | _, _ => finish s (2 ^ 30)

/-- SCHCM (R118, R121): misuse raises `PRX` at issue. -/
def execSchcm (c : Ctl) (d : Reg) (s : State) : Host.Outcome State Fault Refusal :=
  let code := fun (x : Issue) =>
    if s.isTuner x.key then 0
    else match s.wg? x.w.wg with | some g => if (s.press? g.node).isSome then 1 else 2 | none => 2
  laterOp c (.schcm c d) (dstGroup d 1) s (fun _ => []) code (fun _ => none) fun _ x t =>
    if code x = 0 then t else t.modWave x.key fun w => w.raise wPRX

/-! ### Pre-claims (R315) -/

/-- PRECLAIM_REFILL (R315): a die agent on a permitted die obtains one tile on its own behalf, up to `PRE`. -/
def execPreclaimRefill (die node : Nat) (s : State) : Host.Outcome State Fault Refusal :=
  match s.node? node, s.press? node with
  | some x, some p =>
    let mask := bits (p.reg 7) 0 24
    let permitted := if mask = 0 then x.parts.any (fun k => (s.parts.getD k []).contains die) else mask.testBit die
    let held := ((s.die die).preclaims.filter fun e => e.1 == node).length
    if x.stage = .running && !x.killed && permitted && decide (die < 24) && decide (held < bits (p.reg 10) 0 4) then
      match s.loadMap node with
      | (some true, t) =>
        match t.claimAt node none with
        | (some h, u) => .next (u.modDie die fun d => { d with preclaims := d.preclaims ++ [(node, h)] })
        | (none, u) => .next u
      | (_, t) => .next t
    else .next s
  | _, _ => .next s

end Sys2Proof.Machine
end

