-- ==== Sys2Proof/Machine/Commands.lean ====
section
/-! DEFINITION. Command queues, launch commands, nodes and their eligibility, and SPAWN (spec/21, R342 to R353; R119). -/

namespace Sys2Proof.Machine

/-! ### Queue control blocks (R343 to R346) -/

/-- A sector of host memory in its home L2 is cleaned and dropped; others are left (R283, R345). -/
def State.refreshKey (s : State) (key : Nat) : State :=
  if s.hostKey key then
    let s1 := s.cleanHome key
    match s1.home? (secAddr key) with
    | some d => s1.modDie d fun x => { x with l2 := FMap.erase x.l2 key }
    | none => s1
  else s

/-- Physical bytes read at their home after a refresh at SYS (R345, R352). -/
def State.sysRead (s : State) (pa n : Nat) : List Byte × State :=
  let t := (List.range ((pa + n - 1) / 48 - pa / 48 + 1)).foldl (fun t i => t.refreshKey (pa / 48 + i)) s
  (t.homeRead pa n, t)

/-- A refresh at SYS for every home: the host sectors of every L2 (R352). -/
def State.refreshHost (s : State) : State :=
  s.dies.foldl (fun t p => (FMap.keys p.2.l2).foldl (fun u k => u.refreshKey k) t) s

/-- A field of bytes. -/
def field (bs : List Byte) (lo n : Nat) : Nat := leNat ((bs.drop lo).take n)

/-- A copy of a queue control block, if it is valid (R344, R345). -/
def qcbOf (commit : Nat) (b : List Byte) : Option Qcb :=
  let p := field b 12 1
  if field b 84 4 = bits commit 1 32 ∧ bits commit 33 31 = 0 ∧ field b 80 4 = (crc32c (b.take 80 ++ List.replicate 4 0 ++ (b.drop 84).take 4)).toNat ∧
      ((b.drop 16).take 64).all (· == 0) ∧ bits p 5 3 = 0 ∧ 1 ≤ field b 8 4 ∧ field b 8 4 ≤ 65536 ∧ field b 13 1 ≠ 0 ∧
      field b 14 2 ≠ 0 ∧ field b 0 8 % 192 = 0 then
    some { base := field b 0 8, slots := field b 8 4, prio := bits p 0 2, packet := p.testBit 2, devq := p.testBit 3, run := p.testBit 4,
           wgt := field b 13 1, grace := field b 14 2, seq := field b 84 4 }
  else none

/-- The state with a queue changed. -/
def State.modQueue (s : State) (cn q : Nat) (f : Queue → Queue) : State :=
  s.modCtx cn fun c => { c with queues := modAt c.queues q f }

/-- A queue of a context. -/
def State.queue? (s : State) (cn q : Nat) : Option Queue := (s.ctx? cn).bind fun c => c.queues[q]?

/-- A queue right after its context was created. -/
def Queue.fresh : Queue := { qcb := none, wc := 0, rd := 0, err := none, lapsed := false, last := none, round := 0 }

/-- A queue's control block is read (R345, R346). -/
def State.readQcb (s : State) (cn q : Nat) : State :=
  match s.ctx? cn with
  | none => s
  | some c =>
    let (bs, s1) := s.sysRead (c.qtab + 192 * q) 192
    let commit := field bs 176 8
    match qcbOf commit ((bs.drop (88 * (commit % 2))).take 88) with
    | none => s1.count 0x08 c.owner
    | some b => s1.modQueue cn q fun x =>
      { x with qcb := some b, err := match x.err with | some e => if e = b.seq then some e else none | none => none }

/-- A queue is ACTIVE (R346, R420). -/
def Queue.active (x : Queue) : Bool := (match x.qcb with | some b => b.run | none => false) && x.err.isNone && !x.lapsed

/-- A queue enters ERROR (R346). -/
def State.failQueue (s : State) (cn q : Nat) : State :=
  s.modQueue cn q fun x => if x.err.isSome then x else { x with err := some (match x.qcb with | some b => b.seq | none => 0) }

/-- A doorbell value reaches the scheduler (R343, R345, R400). -/
def State.ringBell (s : State) (fn cn q : Nat) (count : Nat) : State :=
  match s.ctx? cn with
  | none => s.count 0x07 fn
  | some c =>
    if c.owner ≠ fn ∨ c.ended ∨ c.queues.length ≤ q then s.count 0x07 fn
    else
      let s1 := s.readQcb cn q
      match s1.queue? cn q with
      | none => s1
      | some x =>
        match x.qcb with
        | none => s1
        | some b =>
          if b.devq then s1
          else if count < x.wc ∨ x.rd + b.slots < count then s1.count 0x07 fn
          else s1.modQueue cn q fun x => { x with wc := count }

/-- The scheduler's controller is switching its image: doorbells are held (R428). -/
def State.schedHeld (s : State) : Bool := match s.activation with | some a => a.kind == 3 | none => false

/-- DOORBELL_WRITE (R343, R428). -/
def execDoorbellWrite (fn ctx q : Nat) (count : BitVec 64) (s : State) : Host.Outcome State Fault Refusal :=
  if s.schedHeld then .next { s with heldBells := s.heldBells ++ [(fn, ctx, q, count)] }
  else .next (s.ringBell fn ctx q count.toNat)

/-! ### Fields of a command and of a kernel (R347 to R349) -/

/-- `CTL`. -/
def Node.ctl (n : Node) : Nat := field n.cmd 0 8
/-- `TYPE`. -/
def Node.type (n : Node) : Nat := bits n.ctl 0 8
/-- `NTOP`. -/
def Node.ntop (n : Node) : Nat := bits n.ctl 13 4
/-- `TILED`. -/
def Node.tiled (n : Node) : Bool := n.ctl.testBit 17
/-- `NPIN`. -/
def Node.npin (n : Node) : Nat := bits n.ctl 18 3
/-- `SPW`. -/
def Node.spw (n : Node) : Nat := bits n.ctl 21 5
/-- `RAGF`. -/
def Node.ragf (n : Node) : Nat := bits n.ctl 26 3
/-- `RAG`. -/
def Node.rag (n : Node) : Bool := n.ctl.testBit 29
/-- A pinned range: virtual base and length. -/
def Node.pin (n : Node) (i : Nat) : Nat × Nat := (field n.cmd (192 + 16 * i) 8, field n.cmd (200 + 16 * i) 8)
/-- A tile-operand descriptor. -/
def Node.top (n : Node) (i : Nat) : Nat := field n.cmd (288 + 32 * i) 32
/-- The tiled-node record. -/
def Node.tnode (n : Node) : Nat := field n.cmd 256 32
/-- The node waits or runs. -/
def Node.live (n : Node) : Bool := n.stage != .complete

/-- A kernel descriptor (R349). -/
def kernelFrom (b : List Byte) : Kernel :=
  let nf := field b 14 1
  { entry := field b 0 8, widths := (List.range (min nf 6)).map fun i => field b (8 + i) 1, tlv := field b 15 1, thr := field b 16 2,
    crs := field b 18 1, gng := field b 19 1, regs := field b 20 1, cvn := field b 21 1, kind := field b 22 1, flg := field b 23 1,
    scr := field b 24 4, acr := field b 28 2, sch := (List.range 15).map fun i => BitVec.ofNat 32 (field b (32 + 4 * i) 4),
    clean := decide (1 ≤ nf) && decide (nf ≤ 6) && field b 30 2 == 0 && (b.drop 92).all (· == 0) }

/-- The descriptor keeps its reserved bytes zero and the limits of R95 (R353, reason 2). -/
def Kernel.ok (k : Kernel) : Bool :=
  let total := levelBits k k.widths.length
  k.clean && (k.widths.all fun w => decide (w ≤ 64)) && decide (total ≤ 64) && decide (k.tlv ≤ k.widths.length) &&
  decide (threadBits k ≤ 13) && decide (1 ≤ k.thr) && decide (k.thr ≤ min 8192 (2 ^ threadBits k)) && decide (1 ≤ k.crs) &&
  decide (k.crs ≤ 4) && decide (1 ≤ k.gng) && decide (k.gng ≤ 16) && decide (8 ≤ k.regs) && decide (k.kind ≤ 2) &&
  decide (k.flg < 8) && k.scr % 128 == 0 && decide (k.scr ≤ if k.kind = 1 then 1474560 else 688128) && decide (k.acr ≤ 256) &&
  (k.acr == 0 || k.kind == 0)

/-- Waves of a workgroup (R262). -/
def Kernel.waves (k : Kernel) : Nat := ceilDiv k.thr 32
/-- Waves of core index `ci`, as indices (R262). -/
def Kernel.wavesOn (k : Kernel) (ci : Nat) : List Nat := (List.range k.waves).filter fun w => coreIndex w k.crs k.waves == ci
/-- Waves of core index `ci` on quarter `q` (R262). -/
def Kernel.wavesOnQ (k : Kernel) (ci q : Nat) : Nat := ((k.wavesOn ci).zipIdx.filter fun p => p.2 % 4 == q).length
/-- Core-exclusive (R267). -/
def Kernel.excl (k : Kernel) : Bool := k.flg.testBit 2
/-- Idempotent (R360). -/
def Kernel.idem (k : Kernel) : Bool := k.flg.testBit 0

/-! ### Taking commands (R350, R354) -/

/-- Live nodes of the package: the ready pool (R354). -/
def State.poolUsed (s : State) : Nat := (s.nodes.filter fun n => n.2.live).length
/-- Live nodes of a queue (R350). -/
def State.queueNodes (s : State) (cn q : Nat) : Nat := (s.nodes.filter fun n => n.2.live && n.2.ctx == cn && n.2.q == q).length

/-- A queue from which a command could be taken (R350): its priority and weight. -/
def State.takeable (s : State) (cn q : Nat) (x : Queue) : Option (Nat × Nat) :=
  match x.qcb with
  | some b => if x.active && decide (x.rd < x.wc) && decide (s.poolUsed < Config.poolNodes) && decide (s.queueNodes cn q < 256) then some (b.prio, b.wgt) else none
  | none => none

/-- Every takeable queue of a priority has had its weight in this round (R354). -/
def State.roundOver (s : State) (prio : Nat) : Bool :=
  s.ctxs.all fun c => c.2.queues.zipIdx.all fun x => match s.takeable c.1 x.2 x.1 with
    | some (p, w) => p != prio || decide (w ≤ x.1.round)
    | none => true

/-- A new round of a priority begins (R354). -/
def State.newRound (s : State) (prio : Nat) : State :=
  { s with ctxs := s.ctxs.map fun c => (c.1, { c.2 with queues := c.2.queues.map fun x =>
    match x.qcb with | some b => if b.prio = prio then { x with round := 0 } else x | none => x }) }

/-- The slot counts as taken: `RDPTR` advances by one, performed at SYS (R350). -/
def State.advance (s : State) (cn q : Nat) : State :=
  match s.ctx? cn, s.queue? cn q with
  | some c, some x =>
    (s.modQueue cn q fun x => { x with rd := x.rd + 1, round := x.round + 1 }).sysWrite (c.qtab + 192 * q + 184) (s.kept (c.qtab + 192 * q + 184) (leBytes 8 (x.rd + 1)))
  | _, _ => s

/-- The live node of a context with a node number (R351). -/
def State.liveNode (s : State) (cn num : Nat) : Option Nat :=
  (s.nodes.find? fun n => n.2.live && n.2.ctx == cn && n.2.num == num).map Prod.fst

/-- A command's bytes become a node (R350, R351). -/
def State.makeNode (s : State) (cn q : Nat) (x : Queue) (b : Qcb) (l : List UnitPart) : State :=
  let bs := partBytes l
  let named := (List.range 7).filterMap fun i =>
    let v := field bs (164 + 4 * i) 4
    if v = 2 ^ 32 - 1 then none else s.liveNode cn v
  let ord := if (field bs 0 8).testBit 38 then (match x.last with
    | some n => match s.node? n with | some y => if y.live then [n] else [] | none => []
    | none => []) else []
  let (id, s1) := s.fresh
  let n : Node := { ctx := cn, q := q, cmd := bs, num := field bs 160 4, preds := dedup (named ++ ord), stage := .waiting, order := 0,
                    prio := b.prio, packet := b.packet, grace := b.grace, kernel := none, ext := [], first := 0, total := 0, nextWg := 0,
                    again := [], retired := 0, startedAt := none, coresUsed := [], status := 0, reason := 0, killed := false,
                    graceAt := none, parts := [], press := none, poisoned := partBad l, semaAt := none, semaMet := false, cleanTo := 0 }
  ({ s1 with nodes := FMap.set s1.nodes id n }.modQueue cn q fun x => { x with last := some id }).advance cn q

/-- A command of a queue is read and made a node, or its read is parked (R350). -/
def State.takeCommand (s : State) (cn q : Nat) : State :=
  match s.queue? cn q with
  | none => s
  | some x =>
    match x.qcb with
    | none => s
    | some b =>
      match s.unitRead (.take cn q) 0 cn .engRead (b.base + 768 * (x.rd % b.slots)) 768 with
      | (none, t) => t
      | (some l, t) => (t.dropUnit (.take cn q)).makeNode cn q x b l

/-- COMMAND_TAKE (R350, R354). -/
def execCommandTake (ctx q : Nat) (s : State) : Host.Outcome State Fault Refusal :=
  match s.queue? ctx q with
  | none => .next s
  | some x =>
    match s.takeable ctx q x with
    | none => .next s
    | some (prio, wgt) =>
      if s.schedHeld then .next s
      else if x.round < wgt then .next (s.takeCommand ctx q)
      else if s.roundOver prio then .next ((s.newRound prio).takeCommand ctx q)
      else .next s

/-- A command whose read was resolved with KILL is discarded (R350): no node is made, and the queue enters ERROR. -/
def State.discardCommand (s : State) (cn q : Nat) : State :=
  (((s.dropUnit (.take cn q)).advance cn q).modQueue cn q fun x => { x with last := none }).failQueue cn q

/-! ### Eligibility (R351 to R353) -/

/-- The node's reads of its words, once every one of them is at hand (R352): the kernel descriptor's bytes, the extents, `FIRST`,
`LAST`, and whether an indirect word was not real data. -/
structure NodeWords where
  kd : List Byte
  ext : List Nat
  first : Nat
  last : Nat
  bad : Bool
  deriving DecidableEq, Repr

/-- A word of a command that an address bit may make indirect: read, or parked. -/
def State.nodeWord (s : State) (id cn : Nat) (v : Nat) (ind : Bool) : Option (Nat × Bool) × State :=
  if ind then
    match s.unitRead (.node id) 0 cn .engRead v 8 with
    | (none, t) => (none, t)
    | (some l, t) => (some (leNat (partBytes l), partBad l), t)
  else (some (v, false), s)

/-- Every word the node needs is read (R352); misses park at once. -/
def State.nodeWords (s : State) (id : Nat) (n : Node) : Option NodeWords × State :=
  let kd := if n.type = 1 then s.unitRead (.node id) 0 n.ctx .engRead (field n.cmd 8 8) 192 else (some [], s)
  let (es, s1) := (List.range 8).foldl (fun (a : List (Option (Nat × Bool)) × State) j =>
    let (r, t) := a.2.nodeWord id n.ctx (field n.cmd (64 + 8 * j) 8) (n.ctl.testBit (if j < 6 then 32 + j else 24 + j))
    (a.1 ++ [r], t)) ([], kd.2)
  match kd.1 with
  | none => (none, s1)
  | some l =>
    if es.any Option.isNone then (none, s1)
    else
      let v := fun j => ((es.getD j none).getD (0, false)).1
      (some { kd := partBytes l, ext := (List.range 6).map v, first := v 6, last := v 7,
              bad := es.any fun e => (e.getD (0, false)).2 }, s1)

/-- The extents of the tiled node's iteration space (R307). -/
def tiledExt (k : Kernel) (rank : Nat) (ext : List Nat) : List Nat := (List.range rank).map fun i => ext.getD (k.tlv + i) 0

/-- The tiled-node record passes R307 and R308. -/
def tiledOk (k : Kernel) (r : Nat) (ext : List Nat) : Bool :=
  let rank := bits r 96 3 + 1
  let n := k.widths.length
  let xs := tiledExt k rank ext
  decide (rank ≤ 6) && decide (rank + k.tlv ≤ n) && (xs.all fun x => decide (1 ≤ x) && decide (x ≤ 65535)) &&
  ((List.range n).all fun j => decide (j < k.tlv + rank) || ext.getD j 0 == 1) && decide (product xs ≤ 2 ^ 30) &&
  bits r 0 56 % 192 == 0 && bits r 56 40 == 0 && bits r 100 12 == 0 && bits r 128 128 == 0 && schOk rank k.sch

/-- Values of the ragged field: first and count (R352). -/
def ragRange (n : Node) (w : NodeWords) : Nat × Nat :=
  let hi := min w.last (w.ext.getD n.ragf 1 - 1)
  (w.first, hi + 1 - w.first)

/-- The extent of a field as the grid counts it (R352). -/
def gridExt (n : Node) (w : NodeWords) (j : Nat) : Nat := if n.rag && j == n.ragf then (ragRange n w).2 else w.ext.getD j 1

/-- Workgroups of the launch (R261, R307, R352). -/
def gridTotal (n : Node) (k : Kernel) (w : NodeWords) : Nat :=
  if n.rag && (ragRange n w).2 == 0 then 0
  else if n.tiled then bits n.tnode 112 16 + 1
  else product ((List.range k.widths.length).map fun j => if j < k.tlv then 1 else gridExt n w j)

/-! #### Shapes on a die (R263, R264) -/

/-- The core is a user core of a kind: 0 matrix, 1 stream (R15, R16). -/
def kindOf (core : Nat) : Nat := if 40 ≤ core then 1 else 0

/-- The core sets that one workgroup of `c` cores may take on a die (R263), lowest first. -/
def coreSets (c : Nat) : List (List Nat) :=
  let ok := fun (l : List Nat) => l.all fun k => decide (k < 47) && kindOf k == kindOf (l.headD 0)
  let blocks := (List.range 48).filterMap fun k => if k % 8 < 7 ∧ k < 40 then some [k, k + 1, k + 8, k + 9] else none
  match c with
  | 1 => ((List.range 47).map fun k => [k]).filter ok
  | 2 => ((List.range 48).flatMap fun k => (if k % 8 < 7 then [[k, k + 1]] else []) ++ (if k < 40 then [[k, k + 8]] else [])).filter ok
  | 3 => (blocks.flatMap fun b => b.map fun x => b.filter (· != x)).filter ok
  | 4 => blocks.filter ok
  | _ => []

/-- A gang's cores lie within 4 rows × 4 columns, are of one kind and at most 16 (R264). -/
def gangShape (l : List Nat) : Bool :=
  let rows := l.map (· / 8)
  let cols := l.map (· % 8)
  let span := fun (x : List Nat) => x.foldl max 0 - x.foldl min 100
  decide (l.length ≤ 16) && decide (span rows ≤ 3) && decide (span cols ≤ 3) && l.all fun k => kindOf k == kindOf (l.headD 0)

/-- Core sets for `g` workgroups that share no core, within one gang's shape, each admitted by `fit` (R264, R265). -/
def packGang (fit : List Nat → Bool) (sets : List (List Nat)) : Nat → List (List Nat) → Option (List (List Nat))
  | 0, acc => some acc
  | g + 1, acc =>
    sets.findSome? fun x =>
      let used := acc.flatMap id
      if (x.any fun k => used.contains k) || !gangShape (used ++ x) || !fit x then none else packGang fit sets g (acc ++ [x])

/-- A core of the kind a kernel declares (R16). -/
def kindOk (k : Kernel) (core : Nat) : Bool := k.kind == 2 || k.kind == kindOf core

/-- A gang of the kernel has a shape on an empty die (R353, reason 4). -/
def shapeOk (k : Kernel) : Bool := (packGang (fun x => x.all (kindOk k)) (coreSets k.crs) k.gng []).isSome

/-- A workgroup fits empty cores with `spw` scratchpad ways (R266; R353, reason 5). -/
def fitsEmpty (k : Kernel) (spw : Nat) : Bool :=
  decide (k.scr ≤ 49152 * spw) && decide (k.cvn ≤ 16) &&
  (List.range k.crs).all fun ci => (List.range 4).all fun q =>
    let n := k.wavesOnQ ci q
    decide (n ≤ 16) && decide (n * (ceilDiv k.regs 8 * 8) ≤ 1024)

/-- The partitions a command names; without `PARTM`, the queue's own (R347, R358; log 22). -/
def State.namedParts (s : State) (n : Node) : List Nat :=
  let m := field n.cmd 60 1
  if m ≠ 0 then setBits m 8
  else match s.ctx? n.ctx with
    | some c => if c.owner = 0 then (setBits c.parts 8).take 1 else [c.owner - 1]
    | none => []

/-- The lowest reason for which a node is refused (R353), reason 8 before all. -/
def State.nodeReason (s : State) (n : Node) (w : NodeWords) (k : Kernel) : Option Nat :=
  let ctl := n.ctl
  let launch := n.type == 1
  let n0 := k.widths.length
  let kok := !launch || k.ok
  let chk := fun (r : Nat) (bad : Bool) => if bad then [r] else []
  let rs :=
    chk 8 (n.poisoned || w.bad) ++
    chk 1 (!(n.type == 1 || n.type == 2) || bits ctl 48 16 != 0 || bits ctl 8 5 != 0 || field n.cmd 61 3 != 0 ||
      (n.cmd.drop 544).any (· != 0) || field n.cmd 40 2 != 0 || decide (5 < n.ragf) || decide (4 < n.npin) || decide (8 < n.ntop) ||
      decide ((if launch && k.kind != 1 then 14 else 30) < n.spw) ||
      (launch && n.rag && !(decide (k.tlv ≤ n.ragf) && decide (n.ragf < n0)))) ++
    chk 2 (!kok) ++
    (if launch && kok then
      chk 3 (((List.range n0).any fun j => decide (k.tlv ≤ j) && !(decide (1 ≤ w.ext.getD j 0) && decide (w.ext.getD j 0 ≤ 2 ^ k.widths.getD j 0))) ||
        decide (2 ^ 48 < gridTotal n k w)) ++
      chk 4 (!shapeOk k) ++ chk 5 (!fitsEmpty k n.spw) ++ chk 6 (n.tiled && !tiledOk k n.tnode w.ext)
    else []) ++
    chk 7 (match s.ctx? n.ctx with | some c => field n.cmd 60 1 &&& c.parts != field n.cmd 60 1 | none => false) ++
    chk 9 ((List.range (min n.npin 4)).any fun i => (n.pin i).1 % 192 != 0 || (n.pin i).2 % 192 != 0) ++
    chk 10 (n.preds.any fun p => match s.node? p with | some y => y.status == 2 || y.status == 3 || y.status == 4 | none => false)
  rs.head?

/-- The press of a tiled node in generation 0 (R307 to R310). -/
def pressOf (n : Node) (k : Kernel) (w : NodeWords) : Option Press :=
  if n.tiled then
    let r := n.tnode
    some { ext := tiledExt k (bits r 96 3 + 1) w.ext, cmap := bits r 0 56, init := r.testBit 99, loaded := false, map := [], regs := k.sch,
           shadow := k.sch, gen := 0, cur := 0, tiles := [], next := 1, writing := false }
  else none

/-- What the examination of a waiting node finds (R351 to R353). -/
inductive Found where
  /-- it stays: a predecessor, its semaphore or a read is missing -/
  | stays
  /-- refused with a reason -/
  | refused (reason : Nat)
  /-- a marker, or a launch without workgroups: it ends at once -/
  | ends
  /-- it is eligible -/
  | eligible
  deriving DecidableEq, Repr

/-- The semaphore of a node (R351): met, or not, or its read is parked or under way; a word that is not real data counts as met and refuses
the node. -/
def State.semaphore (s : State) (id : Nat) (n : Node) : Bool × State :=
  let a := field n.cmd 16 8
  if a = 0 ∨ n.poisoned ∨ n.semaMet then (true, s)
  else
    match s.unitRead (.node id) 0 n.ctx .engRead a 8 with
    | (none, t) => (false, if t.unitWaits (.node id) then t.modNode id fun n => { n with semaAt := some (2 ^ 56 + a) } else t)
    | (some l, t) =>
      if partBad l then (true, t.modNode id fun n => { n with poisoned := true })
      else if field n.cmd 24 8 ≤ leNat (partBytes l) then (true, t)
      else
        -- not met: the line is watched at its home; of fabric memory it is read again
        match t.unitPage (.node id) 0 n.ctx .engRead a with
        | (some (some pa), u) => (false, (u.forgetUnit (.node id)).modNode id fun n => { n with semaAt := some pa })
        | (_, u) => (false, u)

/-- A waiting node is examined (R351 to R353). -/
def State.examine (s : State) (id : Nat) : Found × State :=
  match s.node? id with
  | none => (.stays, s)
  | some n0 =>
    if n0.stage ≠ .waiting || n0.preds.any fun p => match s.node? p with | some y => y.live | none => false then (.stays, s)
    else
      match s.semaphore id n0 with
      | (false, t) => (.stays, t)
      | (true, t) =>
        match t.node? id with
        | none => (.stays, t)
        | some n =>
          match if n.poisoned then (some ⟨[], [], 0, 0, true⟩, t) else (t.refreshHost).nodeWords id n with
          | (none, u) => (.stays, u.modNode id fun n => { n with semaMet := true })
          | (some w, u0) =>
            let u := u0.dropUnit (.node id)
            let k := kernelFrom w.kd
            let (order, u1) := u.fresh
            let put := u1.modNode id fun n =>
              let ext := (List.range 6).map (gridExt n w)
              let kernel := if n.type = 1 then some k else none
              let first := if n.rag then w.first else 0
              { n with order := order, kernel := kernel, ext := ext, first := first, total := gridTotal n k w,
                       press := pressOf n k w, parts := u1.namedParts n, semaAt := none }
            match u.nodeReason n w k with
            | some r => (.refused r, u.modNode id fun n => { n with semaAt := none })
            | none => if n.type = 2 ∨ gridTotal n k w = 0 then (.ends, put) else (.eligible, put.modNode id fun n => { n with stage := .eligible })

/-! ### SPAWN (R119) -/

/-- SPAWN (R119): a command address that is not a multiple of 192 traps; all 64 bits of the operand are checked (DESIGN CHOICE, log 112). -/
def execSpawn (c : Ctl) (d a b : Reg) (s : State) : Host.Outcome State Fault Refusal :=
  laterOp c (.spawn c d a b) (dstGroup d 1) s
    (fun x => [Row.splat (x.v a x.low), Row.splat (x.v (nextReg a 1) x.low), Row.splat (x.v b x.low)]) (fun _ => 0)
    (fun x => if x.ud a % 192 ≠ 0 then some (4, x.ud a) else none) fun _ _ t => t

/-- The pages of a SPAWN's command on which its threads have an older parked request park behind it (R376). -/
def State.spawnBehind (s : State) (id : Nat) (o : Op) (va : Nat) : State :=
  (pagesOf va 768).foldl (fun t p =>
    if (t.unitReq (.op id o.lanes) .load (p.1 / pageBytes)).isSome then t
    else match t.lastOn o.wave (p.1 / pageBytes) o.lanes id with
      | some (die, rid, r) => t.parkBehind die rid r (.op id o.lanes) p.1 .load
      | none => t) s

/-- Another SPAWN's command is on its way to a ring in fabric memory: the slots are taken one at a time. -/
def State.spawnSent (s : State) (id : Nat) : Bool :=
  s.unitFabric.any fun u => (u.wrote || !u.pages.isEmpty) && (match u.kind with | .op i _ => i != id | _ => false)

/-- SPAWN performed (R119, R343, R345): the command is read at its home and appended to a device-fed queue. Bits 63 to 56 of its address are
not used (DESIGN CHOICE, log 112). -/
def State.performSpawn (s : State) (id : Nat) (o : Op) : State :=
  match s.anyWave? o.wave with
  | none => s
  | some w =>
    if s.phasePending o.wave id || s.spawnSent id then s
    else
      let finish := fun (t : State) (v : Nat) (f : BitVec 12) => t.modOp id fun o => o.finishAll [BitVec.ofNat 32 v] f
      let va := ((o.entry 0).toNat + 2 ^ 32 * (o.entry 1).toNat) % 2 ^ 56
      let q := (o.entry 2).toNat
      match s.queue? w.ctx q with
      | none => finish s 2 0
      | some _ =>
        let s1 := s.readQcb w.ctx q
        match s1.queue? w.ctx q with
        | none => finish s1 2 0
        | some x =>
          match x.qcb with
          | none => finish s1 2 0
          | some b =>
            if !b.devq || w.priv then finish s1 2 0
            else if b.slots ≤ x.wc - x.rd then finish s1 1 0
            else
              let die := o.walkDie ((LaneMask.lanes o.lanes).headD 0)
              let kind := ReqKind.op id o.lanes
              let s2 := s1.spawnBehind id o va
              match s2.unitRead kind die w.ctx .load va 768 (some o.wave) o.gen with
              | (none, t) => t
              | (some l, t) =>
                match t.unitWrite kind 0 w.ctx .engWrite (b.base + 768 * (x.wc % b.slots)) (partBytes l) (some o.wave) o.gen with
                | (none, u) => u
                | (some _, u) =>
                  let v := (u.dropUnit kind).modQueue w.ctx q fun x => { x with wc := x.wc + 1 }
                  finish v 0 (if partBad l then wEERR else 0)

end Sys2Proof.Machine
end

