-- ==== Sys2Proof/Machine/Placement.lean ====
section
/-! DEFINITION. Placing, staging, pinning and starting workgroups and gangs (spec/13, R260 to R270; R285, R305, R358, R410). -/

namespace Sys2Proof.Machine

/-! ### What fits on a core (R18, R266, R267, R309) -/

/-- Workgroups on a core. -/
def State.onCore (s : State) (core : Nat) : List (Nat × Workgroup) := s.wgs.filter fun g => g.2.cores.contains core
/-- The kernel of a resident workgroup declares a core-exclusive launch. -/
def State.isExcl (s : State) (g : Workgroup) : Bool := match s.kernelOf g with | some k => k.excl | none => false
/-- User waves on a quarter of a core. -/
def State.onQuarter (s : State) (core q : Nat) : FMap Wave := s.waves.filter fun p => p.1 / 16 == core * 4 + q
/-- Register rows of a wave (R18). -/
def Wave.rows (w : Wave) : Nat := ceilDiv w.nregs 8 * 8

/-- Runs that do not meet others: the lowest base at which `n` fit below `top`, on a grid of `step` (R266, R287). -/
def firstFit (used : List (Nat × Nat)) (n step top : Nat) : Option Nat :=
  let bases := 0 :: used.map fun u => ceilDiv (u.1 + u.2) step * step
  (bases.filter fun b => decide (b + n ≤ top) && used.all fun u => decide (b + n ≤ u.1) || decide (u.1 + u.2 ≤ b) || n == 0 || u.2 == 0).foldl
    (fun a b => match a with | some x => some (min x b) | none => some b) none

/-- The base of a scratchpad region on a core (R287). -/
def State.regionFor (s : State) (core bytes ways : Nat) : Option Nat :=
  firstFit ((s.onCore core).map fun g => (g.2.spBases.getD (g.2.coreIdx core) 0, g.2.size (g.2.coreIdx core))) bytes 128 (49152 * ways)

/-- The first rows at which a run of accumulator rows is free on every core of a set (R266). -/
def State.accBases (s : State) (cores : List Nat) (n : Nat) : List Nat :=
  (List.range (257 - n)).filter fun b => cores.all fun core => (s.onCore core).all fun g =>
    g.2.accN == 0 || decide (b + n ≤ g.2.acc0) || decide (g.2.acc0 + g.2.accN ≤ b)

/-- The schedule registers permit a claimer on a core (R309). -/
def Press.permits (p : Press) (die core : Nat) : Bool :=
  let dies := bits (p.reg 7) 0 24
  let lo := p.reg 8
  let hi := bits (p.reg 9) 0 15
  (dies == 0 || dies.testBit die) && ((lo == 0 && hi == 0) || (if core < 32 then lo.testBit core else hi.testBit (core - 32)))

/-- The schedule registers permit a claimer of a node on a core of a die (R309): `DIES` of 0 stands for the dies of the launch's partitions. -/
def State.permits (s : State) (n : Node) (p : Press) (die core : Nat) : Bool :=
  p.permits die core && (bits (p.reg 7) 0 24 != 0 || (n.parts.flatMap fun j => s.parts.getD j []).contains die)

/-- A workgroup of a node fits a set of cores of a die (R266, R267, R309); a saved one with its recorded size, run of rows and
split (R363, R364). -/
def State.fits (s : State) (n : Node) (k : Kernel) (die : Nat) (old : Option Frame) (set : List Nat) : Bool :=
  let cores := set.map (die * 48 + ·)
  (set.zipIdx.all fun x =>
    let core := die * 48 + x.1
    let here := s.onCore core
    let size := match old with | some f => f.wg.size x.2 | none => k.scr
    let ways := match old with | some f => if k.excl then f.ways.getD x.2 n.spw else n.spw | none => n.spw
    decide (x.1 < 47) && kindOk k x.1 && (match n.press with | some p => s.permits n p die x.1 | none => true) &&
    decide (here.length < 64) && (here.isEmpty || (!k.excl && (s.core core).spWays == n.spw && !here.any fun g => s.isExcl g.2)) &&
    decide (ways ≤ if streamCore x.1 then 30 else 14) && (s.regionFor core size ways).isSome &&
    decide ((here.map fun g => g.2.cvs.length).foldl (· + ·) 0 + k.cvn ≤ 16) &&
    (List.range 4).all fun q =>
      let ws := s.onQuarter core q
      let m := match old with
        | some f => (f.waves.filter fun w => coreIndex w.wave.index k.crs k.waves == x.2 && (w.wave.index - (k.wavesOn x.2).headD 0) % 4 == q).length
        | none => k.wavesOnQ x.2 q
      decide (ws.length + m ≤ 16) && decide ((ws.map fun w => w.2.rows).foldl (· + ·) 0 + m * (ceilDiv k.regs 8 * 8) ≤ 1024)) &&
  (k.acr == 0 || (match old with | some f => (s.accBases cores k.acr).contains f.wg.acc0 | none => !(s.accBases cores k.acr).isEmpty))

/-! ### Units: workgroups or gangs still to be placed (R264, R265, R268, R358) -/

/-- The named partition, as its place among them, on which a unit runs (R358; of a gang, by the gang's number, log 23). -/
def Node.partOf (n : Node) (k : Kernel) (o : Nat) : Nat := o / k.gng % max 1 n.parts.length

/-- The first ordinal of the next unit of a partition that has not started: a discarded one, or one never started (R268, R360). -/
def Node.pending (n : Node) (k : Kernel) (j : Nat) : Option Nat :=
  let kn := max 1 n.parts.length
  let again := n.again.filter fun o => n.partOf k o == j
  let new := ((List.range kn).map fun i => (n.nextWg / k.gng + i) * k.gng).filter fun o => decide (o < n.total) && n.partOf k o == j
  ((again ++ new).foldl (fun a o => match a with | some x => some (min x o) | none => some o) (none : Option Nat)).map fun o => o / k.gng * k.gng

/-- The ordinals of a unit (R264). -/
def Node.unitOf (n : Node) (k : Kernel) (o : Nat) : List Nat := (List.range (min k.gng (n.total - o))).map (o + ·)

/-- A context of a session that has lapsed (R420). -/
def State.ctxLapsed (s : State) (cn : Nat) : Bool := s.sessions.any fun x => x.2.lapsed && !x.2.ended && x.2.ctxs.contains cn

/-- The dies of a named partition (R400); none while the session of the context has lapsed (R420, DEDUCED, log 33). -/
def State.partDies (s : State) (n : Node) (j : Nat) : List Nat :=
  if s.ctxLapsed n.ctx then [] else s.parts.getD (n.parts.getD j 8) []

/-- What a launch has still to pin on a die (R285). -/
def State.pinNeed (s : State) (id : Nat) (n : Node) (die : Nat) : Nat :=
  ((List.range n.npin).map fun i => if (s.die die).pins.any (fun p => p.node == id && p.range == i) then 0 else (n.pin i).2).foldl (· + ·) 0

/-- What a die still may pin is enough for a launch (R285), beside what the launches placed there have still to pin. -/
def State.pinRoom (s : State) (id : Nat) (n : Node) (die : Nat) : Bool :=
  let waiting := (dedup ((s.wgs.filter fun g => g.2.die == die && g.2.staging.contains 0).map fun g => g.2.node)).filter (· != id)
  let others := (waiting.map fun m => match s.node? m with | some x => s.pinNeed m x die | none => 0).foldl (· + ·) 0
  decide (((s.die die).pins.map Pin.len).foldl (· + ·) (s.pinNeed id n die + others) ≤ 16 * 2 ^ 20)

/-- A unit of a protected context needs a ticket, which waits while the die's firmware is held (R410, R428, R441). -/
def State.ticketHeld (s : State) (n : Node) (die : Nat) : Bool := s.ctxProt n.ctx && (s.die die).fwHeld

/-- A placement of a unit on a die, lowest cores first, if there is one. -/
def State.placeOn (s : State) (id : Nat) (n : Node) (k : Kernel) (o die : Nat) : Option (List (List Nat)) :=
  if s.pinRoom id n die && !s.ticketHeld n die then packGang (s.fits n k die none) (coreSets k.crs) (n.unitOf k o).length [] else none

/-- The next unit of a partition can be placed somewhere now: die and cores. -/
def State.canPlace (s : State) (id : Nat) (n : Node) (k : Kernel) (j : Nat) : Option (Nat × Nat × List (List Nat)) :=
  match n.pending k j with
  | none => none
  | some o => (s.partDies n j).findSome? fun d => (s.placeOn id n k o d).map fun c => (o, d, c)

/-- The frames of a saved gang, in order, and the placement of each on a die (R265, R363, R364). -/
def State.gangFrames (s : State) (gang : Nat) : List (Nat × Frame) := s.frames.filter fun f => f.2.wg.gang == gang

/-- Cores for the frames of a gang on a die: each admits its own frame. -/
def packFrames (fit : Frame → List Nat → Bool) (sets : List (List Nat)) : List Frame → List (List Nat) → Option (List (List Nat))
  | [], acc => some acc
  | f :: fs, acc =>
    sets.findSome? fun x =>
      let used := acc.flatMap id
      if (x.any fun k => used.contains k) || !gangShape (used ++ x) || !fit f x then none else packFrames fit sets fs (acc ++ [x])

/-- A placement of a saved gang on a die. -/
def State.restoreOn (s : State) (id : Nat) (n : Node) (k : Kernel) (gang die : Nat) : Option (List (List Nat)) :=
  if s.pinRoom id n die then
    packFrames (fun f x => s.fits n k die (some f) x) (coreSets k.crs) ((s.gangFrames gang).map Prod.snd) []
  else none

/-- A placement of a saved gang that the agents make: the die's firmware performs the CTXLD (R251, R405), unless it is held (R428, R441). -/
def State.returnOn (s : State) (id : Nat) (n : Node) (k : Kernel) (gang die : Nat) : Option (List (List Nat)) :=
  if (s.die die).fwHeld then none else s.restoreOn id n k gang die

/-- Saved gangs of a node that are ready to return, in the order in which they became ready (R273). -/
def State.readyGangs (s : State) (id : Nat) : List Nat :=
  let fs := s.frames.filterMap fun f => if f.2.wg.node = id then f.2.ready.map fun t => (t, f.2.wg.gang) else none
  dedup ((sortBy (fun a b => decide (a.1 ≤ b.1)) fs).map Prod.snd)

/-- The partition, as its place, on which a saved gang runs. -/
def State.gangPart (s : State) (n : Node) (k : Kernel) (gang : Nat) : Nat :=
  match s.gangFrames gang with | f :: _ => n.partOf k f.2.wg.ordinal | [] => 0

/-- The reservations of a node over its partitions (R358): for each of them that has a unit to start, that unit, its die and its cores;
`none` where one of them fails. -/
def State.reserve (s : State) (id : Nat) (n : Node) (k : Kernel) : Option (List (Nat × Nat × List (List Nat))) :=
  (List.range n.parts.length).foldl (fun (a : Option (List (Nat × Nat × List (List Nat)))) j =>
    match a with
    | none => none
    | some l => match n.pending k j with
      | none => some l
      | some _ => (s.canPlace id n k j).map fun c => l ++ [c]) (some [])

/-- Some unit of a node, saved and ready or never started, can be placed now; of an eligible one over several partitions, all its
reservations can be made (R354, R358). -/
def State.placeable (s : State) (id : Nat) (n : Node) : Bool :=
  match n.kernel with
  | none => false
  | some k =>
    !n.killed &&
    (match n.stage with
     | .running => ((s.readyGangs id).any fun g => (s.partDies n (s.gangPart n k g)).any fun d => (s.returnOn id n k g d).isSome) ||
        (List.range (max 1 n.parts.length)).any fun j => (s.canPlace id n k j).isSome
     | .eligible => if n.parts.length ≤ 1 then (s.canPlace id n k 0).isSome else (s.reserve id n k).isSome
     | _ => false)

/-- A unit of a node waits: never started, or saved and ready to return (R272, R359). -/
def State.waitsRoom (s : State) (id : Nat) (n : Node) : Bool :=
  match n.kernel with
  | none => false
  | some k =>
    (n.stage == .running || n.stage == .eligible) && !n.killed &&
    (!(s.readyGangs id).isEmpty || (List.range (max 1 n.parts.length)).any fun j => (n.pending k j).isSome)

/-- A node goes before another (R354). -/
def Node.before (a b : Node) : Bool := decide (a.prio < b.prio) || (a.prio == b.prio && decide (a.order < b.order))

/-- A node that goes before can be placed: a later one waits (R354). -/
def State.outranked (s : State) (id : Nat) (n : Node) : Bool :=
  s.nodes.any fun m => m.1 != id && m.2.before n && s.placeable m.1 m.2

/-! ### Pinned ranges (R285) -/

/-- The pinned ranges of a node translated on a workgroup's die, and pinned: `none` while a page is parked; else the state, with
the records of ranges that fail. -/
def State.tryPins (s : State) (wgn : Nat) : Option State × State :=
  match s.wg? wgn with
  | none => (none, s)
  | some g =>
    match s.node? g.node with
    | none => (none, s)
    | some n =>
      let kind := ReqKind.pin wgn
      let todo := (List.range n.npin).filter fun i => !((s.die g.die).pins.any fun p => p.node == g.node && p.range == i)
      let pieces := todo.flatMap fun i => (cutPages [⟨(n.pin i).1, (n.pin i).2, 0⟩]).map fun p => (i, p)
      let (tr, s1) := pieces.foldl (fun (a : List (Nat × Piece × Option (Option Nat)) × State) x =>
        let (r, t) := a.2.unitPage kind g.die n.ctx .engRead x.2.va
        (a.1 ++ [(x.1, x.2, r)], t)) ([], s)
      if tr.any fun x => x.2.2.isNone then (none, s1)
      else
        let s2 := s1.dropUnit kind
        let w0 := g.waves.headD freedKey
        let post := fun (t : State) (code w2 w3 : Nat) => t.modWave w0 fun w => w.postError code 1 0 0 w2 w3
        let done := todo.foldl (fun t i =>
          let mine := tr.filter fun x => x.1 == i
          let bad := mine.find? fun x => match x.2.2.join with
            | none => true
            | some pa => (List.range (ceilDiv x.2.1.n 192)).any fun j => match t.backing (pa + 192 * j) with | .dev d => d != g.die | _ => true
          match bad with
          | some x => match x.2.2.join with
            -- a page resolved with POISON (log 24)
            | none => post t 0x30 (x.2.1.va % 2 ^ 32) (x.2.1.va / 2 ^ 32 % 2 ^ 24)
            | some _ => post t 0x12 0 0
          | none => t.modDie g.die fun d => { d with pins := d.pins ++ mine.map fun x =>
              ⟨g.node, i, n.ctx, x.2.1.va, (x.2.2.join).getD 0, x.2.1.n⟩ }) s2
        (some (done.modWg wgn fun g => { g with staging := g.staging.filter (· != 0) }), done)

/-- The pinning of a workgroup goes on as far as it can; 0 stands for it among the staging commands. -/
def State.goPins (s : State) (wgn : Nat) : State :=
  match s.wg? wgn with
  | some g => if g.staging.contains 0 then (match s.tryPins wgn with | (some t, _) => t | (none, t) => t) else s
  | none => s

/-! ### Creating a workgroup (R258, R261, R262, R269, R270) -/

/-- The identifier of a workgroup, thread bits zero, from its ordinal (R261, R307, R352). -/
def identOf (n : Node) (k : Kernel) (o : Nat) : Nat :=
  if n.tiled then o * 2 ^ threadBits k
  else
    let fields := (List.range k.widths.length).filter fun j => decide (k.tlv ≤ j)
    let ds := digits (fields.map fun j => n.ext.getD j 1) o
    ((fields.zip ds).map fun p => (p.2 + if n.rag && p.1 == n.ragf then n.first else 0) * 2 ^ levelBits k p.1).foldl (· + ·) 0

/-- A value of a work-identifier field of a workgroup, its threads' bits zero. -/
def identField (k : Kernel) (ident f : Nat) : Nat := bits ident (levelBits k f) (k.widths.getD f 0)

/-- The operands of a staging copy (R270): record, five coordinates, offset, and 1 for an invalid descriptor. -/
def stageArgs (k : Kernel) (ident d : Nat) : List Word :=
  let fld := fun i => bits d (40 * i) 3
  let bad := bits d 234 22 != 0 || bits d 200 21 % 128 != 0 ||
    (List.range 5).any fun i => fld i == 6 || (fld i != 7 && decide (k.widths.length ≤ fld i))
  let coord := fun i =>
    let f : Nat := if fld i = 7 then 0 else identField k ident (fld i)
    BitVec.ofInt 32 (sext (bits d (40 * i + 16) 24) 24 + sext (bits d (40 * i + 3) 13) 13 * (f : Int))
  [BitVec.ofNat 32 (bits d 222 12)] ++ (List.range 5).map coord ++ [BitVec.ofNat 32 (bits d 200 21), if bad then 1 else 0]

/-- A control field without effect. -/
def noCtl : Ctl := ⟨0, 0, 15, 255, 0, false⟩

/-- The staging copies of a workgroup (R270), in the order of its operands; their numbers, with the state. -/
def State.stageAll (s : State) (wgn : Nat) (n : Node) (k : Kernel) (g : Workgroup) : List Nat × State :=
  ((List.range n.ntop).flatMap fun i =>
    (if (n.top i).testBit 221 then List.range g.cores.length else [0]).map fun ci => (n.top i, ci)).foldl
    (fun (a : List Nat × State) x =>
      let (id, t) := a.2.fresh
      let w0 := g.waves.getD ((k.wavesOn x.2).headD 0) freedKey
      let gen := match t.wave? w0 with | some w => w.gen | none => 0
      let c : Cmd := { wave := w0, gen := gen, wg := wgn, core := x.2, instr := .cpyt noCtl false 255 255 255 255, args := stageArgs k g.ident x.1,
                       flag := none, stage := .pushed, record := [], err := none, pois := false, poisPages := [], released := true,
                       staging := true, lines := [], sent := false, ticket := g.ticket, got := [], wrote := [] }
      (a.1 ++ [id], { t with cmds := FMap.set t.cmds id c })) ([], s)

/-- The lowest free slot of a quarter (R240). -/
def State.freeSlot (s : State) (core q : Nat) : Nat :=
  ((List.range 16).find? fun i => (s.wave? ((core * 4 + q) * 16 + i)).isNone).getD 0

/-- A wave as its workgroup starts it (R258, R262). An `ENTRY` that is no multiple of 16 is rounded down to one (DESIGN CHOICE, log 91). -/
def newWave (n : Node) (k : Kernel) (wgn gen index tick : Nat) : Wave :=
  let entry := BitVec.ofNat 52 (k.entry / 16)
  { priv := false, ctx := n.ctx, wg := wgn, index := index, nregs := k.regs,
    pct := laneNums.map fun L => ⟨decide (k.thr ≤ index * 32 + L), false, 0, entry, 0⟩,
    regs := (List.range 8).map fun i => (i, Row.splat (BitVec.ofNat 32 (field n.cmd (128 + 4 * i) 4))),
    holds := [], flags := List.replicate 12 0, wstat := 0, clause := none, counters := List.replicate 4 [], push := List.replicate 8 [],
    pop := List.replicate 8 [], ovf := false, heldRx := [], gen := gen, stop := .agent, haltReq := false, active := false, starts := 0,
    lastIssue := tick, waitSince := tick, pend := [], waits := [], locks := [], cvWait := [], zeroFetch := none }

/-- A wave put on its quarter: its key, with the state (R262). -/
def State.seatWave (s : State) (k : Kernel) (cores : List Nat) (w : Wave) : Nat × State :=
  let ci := coreIndex w.index k.crs k.waves
  let core := cores.getD ci 0
  let q := (w.index - (k.wavesOn ci).headD 0) % 4
  let key := (core * 4 + q) * 16 + s.freeSlot core q
  (key, s.setWave key w)

/-- A core is given to a context (R204, R266, R323): its split is set if it holds no workgroup; for another context its error log
is cleared and its write-combining buffer drained. -/
def State.giveCore (s : State) (core ctx ways : Nat) (excl : Bool) : State :=
  let s1 :=
    if (s.onCore core).isEmpty then
      let out := (s.core core).l1.filter fun p => decide (p.2.way < ways)
      (out.foldl (fun t p => t.cleanL1 core p.1 false) s).modCore core fun c =>
        { c with spWays := ways, l1 := c.l1.filter fun p => decide (ways ≤ p.2.way) }
    else s
  let s2 := if (s1.core core).ctx = some ctx then s1
    else (s1.drainWcb core fun _ => true).modCore core fun c => { c with merr := Core.reset.merr, ctx := some ctx }
  s2.modCore core fun c => { c with excl := excl }

/-- The lowest workgroup slot that is free on a first core (R240). -/
def State.freeHandle (s : State) (core : Nat) : Nat :=
  ((List.range 64).find? fun i => !((s.onCore core).any fun g => g.2.cores.head? == some core && g.2.slot == i)).getD 0

/-- Accumulator rows zeroed on a core (R269, R357). -/
def State.zeroAcc (s : State) (core row n : Nat) : State :=
  s.modCore core fun c => { c with acc := c.acc.filter fun p => decide (p.1 / 192 < row) || decide (row + n ≤ p.1 / 192) }

/-- One workgroup of a unit placed (R258 to R270): its state on its cores, its waves, stopped until they start. -/
def State.placeWg (s : State) (id : Nat) (n : Node) (k : Kernel) (gang pos o die : Nat) (ticket : BitVec 64) (set : List Nat) : Nat × State :=
  let cores := set.map (die * 48 + ·)
  let (wgn, s1) := s.fresh
  let bases := s1.accBases cores k.acr
  let acc0 := if k.acr = 0 then 0 else bases.getD (Config.freeChoice s.tick % bases.length) 0
  let bases_ := cores.map fun c => (s1.regionFor c k.scr n.spw).getD 0
  let slot := s1.freeHandle (cores.headD 0)
  let s2 := cores.foldl (fun t c => (t.giveCore c n.ctx n.spw k.excl).zeroAcc c acc0 k.acr) s1
  let (keys, s3) := (List.range k.waves).foldl (fun (a : List Nat × State) i =>
    let (gen, t) := a.2.fresh
    let (key, u) := t.seatWave k cores (newWave n k wgn gen i s.tick)
    (a.1 ++ [key], u)) ([], s2)
  let g : Workgroup :=
    { node := id, ctx := n.ctx, ordinal := o, ident := identOf n k o, gang := gang, pos := pos, die := die, cores := cores,
      slot := slot, waves := keys, threads := k.thr, spSizes := cores.map fun _ => k.scr, spBases := bases_, sp := [], acc0 := acc0, accN := k.acr,
      cvs := List.replicate k.cvn ⟨none, 0, []⟩, bars := [], ticket := ticket, started := false, staging := [], killed := false,
      swappable := none, frozen := false, lapse := false }
  let s4 := { s3 with wgs := FMap.set s3.wgs wgn g }
  let (ids, s5) := s4.stageAll wgn n k g
  let pins := if n.npin = 0 then [] else [0]
  (wgn, ((s5.modWg wgn fun g => { g with staging := pins ++ ids }).goPins wgn))

/-- A ticket that is neither 0 nor among those given this boot (R410): the one drawn, or else the least such number. -/
def freshTicket (given : List (BitVec 64)) (drawn : BitVec 64) : BitVec 64 :=
  if drawn ≠ 0 && !given.contains drawn then drawn
  else (((List.range (given.length + 1)).map fun k => BitVec.ofNat 64 (k + 1)).find? fun x => x != 0 && !given.contains x).getD 1

/-- A unit placed on a die (R265, R268): its gang, with a fresh ticket in a protected context (R410); the node's record of what has
started. -/
def State.placeUnit (s : State) (id : Nat) (n : Node) (k : Kernel) (o die : Nat) (sets : List (List Nat)) : State :=
  let prot := match s.ctx? n.ctx with | some c => c.prot | none => false
  let ticket := if prot then freshTicket s.tickets (Config.ticket s.bootCount s.drawn) else 0
  let s0 := if prot then { s with drawn := s.drawn + 1, tickets := s.tickets ++ [ticket] } else s
  let (gang, s1) := s0.fresh
  let (wgs, s2) := ((n.unitOf k o).zip sets).zipIdx.foldl (fun (a : List Nat × State) x =>
    let (w, t) := a.2.placeWg id n k gang x.2 x.1.1 die ticket x.1.2
    (a.1 ++ [w], t)) ([], s1)
  let cores := sortBy (fun a b => decide (a ≤ b)) (sets.flatMap fun l => l.map (die * 48 + ·))
  let g : Gang := { node := id, wgs := wgs, cores := cores, bar := ⟨0, []⟩ }
  let s3 := { s2 with gangs := FMap.set s2.gangs gang g }
  s3.modNode id fun x =>
    let skipped := if x.nextWg ≤ o then (List.range (o - x.nextWg)).map (x.nextWg + ·) else []
    { x with again := (x.again.filter fun a => !((n.unitOf k o).contains a)) ++ skipped,
             nextWg := if x.nextWg ≤ o then o + (n.unitOf k o).length else x.nextWg,
             startedAt := (match x.startedAt with | some t => some t | none => some s.tick),
             coresUsed := dedup (x.coresUsed ++ cores) }

/-- WORKGROUP_PLACE (R263 to R270, R285, R354, R358): the next unit of a node on the cores of a die that the agent chose, if every
limit holds there, no saved unit that is ready can be placed, and no earlier unit can be placed anywhere. -/
def execWorkgroupPlace (node die : Nat) (cores : List (List Nat)) (s : State) : Host.Outcome State Fault Refusal :=
  match s.node? node with
  | none => .next s
  | some n =>
    match n.kernel with
    | none => .next s
    | some k =>
      let s0 := s.freeGone
      let js := (List.range (max 1 n.parts.length)).filter fun j => (s0.partDies n j).contains die
      match js.filterMap (n.pending k) with
      | [] => .next s
      | o :: _ =>
        let unit := n.unitOf k o
        let disjoint := (cores.flatMap id).length == (dedup (cores.flatMap id)).length
        let shape := cores.length == unit.length && disjoint && gangShape (cores.flatMap id) &&
          cores.all fun x => (coreSets k.crs).contains x && s0.fits n k die none x
        let earlier := (List.range (max 1 n.parts.length)).any fun j => match s0.canPlace node n k j with
          | some (p, _, _) => decide (p < o) | none => false
        let ready := (s0.readyGangs node).any fun g => (s0.partDies n (s0.gangPart n k g)).any fun d => (s0.returnOn node n k g d).isSome
        if n.stage == .running && !n.killed && shape && s0.pinRoom node n die && !s0.ticketHeld n die && !earlier && !ready && !s0.outranked node n then
          .next (s0.placeUnit node n k o die cores)
        else .next s

/-- DISPATCH (R354, R358): the first eligible node by priority and order whose reservations succeed; the first units of a launch over
several partitions are placed at once, unless a node that goes before can be placed. -/
def execDispatch (s : State) : Host.Outcome State Fault Refusal :=
  let s0 := s.freeGone
  let es := sortBy (fun a b => a.2.before b.2 || !b.2.before a.2) (s0.nodes.filter fun n => n.2.stage == .eligible)
  let ready := fun (n : Nat × Node) => decide (n.2.parts.length ≤ 1) || (s0.placeable n.1 n.2 && !s0.outranked n.1 n.2)
  match es.find? ready with
  | none => .next s
  | some (id, n) =>
    if s.schedHeld then .next s
    else
      let s1 := s0.modNode id fun x => { x with stage := .running }
      if n.parts.length ≤ 1 then .next s1
      else
        match n.kernel.bind fun k => (s0.reserve id n k).map fun l => (k, l) with
        | some (k, l) => .next (l.foldl (fun (t : State) (c : Nat × Nat × List (List Nat)) => match t.node? id with
            | some m => t.placeUnit id m k c.1 c.2.1 c.2.2
            | none => t) s1)
        | none => .next s

/-- THREAD_START (R258, R265, R270, R305): once every staging copy and every pin of the gang is done, the threads start, as if
each had refreshed at DEV. -/
def execThreadStart (gang : Nat) (s : State) : Host.Outcome State Fault Refusal :=
  match FMap.get? s.gangs gang with
  | none => .next s
  | some g =>
    let ws := s.gangWgs g
    if ws.any fun w => !w.2.staging.isEmpty || w.2.frozen then .next s
    else
      .next (ws.foldl (fun t w =>
        let t1 := if w.2.started then t else (w.2.cores.foldl (fun u c => u.refresh c .dev) t).modWg w.1 fun x => { x with started := true }
        w.2.waves.foldl (fun u k => u.modWave k fun x => if x.stop = .agent then x.resume s.tick else x) t1) s)

end Sys2Proof.Machine
end

