-- ==== Sys2Proof/Machine/Lifecycle.lean ====
section
/-! DEFINITION. The end of workgroups and launches, kills, and saving, discarding and restoring (spec/13 R271 to R273, spec/21 R355 to R364, R383, R411). -/

namespace Sys2Proof.Machine

/-! ### What a wave leaves behind (R49, R303, R357, R360) -/

/-- An operation of a wave whose generation has changed, some of whose lanes were parked: these are performed nowhere (R303). One that
returns a result still returns where it is not parked, also the fabric's answer, and the return is dropped and counted (R49); its wave is none
any more. -/
def State.orphanOp (s : State) (id : Nat) (o : Op) (parked : LaneMask) : State :=
  let far := s.opFabric id
  if returns o.instr && (o.done || parked == 0 || far != 0) then
    s.modOp id fun o => { o with wave := freedKey, todo := far, done := far == 0, flag := none, dsts := [] }
  else { s with ops := FMap.erase s.ops id }.orphanFabric id

/-- The commands of a wave end with it (R220): a delivery under way is dropped and counted (R49); a message whose header is not
accepted is withdrawn. -/
def State.orphanCmd (s : State) (id : Nat) (c : Cmd) : State :=
  let s0 := s.orphanFabric id
  let s1 := { s0 with cmds := FMap.erase s.cmds id,
                      locks := s.locks.filter (fun l => l.owner != id),
                      msgs := s.msgs.filterMap fun m =>
                       if m.2.cmd != some id then some m
                       else match m.2.snd, m.2.rcv with
                         | .accepted, _ => some (m.1, { m.2 with cmd := none })
                         | .marked, _ => some (m.1, { m.2 with cmd := none })
                         | .ended, _ => some (m.1, { m.2 with cmd := none })
                         | _, .none => none
                         | _, _ => some (m.1, { m.2 with cmd := none }) }
  if c.stage = .pushed || c.staging then s1
  else s1.modCore (waveCore c.wave) fun k => { k with gendrop := min (2 ^ 32 - 1) (k.gendrop + 1) }

/-- The requests, operations and commands of a wave under a key are dropped, its waiters leave the wait tables. -/
def State.orphanWave (s : State) (key : Nat) : State :=
  let s1 := (s.dropReqs fun r => r.wave == some key).dropWaiters key
  let s2 := (s1.ops.filter fun p => p.2.wave == key).foldl (fun t p => t.orphanOp p.1 p.2 (s.opParked p.1)) s1
  (s2.cmds.filter fun p => p.2.wave == key).foldl (fun t p => t.orphanCmd p.1 p.2) s2

/-- The posted receives of a workgroup are removed (R355). -/
def State.dropPosted (s : State) (cn wgn : Nat) : State :=
  s.modCtx cn fun c => { c with posted := c.posted.filter fun p => p.wg != wgn }

/-- A workgroup's context is protected. -/
def State.isProt (s : State) (g : Workgroup) : Bool := match s.ctx? g.ctx with | some c => c.prot | none => false

/-- A workgroup's cores are freed (R355, R357): in a protected context its rows are scrubbed first (R411), also
while the die's firmware is held (DESIGN CHOICE, log 132). -/
def State.freeWg (s : State) (wgn : Nat) (g : Workgroup) : State :=
  let s1 := if s.isProt g then g.cores.foldl (fun t c => t.zeroAcc c g.acc0 g.accN) s else s
  let s2 := g.cores.foldl (fun t c => t.modCore c fun k => { k with excl := false }) s1
  let s3 := { s2 with wgs := FMap.erase s2.wgs wgn, waves := s2.waves.filter fun w => w.2.priv || w.2.wg != wgn,
                      mops := s2.mops.filter fun m => m.2.wg != wgn, locks := s2.locks.filter fun l => l.wg != wgn,
                      gangs := s2.gangs.filter fun x => x.1 != g.gang || x.2.wgs.any fun v => v != wgn && ((s2.wg? v).isSome || s2.saved v) }
  s3.dropPosted g.ctx wgn

/-- A resident workgroup is killed (R249, R357). -/
def State.killWg (s : State) (wgn : Nat) : State :=
  match s.wg? wgn with
  | none => s
  | some g =>
    let s1 := (s.dropReqs fun r => r.kind == .pin wgn)
    let s2 := (g.waves.filter (· != freedKey)).foldl (fun t k => t.orphanWave k) s1
    let s3 := (s2.cmds.filter fun p => p.2.wg == wgn).foldl (fun t p => t.orphanCmd p.1 p.2) s2
    s3.freeWg wgn g

/-- A saved workgroup is killed with its frame (R357, R383). -/
def State.killFrame (s : State) (addr : Nat) : State :=
  match FMap.get? s.frames addr with
  | none => s
  | some f =>
    let s1 := f.waves.foldl (fun t w => t.orphanWave w.key) s
    let s2 := (s1.cmds.filter fun p => p.2.wg == f.id).foldl (fun t p => t.orphanCmd p.1 p.2) s1
    let s3 := { s2 with frames := FMap.erase s2.frames addr,
                        gangs := s2.gangs.filter fun x => x.1 != f.wg.gang || x.2.wgs.any fun v => v != f.id && ((s2.wg? v).isSome || s2.saved v) }
    s3.dropPosted f.wg.ctx f.id

/-! ### The end of a launch (R286, R313, R320, R356) -/

/-- Every pinned range of a node on every die is cleaned to its stack and released (R286). -/
def State.unpin (s : State) (id : Nat) : State :=
  s.dies.foldl (fun t d =>
    let mine := d.2.pins.filter fun p => p.node == id
    if mine.isEmpty then t
    else
      let t1 := mine.foldl (fun u p => (List.range ((p.pa + p.len - 1) / 48 - p.pa / 48 + 1)).foldl (fun v i => v.cleanHome (p.pa / 48 + i)) u) t
      t1.modDie d.1 fun x => { x with pins := x.pins.filter fun p => p.node != id }) s

/-- The caches of the cores a launch used are cleaned, and their write-combining buffers drained (R356, step 1). -/
def State.cleanCores (s : State) (cores : List Nat) : State :=
  cores.foldl (fun t c => (t.drainWcb c fun _ => true).publish c .sys) s

/-- No write of some cores that was sent before a number is unanswered. -/
def State.coresDrained (s : State) (cores : List Nat) (upto : Nat) : Bool :=
  !s.fabricReqs.any fun r => decide (r.1 < upto) && r.2.acc.kind == 1 && cores.contains r.2.core

/-- At the end of a node its cores' caches are cleaned, once; then the fabric's answers to what they had written are waited for, so that
every write of the launch is at its home before its end is signalled (R305, R323, R356). -/
def State.cleanNode (s : State) (id : Nat) (n : Node) : Bool × State :=
  if n.cleanTo = 0 then
    let t := s.cleanCores n.coresUsed
    (t.coresDrained n.coresUsed t.nextId, t.modNode id fun n => { n with cleanTo := t.nextId })
  else (s.coresDrained n.coresUsed n.cleanTo, s)
/-- The coverage map at the end (R313, R320, R356): recalled, read if it never was, written; done, with the status, or waiting. A page
that was resolved with POISON ends the launch with status 4; the map is written all the same. -/
def State.endMap (s : State) (id : Nat) (n : Node) : Option Nat × State :=
  match n.press with
  | none => (some n.status, s)
  | some _ =>
    let s1 := s.recallAll id
    let done := fun (st : Nat) (t : State) => (some st, (t.dropUnit (.press id)).modPress id fun p => { p with writing := false })
    -- with `INIT` and no claim there is nothing to read
    let s2 := s1.modPress id fun p => if p.init then { p with loaded := true } else p
    match s2.loadMap id with
    | (none, t) => (none, t)
    | (some good, t) =>
      match t.press? id with
      | none => (some n.status, t)
      | some p =>
        let st := if good then n.status else 4
        match t.unitWrite (.press id) 0 n.ctx .pressWrite p.cmap p.bytes with
        | (none, u) => (none, (u.modPress id fun p => { p with writing := true }).modNode id fun n => { n with status := st })
        | (some poison, u) => done (if poison then 4 else if st = 0 ∧ !p.allDone then 1 else st) u

/-- A completed node is forgotten once no waiting node names it. -/
def State.reapNodes (s : State) : State :=
  { s with nodes := s.nodes.filter fun n => n.2.live || s.nodes.any fun m => m.2.stage == .waiting && m.2.preds.contains n.1 }

/-- The signal, the vector and the completion of a node (R356, steps 3 to 5). -/
def State.signal (s : State) (id : Nat) (n : Node) (status : Nat) : State :=
  let siga := field n.cmd 32 8
  let word := field n.cmd 40 8 / 65536 * 65536 + status % 256 + n.reason % 256 * 256
  let finish := fun (t : State) =>
    let t1 := t.dropUnit (.node id)
    let t2 := match t1.ctx? n.ctx with
      | some c => if n.ctl.testBit 39 then { t1 with irqs := t1.irqs ++ [(c.owner, bits n.ctl 40 8)] } else t1
      | none => t1
    (t2.modNode id fun n => { n with stage := .complete, status := status, graceAt := none }).reapNodes
  if siga = 0 then finish s
  else
    match s.unitWrite (.node id) 0 n.ctx .engWrite siga (leBytes 8 word) with
    | (none, t) => t.modNode id fun n => { n with status := status }
    | (some _, t) =>
      -- the line's waiters and semaphores are checked again
      match t.unitPage (.node id) 0 n.ctx .engWrite siga with
      | (some (some pa), u) =>
        match u.aperture? n.ctx pa with
        | some a => if bits pa 48 4 = 15 then
            -- the waiters of a line of fabric memory are at its home
            finish (u.fabricSend (plainReq (plainAccess a 4 (bits pa 0 40) 4 (u.ctxProt n.ctx)) a.pkg (unitCore 0) n.ctx pa))
          else finish (u.wakeLine pa)
        | none => finish (u.wakeLine pa)
      | (_, u) => finish u

/-- The end of a node goes on as far as it can (R356): a marker, a refused launch and one without workgroups (R352) have no cores and
write no map. -/
def State.endNode (s : State) (id : Nat) : State :=
  match s.node? id with
  | none => s
  | some n =>
    if n.stage ≠ .ending then s
    else
      let mapless := n.status == 3 || n.type == 2 || n.total == 0
      let (clean, s0) := if mapless then (true, s) else s.cleanNode id n
      let s1 := if mapless || !clean then s0 else s0.unpin id
      match if mapless then (some n.status, s1) else if clean then s1.endMap id n else (none, s1) with
      | (none, t) => t
      | (some st, t) =>
        let t1 := if st = 4 then t.failQueue n.ctx n.q else t
        match t1.node? id with
        | some m => (t1.modNode id fun n => { n with status := st }).signal id { m with status := st } st
        | none => t1

/-- A node ends with a status and a reason (R353, R356). -/
def State.finishNode (s : State) (id status reason : Nat) : State :=
  (s.modNode id fun n => { n with stage := .ending, status := status, reason := reason }).endNode id

/-- NODE_ELIGIBLE (R351 to R353, R356): also the further course of an examination whose read was parked. -/
def execNodeEligible (node : Nat) (s : State) : Host.Outcome State Fault Refusal :=
  if s.schedHeld then .next s
  else
    match s.examine node with
    | (.stays, t) => .next t
    | (.eligible, t) => .next t
    | (.refused r, t) => .next (t.finishNode node 3 r)
    | (.ends, t) => .next (t.finishNode node 0 0)

/-- SEMAPHORE_RECHECK (R351). -/
def execSemaphoreRecheck (node : Nat) (s : State) : Host.Outcome State Fault Refusal :=
  match s.node? node with
  | some n => if n.semaAt.isSome then execNodeEligible node s else .next s
  | none => .next s

/-- A launch is killed with a status (R357): its resident and saved workgroups, its own reads; its queue enters ERROR and its end
follows. -/
def State.killLaunch (s : State) (id status : Nat) : State :=
  match s.node? id with
  | none => s
  | some n =>
    if n.stage = .complete || n.stage = .ending then s
    else
      let s1 := (s.wgs.filter fun g => g.2.node == id).foldl (fun t g => t.killWg g.1) s
      let s2 := (s1.frames.filter fun f => f.2.wg.node == id).foldl (fun t f => t.killFrame f.1) s1
      let s3 := s2.dropReqs fun r => r.kind == .node id
      ((s3.modNode id fun n => { n with killed := true, graceAt := none }).failQueue n.ctx n.q).finishNode id status 0

/-- A launch whose end is under way is killed (R357): its end goes on with that status, and its queue enters ERROR. The status of a refused launch
and of one killed before stands (log 28). -/
def State.killEnding (s : State) (id status : Nat) : State :=
  match s.node? id with
  | some x => (s.modNode id fun y => { y with status := if y.status ≤ 1 then status else y.status }).failQueue x.ctx x.q
  | none => s

/-- Retired workgroups are counted; the last one ends the launch (R355 to R357). -/
def State.countRetired (s : State) (id k : Nat) : State :=
  let s1 := s.modNode id fun n => { n with retired := n.retired + k }
  match s1.node? id with
  | some n =>
    if n.stage = .running ∧ n.total ≤ n.retired then
      (if n.status = 2 then s1.failQueue n.ctx n.q else s1).finishNode id n.status 0
    else s1
  | none => s1

/-- A gang kill (R357): the gang's workgroups, resident or saved, stop and are scrubbed; they count as retired, and the launch will
end with status 2. -/
def State.gangKill (s : State) (gang : Nat) : State :=
  let res := s.wgs.filter fun g => g.2.gang == gang
  let sav := s.frames.filter fun f => f.2.wg.gang == gang
  let id := match res, sav with | g :: _, _ => g.2.node | [], f :: _ => f.2.wg.node | [], [] => 0
  let s1 := sav.foldl (fun t f => t.killFrame f.1) (res.foldl (fun t g => t.killWg g.1) s)
  if res.isEmpty && sav.isEmpty then s
  else (s1.modNode id fun n => { n with status := 2 }).countRetired id (res.length + sav.length)

/-- Everything of a workgroup is over (R355). -/
def State.canRetire (s : State) (g : Workgroup) (wgn : Nat) : Bool :=
  g.started && !g.frozen &&
  (g.waves.all fun k => match s.wave? k with | some w => w.exited && !s.waveBusy k w | none => true) &&
  !(s.ops.any fun o => o.2.wg == wgn && g.waves.contains o.2.wave) && !(s.cmds.any fun c => c.2.wg == wgn) && !(s.mops.any fun m => m.2.wg == wgn)

/-- The resident workgroups of a gang. -/
def State.residentOf (s : State) (gang : Nat) : List (Nat × Workgroup) := s.wgs.filter fun g => g.2.gang == gang

/-- WORKGROUP_RETIRE (R265, R355, R356): the workgroups of a gang retire together, so that each stays resident until the gang does
(DEDUCED, log 108). -/
def execWorkgroupRetire (wg : Nat) (s : State) : Host.Outcome State Fault Refusal :=
  match s.wg? wg with
  | none => .next s
  | some g =>
    let ws := s.residentOf g.gang
    if ws.all fun w => s.canRetire w.2 w.1 then .next ((ws.foldl (fun t w => t.freeWg w.1 w.2) s).countRetired g.node ws.length) else .next s

/-! ### Saving (R220, R251, R360, R362, R364, R383) -/

/-- The waves of a workgroup stop at their next instruction boundary, even mid-clause: the PC tables record the slot (R26, R360). -/
def State.freezeWg (s : State) (wgn : Nat) : State :=
  match s.wg? wgn with
  | none => s
  | some g =>
    g.waves.foldl (fun t k => t.modWave k fun w => if w.stop = .running then { w.suspend with stop := .agent, active := false } else w)
      (s.modWg wgn fun g => { g with frozen := true })

/-- What must complete before a workgroup is saved or discarded (R113, R220, R364): commands taken by an engine, issued matrix
operations, an issued WAYCFG; the device also waits for fabric answers (log 25). -/
def State.settled (s : State) (wgn : Nat) : Bool :=
  !(s.cmds.any fun c => c.2.wg == wgn && c.2.stage != .pushed) && !(s.mops.any fun m => m.2.wg == wgn) &&
  !(s.ops.any fun o => o.2.wg == wgn && !o.2.done && (match o.2.instr with | .waycfg .. => true | _ => s.opFabric o.1 != 0))

/-- The parked requests, operations, commands and receives of a wave are bound to a new key and a new generation (R383). -/
def State.rebind (s : State) (old oldGen new newGen newCore : Nat) : State :=
  let kind := fun (k : ReqKind) => match k with
    | .fetch w pc run => if w = old then .fetch new pc run else k
    | .swait w m => if w = old then .swait new m else k
    | _ => k
  let posted := fun (p : Posted) => if p.wave = old ∧ p.gen = oldGen then { p with wave := new, gen := newGen } else p
  let req := fun (r : Req) => if r.wave = some old ∧ r.gen = oldGen then { r with wave := some new, gen := newGen, kind := kind r.kind } else r
  { s with
    ops := s.ops.map fun o => if o.2.wave = old ∧ o.2.gen = oldGen then (o.1, { o.2 with wave := new, gen := newGen, core := newCore }) else o,
    cmds := s.cmds.map fun c => if c.2.wave = old ∧ c.2.gen = oldGen then (c.1, { c.2 with wave := new, gen := newGen }) else c,
    dies := s.dies.map fun d => (d.1, { d.2 with reqs := d.2.reqs.map fun r => (r.1, req r.2) }),
    ctxs := s.ctxs.map fun c => (c.1, { c.2 with posted := c.2.posted.map posted }),
    msgs := s.msgs.map fun m => match m.2.rcv with | .matched p => (m.1, { m.2 with rcv := .matched (posted p) }) | _ => m }

/-- The parked entries of a wave. -/
def State.parkedOf (s : State) (key : Nat) : Nat :=
  (s.dies.map fun d => (d.2.reqs.filter fun r => r.2.wave == some key).length).foldl (· + ·) 0

/-- The length of a workgroup's frame in bytes (R362). -/
def State.frameLength (s : State) (g : Workgroup) : Nat :=
  let ws := g.waves.filterMap fun k => (s.wave? k).map fun w => (k, w)
  let n := 384 + (ws.map fun w => 3072 + 128 * w.2.holds.length + 128 * w.2.rows + 64 * s.parkedOf w.1).foldl (· + ·) 0 +
    ((List.range g.cores.length).map fun ci => g.size ci + g.size ci / 512).foldl (· + ·) 0 + (g.cores.filter fun c => !streamCore c).length * (768 * g.accN)
  ceilDiv n 192 * 192

/-- No cache of a core or a die holds a copy of a range of physical memory (R256, R362). -/
def State.dropCopies (s : State) (a n : Nat) : State :=
  let keep := fun (m : FMap Sector) => m.filter fun x => !(decide (a ≤ secAddr x.1) && decide (secAddr x.1 < a + n))
  { s with cores := s.cores.map (fun c => (c.1, { c.2 with l1 := keep c.2.l1 })),
           dies := s.dies.map (fun d => (d.1, { d.2 with l2 := keep d.2.l2 })) }

/-- What a workgroup has issued is performed as far as it can be, and the stores in its cores' L1 are cleaned to DEV, so that the restored threads
see them (R294). -/
def State.quietWg (s : State) (wgn : Nat) : State :=
  match s.wg? wgn with
  | none => s
  | some g => g.cores.foldl (fun t c => (t.drainWcb c fun _ => true).publish c .dev) (g.waves.foldl (fun t k => t.pumpAll k) s)

/-- A quiet workgroup saved whole into a frame and freed (R251, R363, R364, R383); `ready` tells from when it may return. -/
def State.storeWg (s : State) (wgn addr why : Nat) (ready : Option Nat) : State :=
  match s.wg? wgn with
  | none => s
  | some g0 =>
    let s2 := s.dropReqs fun r => r.kind == .pin wgn
    let len := match s2.wg? wgn with | some g => s2.frameLength g | none => 0
    let (saved, s3) := g0.waves.foldl (fun (a : List (Nat × SavedWave) × State) k =>
      match a.2.wave? k with
      | none => a
      | some w =>
        let (gen, t1) := a.2.fresh
        let (n, t2) := t1.fresh
        let key := 2 ^ 40 + n
        let stop := match w.stop with | .agent => Stop.running | x => x
        let w1 := { w.suspend with gen := gen, stop := stop, haltReq := false, active := false }
        let t3 := (t2.rebind k w.gen key gen (waveCore k)).dropWaiters k
        (a.1 ++ [(k, ⟨w1, key, stop⟩)], { t3 with waves := FMap.erase t3.waves k })) ([], s2)
    match s3.wg? wgn with
    | none => s3
    | some g =>
      let ren := fun (k : Nat) => match saved.find? fun x => x.1 == k with | some x => x.2.key | none => freedKey
      let cvs := g.cvs.map fun v => { v with members := v.members.map fun m => (m.1, { m.2 with wave := ren m.2.wave }) }
      let acc := g.cores.zipIdx.flatMap fun c => ((s3.core c.1).acc.filter fun p => decide (g.acc0 ≤ p.1 / 192) && decide (p.1 / 192 < g.acc0 + g.accN)).map
        fun p => (c.2 * 2 ^ 16 + p.1, p.2)
      let f : Frame := { wg := { g with waves := g.waves.map ren, cvs := cvs, frozen := true, lapse := false }, id := wgn, waves := saved.map Prod.snd, acc := acc,
                         ways := g.cores.map fun c => (s3.core c).spWays, sealed := s3.isProt g, ready := ready, why := why, length := len, torn := false }
      let s4 := g.cores.foldl (fun t c => (t.zeroAcc c g.acc0 g.accN).modCore c fun k => { k with excl := false }) s3
      { s4 with wgs := FMap.erase s4.wgs wgn, frames := FMap.set s4.frames addr f }.dropCopies addr len

/-- Room for frames of given lengths in a context's frame area, one after another (R342, R360). -/
def State.frameRoom (s : State) (cn : Nat) (lens : List Nat) : Option Nat :=
  match s.ctx? cn with
  | none => none
  | some c =>
    let total := lens.foldl (· + ·) 0
    let used := s.frames.filterMap fun f => if c.frb ≤ f.1 ∧ f.1 < c.frb + c.frs then some (f.1 - c.frb, f.2.length) else none
    (firstFit used total 192 c.frs).map (c.frb + ·)

/-- The workgroups of a gang made quiet. -/
def State.quietGang (s : State) (gang : Nat) : State := (s.residentOf gang).foldl (fun t g => t.quietWg g.1) s

/-- A quiet gang stored in consecutive frames from an address (R251, R265). -/
def State.storeGang (s : State) (gang addr why : Nat) (ready : Option Nat) : State :=
  ((s.residentOf gang).foldl (fun (a : Nat × State) g =>
    let t := a.2.storeWg g.1 a.1 why ready
    (a.1 + (match FMap.get? t.frames a.1 with | some f => f.length | none => 0), t)) (addr, s)).2

/-- A gang saved (R251, R265, R360). -/
def State.saveGang (s : State) (gang addr why : Nat) (ready : Option Nat) : State := (s.quietGang gang).storeGang gang addr why ready

/-- An idempotent gang is discarded (R318, R360): its requests are dropped, its granules revert, and its workgroups start again. -/
def State.discardGang (s : State) (gang : Nat) : State :=
  (s.residentOf gang).foldl (fun t g =>
    let t1 := (t.killWg g.1).modPress g.2.node fun p => p.discard g.1
    t1.modNode g.2.node fun n => { n with again := n.again ++ [g.2.ordinal] }) s

/-! ### Restoring (R251, R273, R363, R364, R383) -/

/-- One saved workgroup restored on cores of a die (R363, R364): its state, its waves under new keys and generations; a wave stopped in
the middle of a clause goes on at its slot. -/
def State.restoreWg (s : State) (addr : Nat) (f : Frame) (n : Node) (k : Kernel) (die : Nat) (set : List Nat) : State :=
  let cores := set.map (die * 48 + ·)
  let ways := fun (i : Nat) => if k.excl then f.ways.getD i n.spw else n.spw
  let bases := cores.zipIdx.map fun c => (s.regionFor c.1 (f.wg.size c.2) (ways c.2)).getD 0
  let slot := s.freeHandle (cores.headD 0)
  let s1 := cores.zipIdx.foldl (fun t c => ((t.giveCore c.1 n.ctx (ways c.2) k.excl).zeroAcc c.1 f.wg.acc0 f.wg.accN).modCore c.1 fun x =>
    { x with acc := (f.acc.filter fun p => p.1 / 2 ^ 16 == c.2).foldl (fun m p => FMap.set m (p.1 % 2 ^ 16) p.2) x.acc }) s
  let s2 := cores.foldl (fun t c => t.refresh c .dev) { s1 with frames := FMap.erase s1.frames addr }
  let pins := if n.npin = 0 then [] else [0]
  let stage := pins ++ f.wg.staging.filter (· != 0)
  let (seats, s3) := f.waves.foldl (fun (a : List (Nat × Nat) × State) x =>
    let (gen, t1) := a.2.fresh
    let (key, t2) := t1.seatWave k cores { x.wave with gen := gen, stop := if x.stop = .running then .agent else x.stop, waitSince := s.tick }
    (a.1 ++ [(x.key, key)], (t2.dropWaiters x.key).rebind x.key x.wave.gen key gen (waveCore key))) ([], s2)
  let ren := fun (q : Nat) => match seats.find? fun x => x.1 == q with | some x => x.2 | none => freedKey
  let cvs := f.wg.cvs.map fun v => { v with members := v.members.map fun m => (m.1, { m.2 with wave := ren m.2.wave }) }
  let g : Workgroup := { f.wg with waves := f.wg.waves.map ren, cvs := cvs, die := die, cores := cores, slot := slot, spBases := bases,
                                   staging := stage, frozen := false, swappable := none }
  let s4 := ({ s3 with wgs := FMap.set s3.wgs f.id g }).goPins f.id
  let s5 := if (match s4.wg? f.id with | some g => g.started && g.staging.isEmpty | none => false) then
      g.waves.foldl (fun t k => t.modWave k fun w => if w.stop = .agent then w.resume s.tick else w) s4
    else s4
  s5.modNode f.wg.node fun n => { n with coresUsed := dedup (n.coresUsed ++ cores) }

/-- After a restore: what was held for the workgroup's scratchpad lands before a thread resumes, in the order in which the end markers
came (R327, R340), and threads blocked in SWAIT check their words again (R111). -/
def State.afterRestore (s : State) (wgn : Nat) : State :=
  let held := sortBy (fun (a b : Nat × Msg) => decide (a.2.endAt ≤ b.2.endAt)) (s.msgs.filter fun m => m.2.ended &&
    (match m.2.rcv with | .matched p => p.wg == wgn | _ => false))
  let s1 := held.foldl (fun t m => t.landMsg m.1) s
  match s1.wg? wgn with
  | none => s1
  | some g =>
    let s2 := g.waves.foldl (fun t k =>
      match t.wave? k with
      | none => t
      | some w =>
        -- those of a parked check wait for its resolution, those behind a phase for it (R182)
        let parked := fun (L : Nat) => t.dies.any fun d => d.2.reqs.any fun r => match r.2.kind with | .swait q m => q == k && m.has L | _ => false
        let ls := (w.waits.filter fun p => match p.2 with | .word .. => !parked p.1 && !t.swaitPending k p.1 | .poisoned .. => true | .bar _ _ => false).map Prod.fst
        (t.setWave k { w with waits := w.waits.map fun p => match p.2 with | .poisoned va dbl cmp c => (p.1, .word va dbl cmp c) | _ => p }).restartWaits k ls) s1
    s2.noteSwappable wgn

/-- The cores of a gang numbered anew after a restore (R264). -/
def State.renumber (s : State) (gang : Nat) : State :=
  match FMap.get? s.gangs gang with
  | some g =>
    let cores := sortBy (fun a b => decide (a ≤ b)) ((s.residentOf gang).flatMap fun w => w.2.cores)
    { s with gangs := FMap.set s.gangs gang { g with cores := cores } }
  | none => s

/-- A saved gang restored on a die (R265, R363). -/
def State.restoreGang (s : State) (gang die : Nat) (n : Node) (k : Kernel) (sets : List (List Nat)) : State :=
  let fs := s.gangFrames gang
  let s1 := (fs.zip sets).foldl (fun t x => t.restoreWg x.1.1 x.1.2 n k die x.2) s
  (s1.renumber gang) |> fun t => (fs.foldl (fun u x => u.afterRestore x.2.id) t)

/-! ### Pre-emption (R359 to R361) -/

/-- The mode and the grace period of a launch's queue, as its copy in force gives them now (R345, R359, R361); of a queue with none, as they were
when the command was taken. -/
def State.modeOf (s : State) (m : Node) : Bool × Nat :=
  match (s.queue? m.ctx m.q).bind Queue.qcb with | some b => (b.packet, b.grace) | none => (m.packet, m.grace)

/-- The die firmware that would save a gang is held (R428, R441). -/
def State.saveHeld (s : State) (gang : Nat) : Bool := (s.residentOf gang).any fun w => (s.die w.2.die).fwHeld

/-- The gang of a workgroup is under a CTXSV that is not done. -/
def State.underCtxsv (s : State) (gang : Nat) : Bool :=
  s.ops.any fun o => (match o.2.instr with | .ctxsv .. => true | _ => false) && !o.2.done && o.2.aux == gang + 1

/-- A gang is a victim for a waiting node (R359, R360): of a lower priority, on cores the node may use; to be saved, its frames have
room, and the die's firmware is not held. -/
def State.victimOk (s : State) (id : Nat) (n : Node) (k : Kernel) (gang : Nat) : Bool :=
  let ws := s.residentOf gang
  match ws with
  | [] => false
  | g :: _ =>
    match s.node? g.2.node with
    | none => false
    | some m =>
      let usable := ws.any fun w => w.2.cores.any fun c => kindOk k (c % 48) &&
        (match n.press with | some p => p.permits w.2.die (c % 48) | none => true) &&
        (List.range (max 1 n.parts.length)).any fun j => (s.partDies n j).contains w.2.die &&
          ((n.pending k j).isSome || (s.readyGangs id).any fun x => s.gangPart n k x == j)
      decide (n.prio < m.prio) && usable && !m.killed && !s.underCtxsv gang && !(ws.all fun w => s.canRetire w.2 w.1) &&
      ((s.modeOf m).1 || (match m.kernel with | some x => x.idem | none => false) ||
        (!s.saveHeld gang && (s.frameRoom g.2.ctx (ws.map fun w => s.frameLength w.2)).isSome))

/-- Lowest priority first, then the most recently started launch; within one, the gang placed last (R359; log 26). -/
def State.victimKey (s : State) (gang : Nat) : Nat × Nat × Nat :=
  match s.residentOf gang with
  | g :: _ => match s.node? g.2.node with | some m => (m.prio, m.startedAt.getD 0, gang) | none => (0, 0, gang)
  | [] => (0, 0, gang)

/-- The key order of victims. -/
def keyLt (a b : Nat × Nat × Nat) : Bool :=
  decide (a.1 < b.1) || (a.1 == b.1 && (decide (a.2.1 < b.2.1) || (a.2.1 == b.2.1 && decide (a.2.2 < b.2.2))))

/-- A gang that was stopped goes on where it was (R274). -/
def State.thaw (s : State) (gang : Nat) : State :=
  (s.residentOf gang).foldl (fun t g =>
    let t1 := t.modWg g.1 fun x => { x with frozen := false, lapse := false }
    if g.2.started then g.2.waves.foldl (fun u k => u.modWave k fun w => if w.stop = .agent then w.resume s.tick else w) t1 else t1) s

/-- A gang was stopped by the lapse of its session, or this has lapsed since: it is saved, not discarded (R420). -/
def State.gangLapse (s : State) (gang : Nat) : Bool := (s.residentOf gang).any fun w => w.2.lapse || s.ctxLapsed w.2.ctx
/-- A gang of an idempotent launch. -/
def State.gangIdem (s : State) (gang : Nat) : Bool :=
  match s.residentOf gang with | g :: _ => (match s.kernelOf g.2 with | some k => k.idem | none => false) | [] => false

/-- Where a gang would be saved now (R360): its frame area has room, and its die's firmware is not held (R428, R441). -/
def State.saveRoom (s : State) (gang : Nat) : Option Nat :=
  match s.residentOf gang with
  | [] => none
  | g :: l => if s.saveHeld gang then none else s.frameRoom g.2.ctx ((g :: l).map fun w => s.frameLength w.2)

/-- A stopped gang is saved or discarded once what was under way is over (R360); stopped by the lapse of its session, it is saved (R420). The save is
the die firmware's, and waits while that is held (R428, R441). One for which the frame area has no room after all, or whose save would wait, is
no victim (R360): it goes on, unless its session has lapsed (log 132). -/
def State.evict (s : State) (gang : Nat) : State :=
  let ws := s.residentOf gang
  if !(ws.all fun w => w.2.frozen && s.settled w.1) then s
  else
    let lapsed := s.gangLapse gang
    if s.gangIdem gang && !lapsed then s.discardGang gang
    else
      match s.saveRoom gang with
      | some a => s.saveGang gang a (if lapsed then 2 else 1) (some s.tick)
      | none => if ws.any fun w => s.ctxLapsed w.2.ctx then s else s.thaw gang

/-- The gangs whose stop is under way. -/
def State.stopping (s : State) : List Nat := dedup ((s.wgs.filter fun g => g.2.frozen && !s.underCtxsv g.2.gang).map fun g => g.2.gang)

/-- A stop can be brought to its end now: nothing is under way, and a gang of a lapsed session can be saved. -/
def State.evictable (s : State) (gang : Nat) : Bool :=
  let ws := s.residentOf gang
  (ws.all fun w => w.2.frozen && s.settled w.1) && ((s.saveRoom gang).isSome || !ws.any fun w => s.ctxLapsed w.2.ctx)

/-- The gangs that may be stopped for a node (R359, R360), and whether one of them is stopping already. -/
def State.victims (s : State) (id : Nat) (n : Node) (k : Kernel) : List Nat × Bool :=
  let vs := (dedup (s.wgs.map fun g => g.2.gang)).filter fun g => s.victimOk id n k g
  (vs.filter fun g => !s.stopping.contains g, vs.any fun g => s.stopping.contains g && !s.gangLapse g)

/-- The victim among several (R359). -/
def State.bestVictim (s : State) (v : Nat) (l : List Nat) : Nat := l.foldl (fun a b => if keyLt (s.victimKey a) (s.victimKey b) then b else a) v

/-- PREEMPT_VICTIM (R359 to R361): a stop that can be is brought to its end; else the next victim for a node that cannot place a workgroup is
stopped, or its launch's grace period begins, unless one is stopping for it already. -/
def execPreemptVictim (node : Nat) (s : State) : Host.Outcome State Fault Refusal :=
  match s.stopping.find? s.evictable with
  | some g => .next (s.evict g)
  | none =>
    match s.node? node with
    | none => .next s
    | some n =>
      match n.kernel with
      | none => .next s
      | some k =>
        let s0 := s.freeGone
        if !s0.waitsRoom node n || s0.placeable node n then .next s
        else
          match s0.victims node n k with
          | ([], _) => .next s
          | (_, true) => .next s
          | (v :: l, false) =>
            let best := s0.bestVictim v l
            match s0.residentOf best with
            | [] => .next s
            | g :: _ =>
              match s0.node? g.2.node with
              | none => .next s
              | some m =>
                if (s0.modeOf m).1 then
                  .next (if m.graceAt.isSome then s0 else s0.modNode g.2.node fun x => { x with graceAt := some (s0.usec + (s0.modeOf m).2) })
                else .next (((s0.residentOf best).foldl (fun t w => t.freezeWg w.1) s0).evict best)

/-- GRACE_EXPIRY (R361): a launch that has not completed is killed, also one whose end is under way (log 28). -/
def execGraceExpiry (node : Nat) (s : State) : Host.Outcome State Fault Refusal :=
  match s.node? node with
  | some n => match n.graceAt with
    | some t =>
      if s.usec < t then .next s
      else if n.stage = .running then .next (s.killLaunch node 2)
      else if n.stage = .ending then .next ((s.modNode node fun x => { x with graceAt := none }).killEnding node 2)
      else .next s
    | none => .next s
  | none => .next s

/-! ### Swapping (R271 to R273) -/

/-- A gang all of whose workgroups are swappable (R271): since when. -/
def State.swappableGang (s : State) (gang : Nat) : Option Nat :=
  let ws := s.residentOf gang
  if ws.isEmpty || ws.any fun w => !s.swappable w.2 || w.2.frozen then none
  else some ((ws.map fun w => w.2.swappable.getD 0).foldl max 0)

/-- SWAP_OUT (R271, R272): a launch with a swappable gang and one that waits for room saves the gang that became swappable
earliest; the check and the removal of its waiters are one step with the save. -/
def execSwapOut (node : Nat) (s : State) : Host.Outcome State Fault Refusal :=
  match s.node? node with
  | none => .next s
  | some n =>
    let s0 := s.freeGone
    let gs := (dedup ((s0.wgs.filter fun g => g.2.node == node).map fun g => g.2.gang)).filterMap fun g =>
      if s0.underCtxsv g then none else (s0.swappableGang g).map fun t => (t, g)
    match gs with
    | [] => .next s
    | g :: l =>
      let best := l.foldl (fun a b => if b.1 < a.1 then b else a) g
      let ws := s0.residentOf best.2
      if !s0.waitsRoom node n || s0.placeable node n || s0.saveHeld best.2 || !(ws.all fun w => s0.settled w.1) then .next s
      else
        -- what the gang has issued may yet release one of its own threads: then it is not saved (R271)
        let t := s0.quietGang best.2
        match (if (t.swappableGang best.2).isSome then t.saveRoom best.2 else none) with
        | some a => .next (t.storeGang best.2 a 0 none)
        | none => .next t

/-- The word of a saved thread in fabric memory is checked at its home, unless its check is there already (R111, R273, R324). -/
def State.askSaved (s : State) (key L ctx die pa : Nat) (dbl : Bool) (cmp : SwCmp) (v : BitVec 64) : State :=
  match s.aperture? ctx pa with
  | none => if swCond cmp dbl 0 v then s.readySaved key else s
  | some a =>
    if s.fabricReqs.any fun r => r.2.waiter == some (key, L) then s
    else
      let acc := { plainAccess a 3 (bits pa 0 40) (if dbl then 8 else 4) (s.ctxProt ctx) with operand := v, newval := BitVec.ofNat 64 cmp.code.toNat }
      s.fabricSend { plainReq acc a.pkg (unitCore die) ctx pa with waiter := some (key, L) }

/-- SWAPPED_RECHECK (R273): the word of a blocked thread of a swapped workgroup, translated afresh, is checked at its home; a
condition that holds makes its gang ready to return. A word whose page does not translate, or was resolved with POISON, is not
found to hold (R111). -/
def execSwappedRecheck (wg wave lane : Nat) (s : State) : Host.Outcome State Fault Refusal :=
  match s.frames.find? fun f => f.2.id == wg with
  | none => .next s
  | some (_, f) =>
    match f.waves[wave]?, s.ctx? f.wg.ctx with
    | some x, some c =>
      match FMap.get? x.wave.waits lane with
      | some (.word va dbl cmp v) =>
        let parked := s.dies.any fun d => d.2.reqs.any fun r => match r.2.kind with | .swait q m => q == x.key && m.has lane | _ => false
        match walk s ⟨[], []⟩ c va .load with
        | .ok (_, pa, _) =>
          if parked || f.ready.isSome then .next s
          else match s.backing pa with
            | .fabric _ _ => .next (s.askSaved x.key lane f.wg.ctx f.wg.die pa dbl cmp v)
            | _ => if swCond cmp dbl (s.waitWord pa dbl) v then .next (s.readySaved x.key) else .next s
        | .error _ => .next s
      | _ => .next s
    | _, _ => .next s

/-- SWAP_RESTORE (R273, R363, R364): the first saved gang of a node that is ready and fits is restored on the cores the agent
chose. -/
def execSwapRestore (node die : Nat) (cores : List (List Nat)) (s : State) : Host.Outcome State Fault Refusal :=
  match s.node? node with
  | none => .next s
  | some n =>
    match n.kernel with
    | none => .next s
    | some k =>
      let s0 := s.freeGone
      match (s0.readyGangs node).find? fun g => (s0.partDies n (s0.gangPart n k g)).any fun d => (s0.returnOn node n k g d).isSome with
      | none => .next s
      | some g =>
        let fs := s0.gangFrames g
        let disjoint := (cores.flatMap id).length == (dedup (cores.flatMap id)).length
        let ok := cores.length == fs.length && disjoint && gangShape (cores.flatMap id) &&
          ((fs.zip cores).all fun x => (coreSets k.crs).contains x.2 && s0.fits n k die (some x.1.2) x.2)
        if ok && (s0.partDies n (s0.gangPart n k g)).contains die && !(s0.die die).fwHeld && s0.pinRoom node n die && n.stage == .running && !s0.outranked node n then
          .next (s0.restoreGang g die n k cores)
        else .next s

end Sys2Proof.Machine
end

