-- ==== Sys2Proof/Machine/Remote.lean ====
section
/-! DEFINITION. Fabric accesses at their target and their answers at the requester (spec/14 R290, spec/17 R321 to R324, spec/24 R396 to R398). -/

namespace Sys2Proof.Machine

/-! ### At the requester -/

/-- Bytes of a fabric line as the core that asked for it sees them: over the target's, what it has drained since, and its own
write-combining entries (R292, R297, R322). -/
def State.overlay (s : State) (r : FabricReq) (data : List Byte) : List Byte :=
  (List.range r.acc.size).map fun i =>
    let o := r.acc.offset + i
    match ((s.core r.core).wcb.find? fun e => e.isLine r.pkg r.acc.window o).bind fun e => FMap.get? e.bytes (o % 192) with
    | some b => b
    | none => FMap.getD r.drained o (List.getD data i 0)

/-- Lines answered fill the L1 with the sectors that lie in them whole (R282, R291, R321), unless the core has refreshed or written there since. -/
def State.fillFabric (s : State) (r : FabricReq) (data : List Byte) : State :=
  if r.stale then s
  else
    let cls := fabClass r.pa
    let skip := (48 - fabPlace cls r.acc.offset % 48) % 48
    (List.range ((r.acc.size - skip) / 48)).foldl (fun t k =>
      t.putL1 r.core (fabKey ⟨r.pkg, true, r.acc.window, r.acc.key⟩ cls (r.acc.offset + skip + 48 * k)) ((data.drop (skip + 48 * k)).take 48) false) s

/-- A node whose end is in progress. -/
def State.endingNode (s : State) (n : Nat) : Bool := match s.node? n with | some x => x.stage == .ending | none => false

/-- The nodes whose end waits for the fabric writes of a core go on (R305, R356). -/
def State.endDrained (s : State) (core : Nat) : State :=
  (s.nodes.filter fun n => n.2.stage == .ending && n.2.coresUsed.contains core).foldl (fun t n => t.endNode n.1) s

/-- An access of a unit, or a SPAWN, that was parked or waited for the fabric goes on. -/
def State.unitGo (s : State) (kind : ReqKind) : State :=
  match kind with
  | .node n => if s.endingNode n then s.endNode n else s
  | .press n => if s.endingNode n then s.endNode n else s
  | .land m => s.landMsg m
  | .cmd c => s.goCmd c
  | .op o _ => match FMap.get? s.ops o with
    | some x => (match x.instr with | .spawn .. => s.performSpawn o x | _ => s)
    | none => s
  | _ => s

/-- An operation's request answered (R279, R321, R380): every lane it serves. -/
def State.returnLanes (s : State) (r : FabricReq) (o : Nat) (x : Op) (data : List Byte) (real : Bool) : State :=
  match x.instr with
  | .ldg _ z na _ _ =>
    if !real then r.lanes.foldl (fun t l => t.laneZero o l.1 true) s
    else
      let d := s.overlay r data
      let s1 := if na then s else s.fillFabric r d
      s1.modOp o fun o => r.lanes.foldl (fun (o : Op) (l : Nat × Nat) =>
        o.finishLane l.1 (loadWords z ((d.drop (bits l.2 0 40 - r.acc.offset)).take (Size.bytes z))) 0) o
  | _ =>
    (r.lanes.foldl (fun t l =>
      if real then t.modOp o fun o => o.finishLane l.1 (oldWords (8 * r.acc.size) (leNat data)) 0 else t.laneZero o l.1 false) s).reap o

/-- The answer to a request of this package (R279, R290, R321): `real` is false when the target answered it as unbacked, or
under POISON. -/
def State.fabricReturn (s : State) (id : Nat) (data : List Byte) (real : Bool) : State :=
  match FMap.get? s.fabricReqs id with
  | none => s
  | some r =>
    if r.acc.kind = 3 then s.returnWait id (BitVec.ofNat 64 (leNat data)) real
    else
      let s1 := { s with fabricReqs := FMap.erase s.fabricReqs id }
      match r.unit, r.op with
      | some k, _ =>
        let s2 := if r.acc.kind = 0 then s1.modFab k fun u => { u with lines := FMap.set u.lines r.pa (if real then data else []) } else s1
        if s2.unitWaits k then s2 else s2.unitGo k
      | none, none =>
        if r.acc.kind = 1 then s1.endDrained r.core
        else if r.acc.kind = 0 && (real || r.fetch) then s1.fillFabric r (s1.overlay r (if real then data else List.replicate 192 0))
        else s1
      | none, some o =>
        match FMap.get? s1.ops o with
        | some x => s1.returnLanes r o x data real
        | none =>
          match FMap.get? s1.cmds o with
          | none => s1
          | some _ =>
            if r.acc.kind = 0 then
              if real then s1.modCmd o fun c => { c with lines := FMap.set c.lines r.pa data } else s1.lineUnbacked o r.pa r.va
            else if real then s1 else s1.notePoison o r.va

/-! ### At the target -/

/-- An access is answered (R290, R321): to this package's own requester, or with a flit. -/
def State.answer (s : State) (a : FabricAccess) (prot : Bool) (data : List Byte) (real : Bool) : State :=
  if a.src = s.pkg then s.fabricReturn a.tag data real
  else
    let s1 := { s with fabricAnswers := s.fabricAnswers ++ [(a.tag, if real then data else [])] }
    s1.sendOrWait (answerFlit a data real) (prot || a.prot)

/-- An access is answered as unbacked (R279, R290). -/
def State.answerNone (s : State) (a : FabricAccess) (prot : Bool) : State := s.answer a prot [] false

/-- The translating die of an import window (R397, R440). -/
def windowDie (w : Nat) : Nat := translatingDie (w / 1024)

/-- The import check (R397). -/
def State.importOk (s : State) (a : FabricAccess) : Option ImportEntry :=
  match FMap.get? s.imports a.window with
  | none => none
  | some e =>
    let kind := match a.kind with | 1 => e.wr | 2 => e.at_ | _ => e.rd
    if e.v && e.key == a.key && (e.src == 0xFF || e.src == a.src) && decide (a.offset + a.size ≤ e.len) && kind then some e else none

/-- The access that a permission check sees (R366): a SWAIT check and a SWAKE read. -/
def accessAcc (a : FabricAccess) : Acc := match a.kind with | 1 => .store | 2 => .atomic | _ => .load

/-- An access performed at the home (R283, R323, R324, R382): what it returns, and the state. -/
def State.performAccess (s : State) (a : FabricAccess) (pa : Nat) : List Byte × State :=
  match a.kind with
  | 0 => (s.homeRead pa a.size, s)
  | 1 => ([], (List.range a.size).foldl (fun t i => if a.mask.getD i false && !t.inTables (pa + i) then t.homeWriteIn (pa + i) [List.getD a.data i 0] else t) s)
  | _ =>
    let old := leNat (s.homeRead pa a.size)
    let new := leBytes a.size (atomNew a.atomOp (8 * a.size) old a.operand.toNat a.newval.toNat)
    let s1 : State :=
      if s.inTables pa then s
      else if s.hostKey (pa / 48) then
        match s.home? pa with
        | some h => s.putL2 h (pa / 48) (splice (s.homeSector (pa / 48)) (pa % 48) new) true
        | none => s
      else s.homeWriteIn pa new
    (leBytes a.size old, if a.ntf then s1.wakeLine pa else s1)

/-- An earlier access of the same package waits in the side queue of an address's row (R174, R297). -/
def State.rowBefore (s : State) (a : FabricAccess) (pa : Nat) : Bool :=
  s.hotRows.any fun h => s.rowOf? pa == some (h.1, h.2.row) &&
    ((h.2.turn.toList ++ h.2.queued).takeWhile (· != .fabric a)).any fun k => match k with | .fabric b => b.src == a.src | _ => false

/-- An access that passed its check is translated and performed, or parks on the translating die of its window (R290, R397, R440). A
SWAIT check stays at the home until its condition holds; a SWAKE re-checks the waiters of the line there (R111, R324). -/
def State.goAccess (s : State) (a : FabricAccess) (e : ImportEntry) : State :=
  let die := windowDie a.window
  match s.ctx? e.ctx with
  | none => (s.countUnbacked none die).answerNone a false
  | some c =>
    let va := (e.base + a.offset) % 2 ^ 56
    match translate s none die c va (accessAcc a) with
    | (.error f, t) => t.park die (.fabric a) e.ctx c va f (accessAcc a) none 0
    | (.ok pa, t) =>
      match t.backing pa with
      | .none home => (t.countUnbacked home die).answerNone a c.prot
      | .fabric _ _ => (t.countUnbacked none die).answerNone a c.prot
      | _ =>
        -- a request to a throttled row waits in the side queue of its bank (R404), and those of its threads behind it
        if t.rowBefore a pa || (a.kind < 3 && t.missesHome pa && t.rowShut (.fabric a) pa) then t.joinRow (.fabric a) pa
        else if a.kind = 3 then t.remoteCheck a c.prot pa
        else if a.kind = 4 then (t.wakeLine pa).answer a c.prot [] true
        else
          let (data, u) := (t.touch pa).performAccess a pa
          u.answer a c.prot data true

/-- An access arrives at an import window of this package (R290, R397, R398). While one of the same package is parked on its page, it
parks behind it, so that the accesses of each thread to a byte keep their order (R174, R297). -/
def State.arriveAccess (s : State) (a : FabricAccess) : State :=
  match s.importOk a with
  | none => (s.countUnbacked none (windowDie a.window)).answerNone a false
  | some e =>
    let a := { a with dstCtx := e.ctx }
    let die := windowDie a.window
    let page := (e.base + a.offset) % 2 ^ 56 / pageBytes
    match ((s.die die).reqs.filter fun r => r.2.ctx == e.ctx && r.2.vpage == page &&
        (match r.2.kind with | .fabric b => b.src == a.src | _ => false)).getLast? with
    | some (id, r) => s.parkBehind die id r (.fabric a) ((e.base + a.offset) % 2 ^ 56) (accessAcc a)
    | none => s.goAccess a e

/-- Accesses under a window's entry that are not answered (R398): those that are parked, and those whose answer no port has taken yet. -/
def State.windowBusy (s : State) (w : Nat) : Bool :=
  (s.flitsWait.any fun f => (f.1.kind == 0x02 || f.1.kind == 0x04 || f.1.kind == 0x06) && f.1.window == w) ||
  (s.hotRows.any fun h => (h.2.turn.toList ++ h.2.queued).any fun k => match k with | .fabric a => a.window == w | _ => false) ||
  s.dies.any fun d => d.2.reqs.any fun r => match r.2.kind with | .fabric a => a.window == w | _ => false

/-- FABRIC_ACCESS_ARRIVAL (R290, R323, R324, R397, R398): of another package, or the oldest of this package's own that has not arrived (R391). -/
def execFabricAccessArrival (acc : FabricAccess) (s : State) : Host.Outcome State Fault Refusal :=
  if acc.src = s.pkg then
    match s.fabricReqs.find? fun r => r.2.pkg == s.pkg && !r.2.sent with
    | some (id, r) =>
      if r.acc = acc then
        let sent := { r with sent := true }
        .next ({ s with fabricReqs := FMap.set s.fabricReqs id sent }.arriveAccess acc)
      else .next s
    | none => .next s
  else .next (s.arriveAccess acc)

end Sys2Proof.Machine
end

