-- ==== Sys2Proof/Machine/Faults.lean ====
section
/-! DEFINITION. Fault records, the overflow cellar, resolutions and their replays, and the import of sealed pages (spec/22, R372 to R384; R415). -/

namespace Sys2Proof.Machine

/-! ### Fault queues (R374) -/

/-- Host bytes written at SYS by their host physical address (R374): a device copy of the line is written too (R283). -/
def State.hostPut (s : State) (hpa : Nat) (bs : List Byte) : State :=
  let s1 := s.hostWrite hpa bs
  bs.zipIdx.foldl (fun t b =>
    match t.runs.find? fun r => decide (r.hb ≤ hpa + b.2) && decide (hpa + b.2 < r.hb + r.len) with
    | some r =>
      let da := 14 * 2 ^ 48 + r.db + (hpa + b.2 - r.hb)
      match t.home? da with
      | some d => match FMap.get? (t.die d).l2 (da / 48) with
        | some c => t.putL2 d (da / 48) (splice c.data (da % 48) [b.1]) c.dirty
        | none => t
      | none => t
    | none => t) s1

/-- A function's fault ring has room (R374). -/
def Func.room (f : Func) : Bool := f.fqOn && decide (0 < f.fqSize) && (f.fqHead + 1) % f.fqSize != f.fqTail

/-- FAULT_RECORD_WRITE (R374): the oldest record of the die whose ring has room is written, the head advances, and the vector is raised. -/
def execFaultRecordWrite (die : Nat) (s : State) : Host.Outcome State Fault Refusal :=
  match (s.die die).faults.find? fun r => (s.fn r.1).room with
  | none => .next s
  | some (fn, bs) =>
    let f := s.fn fn
    let s1 := s.hostPut (f.fqBase + 64 * f.fqHead) bs
    let s2 := s1.modFn fn fun f => { f with fqHead := (f.fqHead + 1) % f.fqSize }
    let s3 := s2.modDie die fun d => { d with faults := d.faults.erase (fn, bs) }
    .next { s3 with irqs := s3.irqs ++ [(fn, f.fqVec)] }

/-! ### The overflow cellar (R377, R378) -/

/-- A parked request's place changed. -/
def State.moveReq (s : State) (die id : Nat) (p : Place) : State :=
  s.modDie die fun d => { d with reqs := d.reqs.map fun r => if r.1 = id then (r.1, { r.2 with place := p }) else r }

/-- OVERFLOW_MOVE_IN (R377): the oldest overflow record moves into the cellar while it has room. -/
def execOverflowMoveIn (die : Nat) (s : State) : Host.Outcome State Fault Refusal :=
  let d := s.die die
  match d.reqs.find? fun r => r.2.place == .ring with
  | some (id, _) => if d.prsUsed < d.prsLimit then .next (s.moveReq die id .cellar) else .next s
  | none => .next s

/-- INGRESS_HELD_ENTER_RING (R378): the request held longest enters the ring, or where there is no ring the cellar. -/
def execIngressHeldEnterRing (die : Nat) (s : State) : Host.Outcome State Fault Refusal :=
  let d := s.die die
  match d.reqs.find? fun r => r.2.place == .held && !r.2.noEntry with
  | some (id, _) =>
    if d.ovcUsed < d.ovcSize then .next (((s.moveReq die id .ring).spill die).endSpell die)
    else if d.ovcSize = 0 ∧ d.prsUsed < d.prsLimit then .next ((s.moveReq die id .cellar).endSpell die)
    else .next s
  | none => .next (s.endSpell die)

/-! ### Who owns a requester (R380) -/

/-- The workgroup of a requester. -/
def State.reqWg (s : State) (r : Req) : Option Nat :=
  match r.kind with
  | .op id _ => (FMap.get? s.ops id).map Op.wg
  | .fetch w _ _ => (s.anyWave? w).map Wave.wg
  | .swait w _ => (s.anyWave? w).map Wave.wg
  | .cmd id => (FMap.get? s.cmds id).map Cmd.wg
  | .pin wg => some wg
  | .land m => match (FMap.get? s.msgs m).map Msg.rcv with | some (.matched p) => some p.wg | _ => none
  | _ => none

/-- The state with the resolution of a parked request noted. -/
def State.markReq (s : State) (die id : Nat) (a : ResAct) : State :=
  s.modDie die fun d => { d with reqs := d.reqs.map fun r => if r.1 = id then (r.1, { r.2 with res := some a }) else r }

/-- KILL of one requester (R357, R380): of a launch, of a protected gang, or of a read that has no launch yet. A fabric access
from elsewhere is resolved as with POISON (log 28), and so are the last accesses of a launch, which ends with the status of the kill. -/
def State.killReq (s : State) (die id : Nat) : State :=
  match FMap.get? (s.die die).reqs id with
  | none => s
  | some r =>
    let launch := fun (n status : Nat) =>
      -- the last accesses of a launch that ends go on as with POISON
      let t := s.markReq die id .poison
      if s.endingNode n then t.killEnding n status else t.killLaunch n status
    match r.kind with
    | .take c q => s.discardCommand c q
    | .node n => launch n 2
    | .press n => launch n 4
    | .fabric _ => s.markReq die id .poison
    | _ =>
      let t := match (s.reqWg r).bind s.anyWg? with
        | some g => if s.isProt g then s.gangKill g.gang else s.killLaunch g.node 2
        | none => s
      t.unpark die id

/-! ### Resolution (R379, R380, R253) -/

/-- The requesters of a key, in parking order. -/
def Die.requesters (d : Die) (vmid asid stage page : Nat) : List Nat :=
  (d.reqs.filter fun r => r.2.res == none && !r.2.noEntry && r.2.vmid == vmid && r.2.asid == asid && r.2.stage == stage && r.2.page == page).map Prod.fst

/-- A resolution of a key on a die (R372, R380): `none` without a merge entry; else the number of requesters, and the state in
which the entry has ended. KILL acts at once; the others are performed requester by requester. -/
def State.resolve (s : State) (die vmid asid stage page : Nat) (a : ResAct) : Option Nat × State :=
  if !(s.die die).hasMerge vmid asid stage page then (none, s)
  else
    let ids := (s.die die).requesters vmid asid stage page
    let s1 := s.modDie die fun d => { d with merge := d.merge.filter fun m => !(m.vmid == vmid && m.asid == asid && m.stage == stage && m.page == page) }
    let s2 := ids.foldl (fun t id => t.markReq die id a) s1
    (some ids.length, if a = .kill then ids.foldl (fun t id => t.killReq die id) s2 else s2)

/-- What a write into a resolution window is (R379). -/
inductive WinAct where
  | tail (v : Nat)
  | resolve (a : ResAct) (addr asid vmid stage imp frame : Nat)
  | discard
  deriving DecidableEq, Repr

/-- A function may resolve a key (R379): stage 2 only the hypervisor's, which resolves every VMID's (DEDUCED, log 29); a partition's, the
stage-1 keys of a VMID with a context in its partition. -/
def State.mayResolve (s : State) (fn vmid stage : Nat) : Bool :=
  fn == 0 || (stage == 0 && s.ctxs.any fun c => !c.2.ended && c.2.vmid == vmid && c.2.parts.testBit (fn - 1))

/-- A write into a resolution window read (R379). An `IMPORT` or `FRAME` that is misaligned, or stands where it must be 0, is
a reserved bit that is set (DESIGN CHOICE, log 29). -/
def State.winAct (s : State) (fn : Nat) (w : WinWrite) : WinAct :=
  if w.offset = 32 ∧ w.bytes.length = 8 then .tail (leNat w.bytes)
  else if w.offset = 0 ∧ w.bytes.length = 32 then
    let b := w.bytes
    let vm := field b 10 2
    let act := field b 12 1
    let stage := act % 2
    let imp := field b 16 8
    let frame := field b 24 8
    let a := match bits act 1 2 with | 0 => some ResAct.replay | 1 => some .poison | 2 => some .kill | _ => none
    let clean := vm < 4096 && act < 8 && field b 13 3 == 0 && (stage == 0 || field b 8 2 == 0) &&
      decide (imp % 192 = 0) && decide (frame % pageBytes = 0) && (imp != 0 || frame == 0) && (imp == 0 || (stage == 0 && act == 0))
    match a with
    | some a => if clean && s.mayResolve fn vm stage then .resolve a (field b 0 8) (field b 8 2) vm stage imp frame else .discard
    | none => .discard
  else .discard

/-- The protected context of a stage-1 key. -/
def State.protCtx (s : State) (vmid asid : Nat) : Option (Nat × Context) :=
  s.ctxs.find? fun c => !c.2.ended && c.2.vmid == vmid && c.2.asid == asid && c.2.prot

/-- The physical address of the level-3 entry that maps a virtual address, if tables lead to it (R365). -/
def State.leafAt (s : State) (c : Context) (va : Nat) : Option Nat :=
  let step := fun (t : Option Nat) (lvl : Nat) =>
    match t.bind fun t => s.tableAddr c (t + 8 * levelIndex (va / pageBytes) lvl) with
    | some pa => match decodeEntry (leNat (s.homeRead pa 8)) lvl with | .table n => some n | _ => none
    | none => none
  (([0, 1, 2] : List Nat).foldl step (some c.ptroot)).bind fun t => s.tableAddr c (t + 8 * levelIndex (va / pageBytes) 3)

/-- A leaf entry is invalid, or missing. -/
def State.leafInvalid (s : State) (c : Context) (va : Nat) : Bool :=
  let tr := fun (t : Nat) => match s.tableAddr c t with
    | some p => Except.ok (p, ([] : List (Nat × Nat)), (⟨[], []⟩ : XCache))
    | none => .error (⟨5, 0, 1, t⟩ : XFault)
  match walkFrom s ⟨[], []⟩ tr false ⟨c.vmid, c.asid, 0⟩ va 0 (fun _ => none) 4 0 c.ptroot [] ⟨[], []⟩ with
  | .error f => f.reason == 1
  | .ok _ => false

/-- A resolution with its import (R380, R382): a REPLAY for a protected context with `IMPORT`, or without it for a page whose leaf
is invalid, waits for the die's firmware; `IMPORT` 0 stands for the failing one. -/
def State.resolveWith (s : State) (die vmid asid stage page : Nat) (a : ResAct) (imp frame : Nat) : Option Nat × State :=
  let (n, t) := s.resolve die vmid asid stage page a
  match n with
  | none => (none, t)
  | some k =>
    if a = .replay ∧ stage = 0 then
      match s.protCtx vmid asid with
      | some (cn, c) =>
        if imp != 0 || s.leafInvalid c (page * pageBytes) then
          let (id, u) := t.fresh
          (some k, u.modDie die fun d => { d with imports := FMap.set d.imports id (cn, page, imp, frame) })
        else (some k, t)
      | none => (some k, t)
    else (some k, t)

/-- The resolution-error counter of a die (R379). -/
def State.winError (s : State) (die : Nat) : State := s.count 0x04 die

/-- A write into a window that is a resolution with the action `a`, performed. -/
def resolveEvent (fn die : Nat) (w : WinWrite) (a : ResAct) (s : State) : Host.Outcome State Fault Refusal :=
  match s.winAct fn w with
  | .resolve b addr asid vmid stage imp frame =>
    if a = b then .next (s.resolveWith die vmid (if stage = 0 then asid else 0) stage (addr / pageBytes) a imp frame).2 else .next s
  | _ => .next s

/-- RESOLVE_REPLAY (R379, R380, R382). -/
def execResolveReplay (fn die : Nat) (w : WinWrite) (s : State) : Host.Outcome State Fault Refusal := resolveEvent fn die w .replay s
/-- RESOLVE_POISON (R379, R380). -/
def execResolvePoison (fn die : Nat) (w : WinWrite) (s : State) : Host.Outcome State Fault Refusal := resolveEvent fn die w .poison s
/-- RESOLVE_KILL (R357, R379, R380). -/
def execResolveKill (fn die : Nat) (w : WinWrite) (s : State) : Host.Outcome State Fault Refusal := resolveEvent fn die w .kill s
/-- RESOLUTION_DISCARD (R379). -/
def execResolutionDiscard (fn die : Nat) (w : WinWrite) (s : State) : Host.Outcome State Fault Refusal :=
  match s.winAct fn w with | .discard => .next (s.winError die) | _ => .next s
/-- FAULT_QUEUE_TAIL_WRITE (R374, R379, R400). -/
def execFaultQueueTailWrite (fn die : Nat) (w : WinWrite) (s : State) : Host.Outcome State Fault Refusal :=
  let _ := die
  match s.winAct fn w with | .tail v => .next (s.modFn fn fun f => { f with fqTail := v }) | _ => .next s

/-! ### Replays (R376, R380, R383) -/

/-- The stores of a saved wave's operation go on to the home at once, so that the restored thread sees them (R294, R383). -/
def State.settleSaved (s : State) (key core : Nat) : State := if (s.wave? key).isSome then s else s.publish core .dev

/-- Some lanes of an operation under POISON (R380): a load returns zero with `EERR`, an atomic returns zero, a store is dropped. -/
def State.poisonLanes (s : State) (id : Nat) (o : Op) (m : LaneMask) : State :=
  ((LaneMask.lanes (m &&& o.todo)).foldl (fun t L => t.laneZero id L (match o.instr with | .ldg .. => true | _ => false)) s).reap id

/-- SWAIT lanes whose word's page was resolved with POISON (R380, R110, R111): the word reads zero. A lane whose condition does not hold for
it stays blocked, without an entry, until its workgroup is restored. -/
def State.poisonWaits (s : State) (key : Nat) (gen : Nat) (m : LaneMask) : State :=
  let s1 := s.ownerMod key gen fun w => w.raise wEERR
  (LaneMask.lanes m).foldl (fun t L =>
    match t.anyWave? key with
    | some w =>
      if waitHolds w L 0 then
        if (t.wave? key).isSome then t.unblock key L
        else
          -- a thread of a saved wave is released where it stands, and its gang is ready to return (R273)
          (t.ownerMod key gen fun w =>
            { w.setPcs (LaneMask.single L) (fun _ e => { e with blk := false }) with waits := FMap.erase w.waits L }).readySaved key
      else
        match FMap.get? w.waits L with
        | some (.word va dbl cmp c) => t.ownerMod key gen fun w => { w with waits := FMap.set w.waits L (.poisoned va dbl cmp c) }
        | _ => t
    | none => t) s1

/-- A fetch resolved with POISON (R36, R380): a running wave has its clause of zero bytes at once, a stopped or saved one when it goes on. -/
def State.poisonFetch (s : State) (key gen pc : Nat) (run : LaneMask) : State :=
  match s.wave? key with
  | some w => if w.stop = .running then s.zeroClause key pc run else s.setWave key { w with zeroFetch := some (pc, run) }
  | none => s.ownerMod key gen fun w => { w with zeroFetch := some (pc, run) }

/-- The core whose first-level TLB serves a requester; a unit has none, nor has a wave that is saved. -/
def State.reqCore (s : State) (r : Req) : Option Nat :=
  (match r.kind with | .op o _ => (FMap.get? s.ops o).map Op.core | _ => r.wave.map waveCore).filter fun k => decide (k < 1152)

/-- What is cached of a requester's page is dropped, on the die that parked it and on the one its access is performed on now, so that it is
walked again (R370, R380, R381). -/
def State.forgetReq (s : State) (die : Nat) (r : Req) : State :=
  match s.ctx? r.ctx with
  | some c =>
    let s1 := s.forgetPage (s.reqCore r) die c.vmid c.asid r.va
    match s.reqCore r with
    | some k => if k / 48 = die then s1 else s1.forgetPage none (k / 48) c.vmid c.asid r.va
    | none => s1
  | none => s

/-- A replay for a saved wave (R383): the page is walked again, and the request parks anew if it faults. -/
def State.replaySaved (s : State) (die : Nat) (r : Req) (acc : Acc) (ok : Nat → State → State) : State :=
  match s.ctx? r.ctx with
  | none => s
  | some c =>
    match translate s none die c r.va acc with
    | (.ok pa, t) => ok pa t
    | (.error f, t) => t.park die r.kind r.ctx c r.va f acc r.wave r.gen

/-- The words of SWAIT lanes of a saved wave, their page translated, are checked at the replay: a condition that holds makes the gang ready to
return (R111, R273, R383). -/
def State.checkSaved (s : State) (key ctx die : Nat) (m : LaneMask) (pa : Nat) : State :=
  match s.anyWave? key with
  | none => s
  | some w =>
    (LaneMask.lanes m).foldl (fun t L =>
      match FMap.get? w.waits L with
      | some (.word va dbl cmp c) =>
        let a := pa - pa % pageBytes + va % pageBytes
        (match t.backing a with
         | .fabric _ _ => t.askSaved key L ctx die a dbl cmp c
         | _ => if swCond cmp dbl (t.waitWord a dbl) c then t.readySaved key else t)
      | _ => t) s

/-- A fabric access that parked anew keeps the followers that it had: they park again behind it, in their order (R376). -/
def State.refollow (s : State) (die n : Nat) (old : Req) : State :=
  match FMap.get? (s.die die).reqs n with
  | none => s
  | some r =>
    let mine := (s.die die).reqs.filter fun x => decide (x.1 < n) && x.2.ctx == old.ctx && x.2.vpage == old.vpage &&
      (match x.2.kind, old.kind with | .fabric a, .fabric b => a.src == b.src | _, _ => false)
    (mine.foldl (fun (a : Nat × State) x =>
      let t := a.2.unpark die x.1
      (t.nextId, t.parkBehind die a.1 r x.2.kind x.2.va (s.unitAcc x.2))) (n, s)).2

/-- The lanes of a replayed request are translated on the die whose cellar held it (R385). -/
def State.walkFor (s : State) (id die : Nat) (m : LaneMask) : State :=
  s.modOp id fun o => { o with walkOn := (LaneMask.lanes m).foldl (fun w L => FMap.set w L die) o.walkOn }

/-- A memory operation's lanes performed with their resolution (R380, R383). -/
def State.replayOp (s s1 : State) (die id : Nat) (r : Req) (m : LaneMask) (x : Op) : State :=
  let poison := r.res == some .poison
  match x.instr with
  | .spawn .. => if poison then s.performSpawn id x else (s1.unitTouch die r).performSpawn id x
  | .cmaint .. => if poison then (s1.modOp id fun x => { x with aux := x.aux + 1 }).maintGo id else (s1.walkFor id die x.lanes).maintGo id
  | _ => ((if poison then s1.poisonLanes id x m else s1.walkFor id die m).attempt id).settleSaved x.wave x.core

/-- A requester performed with its resolution (R376, R380, R383): it is walked again and completes, or parks anew. Of an access of an engine, a unit or
the press that has more parts, this part is done: a read has its bytes now, a write its page. The request of a unit that met POISON stays until
the unit's whole access is done. -/
def State.replay (s : State) (die id : Nat) (r : Req) : State :=
  let poison := r.res == some .poison
  let s1 := if poison then s.unpark die id else (s.unpark die id).forgetReq die r
  -- a unit's part
  let part := if poison then s else s1.unitTouch die r
  match r.kind with
  | .op o m =>
    match FMap.get? s.ops o with
    | none => s1
    | some x => s.replayOp s1 die o r m x
  | .fetch w pc run =>
    if poison then s1.poisonFetch w r.gen pc run
    else match s1.wave? w with
      | some x => (s1.fetchLine w x pc run (some die)).2
      | none => s1.replaySaved die r .fetch fun _ t => t
  | .cmd c => (if poison then s1.notePoison c r.va else s1.cmdTouch die c r).goCmd c
  | .swait w m =>
    if poison then s1.poisonWaits w r.gen m
    else
      -- the lanes check their words anew
      if (s1.wave? w).isSome then s1.restartWaits w (LaneMask.lanes m) (some die)
      else s1.replaySaved die r .load fun pa t => t.checkSaved w r.ctx die m pa
  | .take _ _ => part
  | .press n =>
    if s.endingNode n then part.endNode n
    else if poison then s.killLaunch n 4
    else (part.loadMap n).2
  | .pin wg => part.goPins wg
  | .fabric a =>
    if poison then s1.answerNone a false
    else match FMap.get? s1.imports a.window with
      | some e => (s1.goAccess a e).refollow die s1.nextId r
      | none => s1.answerNone a false
  | k => part.unitGo k

/-- The kinds whose POISON request stays until the access is done. -/
def ReqKind.lingers : ReqKind → Bool
  | .node _ => true | .take _ _ => true | .press _ => true | .pin _ => true | .land _ => true | .op _ _ => true | _ => false

/-- A resolved requester may be performed now (R376, R380, R382): it is in the cellar, what it follows has completed, those of its
key that parked before it have been performed, and no import of its page is under way. -/
def Die.mayReplay (d : Die) (id : Nat) (r : Req) : Bool :=
  (r.res == some .replay || r.res == some .poison) && r.place == .cellar &&
  (match r.follows with | some p => (FMap.get? d.reqs p).isNone | none => true) &&
  !(d.reqs.any fun x => decide (x.1 < id) && x.2.res.isSome && x.2.vmid == r.vmid && x.2.asid == r.asid && x.2.stage == r.stage &&
      x.2.page == r.page && !(x.2.res == some .poison && ReqKind.lingers x.2.kind)) &&
  !(r.stage == 0 && d.imports.any fun i => i.2.1 == r.ctx && i.2.2.1 == r.page)

/-- REQUESTER_REPLAY (R376, R380, R381, R383). -/
def execRequesterReplay (die entry : Nat) (s : State) : Host.Outcome State Fault Refusal :=
  match FMap.get? (s.die die).reqs entry with
  | some r => if (s.die die).mayReplay entry r then .next (s.replay die entry r) else .next s
  | none => .next s

/-- MERGE_TABLE_FULL_RETRY (R372): the requests held for a full merge table are tried again, in their order, as far as entries are free. -/
def execMergeTableFullRetry (die : Nat) (s : State) : Host.Outcome State Fault Refusal :=
  .next (((s.die die).reqs.filter fun r => r.2.noEntry).foldl (fun t x =>
    match FMap.get? (t.die die).reqs x.1 with
    | none => t
    | some r =>
      let d := t.die die
      if d.merge.length < Config.mergeEntries ∨ d.hasMerge r.vmid r.asid r.stage r.page then t.replay die x.1 { r with res := some .replay } else t) s)

/-- A waiter of this package without an entry is checked, and takes an entry if there is one (R111). -/
def State.recheckWaiter (s : State) (die : Nat) (x : Waiter) : State :=
  (s.checkWaiter die x).modDie die fun d =>
    if (s.home? x.pa).isSome && decide (d.waitEntries < Config.waitEntries) then
      { d with waiters := d.waiters.map fun y => if y = x then { y with entered := true } else y }
    else d

/-- The same for a SWAIT check through a window. -/
def State.recheckRemote (s : State) (die : Nat) (x : RemoteWait) : State :=
  (s.checkRemote die x).modDie die fun d =>
    if d.waitEntries < Config.waitEntries then
      { d with remoteWaits := d.remoteWaits.map fun y => if y = x then { y with entered := true } else y }
    else d

/-- SWAIT_TABLE_FULL_RECHECK (R111): a waiter without an entry is checked again, and takes an entry if there is one; with it every check
through a window that has none. -/
def execSwaitTableFullRecheck (die wave lane : Nat) (s : State) : Host.Outcome State Fault Refusal :=
  let far := ((s.die die).remoteWaits.filter fun x => !x.entered).foldl (fun t x => t.recheckRemote die x) s
  match (s.die die).waiters.find? fun x => x.wave == wave && x.lane == lane && !x.entered with
  | none => .next far
  | some x => .next (far.recheckWaiter die x)

/-! ### Sealed pages (R382, R415) -/

/-- The authenticated data of a sealed page (R415). -/
def pageAad (ctx page version : Nat) : List Byte := leBytes 8 ctx ++ leBytes 8 page ++ leBytes 8 version

/-- The dies of a context's partitions (R342, R400). -/
def State.ctxDies (s : State) (c : Context) : List Nat := (setBits c.parts 8).flatMap fun k => s.parts.getD k []

/-- The physical address of a frame of a context, if it lies whole in device memory of the context's partitions (R368, R382). -/
def State.frameOk (s : State) (c : Context) (frame : Nat) : Option Nat :=
  match s.tableAddr c frame with
  | none => none
  | some pa =>
    if (List.range 256).all fun i => match s.backing (pa + 192 * i) with | .dev d => (s.ctxDies c).contains d | _ => false then some pa else none

/-- A range of host addresses lies in one host run. -/
def State.hostRange (s : State) (a n : Nat) : Bool := s.runs.any fun r => decide (r.hb ≤ a) && decide (a + n ≤ r.hb + r.len)

/-- SEALED_PAGE_IMPORT (R382, R415): the page is unsealed into its frame and mapped, or each requester's gang is killed. -/
def execSealedPageImport (die req : Nat) (s : State) : Host.Outcome State Fault Refusal :=
  match FMap.get? (s.die die).imports req with
  | none => .next s
  | some (cn, page, imp, frame) =>
    if (s.die die).fwHeld then .next s
    else
      let s0 := s.modDie die fun d => { d with imports := FMap.erase d.imports req }
      let mine := (s0.die die).reqs.filter fun r => r.2.res == some .replay && r.2.stage == 0 && r.2.ctx == cn && r.2.page == page
      match s0.ctx? cn with
      | none => .next s0
      | some c =>
        let fail : State :=
          let scrubbed := match s0.frameOk c frame with | some pa => if imp = 0 then s0 else s0.homeWrite pa (List.replicate 49152 0) | none => s0
          let r0 := mine.head?.map Prod.snd
          let rec0 := faultRecord ((r0.map Req.va).getD (page * pageBytes)) c cn die ⟨8, 3, 0, 0⟩ ((r0.map Req.acc).getD 0)
          mine.foldl (fun t r => t.killReq die r.1) (scrubbed.emitFault die c.ownerFn rec0)
        let sealed := Memory.read s0.hostMem imp (49152 + 64)
        let version := field sealed (49152 + 16) 8
        match s0.frameOk c frame, s0.leafAt c (page * pageBytes), c.pageKey with
        | some pa, some leaf, some key =>
          if imp = 0 || !s0.hostRange imp (49152 + 64) || FMap.get? c.versions page != some version then .next fail
          else
            match Config.gcmOpen (Config.keygen s0.bootCount key) (pageAad cn page version) (sealed.take 49152) ((sealed.drop 49152).take 16) with
            | none => .next fail
            | some plain =>
              -- the permissions that the leaf kept stand (log 30)
              let old := leNat (s0.homeRead leaf 8)
              let entry := 1 + 2 + bits old 3 3 * 8 + frame / pageBytes * 2 ^ 13
              .next ((s0.homeWrite pa (fitBytes 49152 plain)).homeWrite leaf (leBytes 8 entry))
        | _, _, _ => .next fail

end Sys2Proof.Machine
end

