-- ==== Sys2Proof/Machine/Integer.lean ====
section
/-! DEFINITION. Integer and logic instructions (spec/06, R123 to R142). -/

namespace Sys2Proof.Machine

/-- Width of an integer type (R123). -/
def ityWidth : ITy → Nat | .s8 => 8 | .z8 => 8 | .s16 => 16 | .z16 => 16 | .s32 => 32 | .z32 => 32
/-- `opnd(v, t)` (R123). -/
def opnd (v : Word) (t : ITy) : Int := if t.isSigned then sext v.toNat (ityWidth t) else zext v.toNat (ityWidth t)
/-- `res(x, t)` (R123). -/
def res (x : Int) (t : ITy) : Word :=
  BitVec.ofInt 32 (if t.isSigned then sext (wrapN x (ityWidth t)) (ityWidth t) else (wrapN x (ityWidth t) : Nat))

/-- A two-source instruction with a type, source B of class S (R124, R126). -/
def typed2 (c : Ctl) (t : ITy) (d a : Reg) (b : SrcB) (s : State) (f : Int → Int → Int) : Host.Outcome State Fault Refusal :=
  fixed1 c d s fun x L => res (f (opnd (x.v a L) t) (opnd (x.b b immS L) t)) t

/-- IADD (R126). -/
def execIadd (c : Ctl) (t : ITy) (d a : Reg) (b : SrcB) (s : State) : Host.Outcome State Fault Refusal :=
  typed2 c t d a b s fun x y => x + y
/-- ISUB (R126). -/
def execIsub (c : Ctl) (t : ITy) (d a : Reg) (b : SrcB) (s : State) : Host.Outcome State Fault Refusal :=
  typed2 c t d a b s fun x y => x - y
/-- ISUM (R126). -/
def execIsum (c : Ctl) (t : ITy) (d a : Reg) (b : SrcB) (r : Reg) (s : State) : Host.Outcome State Fault Refusal :=
  fixed1 c d s fun x L => res (opnd (x.v a L) t + opnd (x.b b immS L) t + opnd (x.v r L) t) t
/-- IADDS (R126). -/
def execIadds (c : Ctl) (sub : Bool) (t : ITy) (d a : Reg) (b : SrcB) (s : State) : Host.Outcome State Fault Refusal :=
  typed2 c t d a b s fun x y => satI (if sub then x - y else x + y) (ityWidth t) t.isSigned
/-- IMUL (R129). -/
def execImul (c : Ctl) (t : ITy) (d a : Reg) (b : SrcB) (s : State) : Host.Outcome State Fault Refusal :=
  typed2 c t d a b s fun x y => x * y
/-- IMULH: the upper half of the 64-bit product (R129). -/
def execImulh (c : Ctl) (t : ITy) (d a : Reg) (b : SrcB) (s : State) : Host.Outcome State Fault Refusal :=
  fixed1 c d s fun x L => BitVec.ofInt 32 ((opnd (x.v a L) t * opnd (x.b b immS L) t) / 2 ^ 32)
/-- IMAD (R129). -/
def execImad (c : Ctl) (t : ITy) (d a : Reg) (b : SrcB) (r : Reg) (s : State) : Host.Outcome State Fault Refusal :=
  fixed1 c d s fun x L => res (opnd (x.v a L) t * opnd (x.b b immS L) t + opnd (x.v r L) t) t
/-- Word `k` of a 64-bit result. -/
def half (v : Int) (k : Nat) : Word := BitVec.ofNat 32 (wrapN v 64 / 2 ^ (32 * k))
/-- IMADW (R129). -/
def execImadw (c : Ctl) (t : ITy) (d a : Reg) (b : SrcB) (r : Reg) (s : State) : Host.Outcome State Fault Refusal :=
  fixedOp c d 2 s (fun x k L => half (opnd (x.v a L) t * opnd (x.b b immS L) t + (x.vd r L : Nat)) k) fun _ _ => 0
/-- The B operand of the 64-bit adds (R127). -/
def b64 (x : Issue) (e : Ext64) (b : SrcB) (L : Nat) : Int :=
  match b with
  | .imm v => v.toInt
  | .reg r =>
    match e with
    | .pair => (x.vd r L : Nat)
    | .bs => (x.v r L).toInt
    | .bz => ((x.v r L).toNat : Int)
/-- IADD64 (R127). -/
def execIadd64 (c : Ctl) (e : Ext64) (d a : Reg) (b : SrcB) (s : State) : Host.Outcome State Fault Refusal :=
  fixedOp c d 2 s (fun x k L => half ((x.vd a L : Nat) + b64 x e b L) k) fun _ _ => 0
/-- ISUB64 (R127). -/
def execIsub64 (c : Ctl) (e : Ext64) (d a : Reg) (b : SrcB) (s : State) : Host.Outcome State Fault Refusal :=
  fixedOp c d 2 s (fun x k L => half ((x.vd a L : Nat) - b64 x e b L) k) fun _ _ => 0
/-- IMIN (R126). -/
def execImin (c : Ctl) (t : ITy) (d a : Reg) (b : SrcB) (s : State) : Host.Outcome State Fault Refusal :=
  typed2 c t d a b s fun x y => min x y
/-- IMAX (R126). -/
def execImax (c : Ctl) (t : ITy) (d a : Reg) (b : SrcB) (s : State) : Host.Outcome State Fault Refusal :=
  typed2 c t d a b s fun x y => max x y
/-- IABS (R126). -/
def execIabs (c : Ctl) (sat : Bool) (t : ITy) (d a : Reg) (s : State) : Host.Outcome State Fault Refusal :=
  fixed1 c d s fun x L =>
    let v : Int := (opnd (x.v a L) t).natAbs
    res (if sat then satI v (ityWidth t) true else v) t
/-- INEG (R126). -/
def execIneg (c : Ctl) (sat : Bool) (t : ITy) (d a : Reg) (s : State) : Host.Outcome State Fault Refusal :=
  fixed1 c d s fun x L =>
    let v : Int := -(opnd (x.v a L) t)
    res (if sat then satI v (ityWidth t) t.isSigned else v) t
/-- Quotient and remainder of R131: truncated, with the results the entry defines for a divisor of zero. -/
def divRem (t : ITy) (a b : Int) : Int × Int :=
  if b = 0 then
    ((if t.isSigned then (if 0 ≤ a then 2 ^ (ityWidth t - 1) - 1 else -(2 ^ (ityWidth t - 1))) else 2 ^ ityWidth t - 1), a)
  else (Int.tdiv a b, a - Int.tdiv a b * b)
/-- IDIV (R130, R131). -/
def execIdiv (c : Ctl) (t : ITy) (d a : Reg) (b : SrcB) (s : State) : Host.Outcome State Fault Refusal :=
  varOp c (.idiv c t d a b) d 1 s fun x =>
    ([Row.ofLanes fun L => if x.act.getLsbD L then res (divRem t (opnd (x.v a L) t) (opnd (x.b b immS L) t)).1 t else 0], 0)
/-- IREM (R130, R131). -/
def execIrem (c : Ctl) (t : ITy) (d a : Reg) (b : SrcB) (s : State) : Host.Outcome State Fault Refusal :=
  varOp c (.irem c t d a b) d 1 s fun x =>
    ([Row.ofLanes fun L => if x.act.getLsbD L then res (divRem t (opnd (x.v a L) t) (opnd (x.b b immS L) t)).2 t else 0], 0)
/-- A two-source instruction on bit patterns, source B of class Z (R132, R134, R136). -/
def bits2 (c : Ctl) (d a : Reg) (b : SrcB) (s : State) (f : Word → Word → Word) : Host.Outcome State Fault Refusal :=
  fixed1 c d s fun x L => f (x.v a L) (x.b b immZ L)
/-- AND (R132). -/
def execAnd (c : Ctl) (d a : Reg) (b : SrcB) (s : State) : Host.Outcome State Fault Refusal := bits2 c d a b s fun u v => u &&& v
/-- OR (R132). -/
def execOr (c : Ctl) (d a : Reg) (b : SrcB) (s : State) : Host.Outcome State Fault Refusal := bits2 c d a b s fun u v => u ||| v
/-- XOR (R132). -/
def execXor (c : Ctl) (d a : Reg) (b : SrcB) (s : State) : Host.Outcome State Fault Refusal := bits2 c d a b s fun u v => u ^^^ v
/-- ANDN (R132). -/
def execAndn (c : Ctl) (d a : Reg) (b : SrcB) (s : State) : Host.Outcome State Fault Refusal := bits2 c d a b s fun u v => u &&& ~~~v
/-- Bit `i` of the result of BLUT (R133). -/
def blutBit (lut : BitVec 8) (u v w : Word) (i : Nat) : Bool :=
  lut.getLsbD ((u.getLsbD i).toNat + 2 * (v.getLsbD i).toNat + 4 * (w.getLsbD i).toNat)
/-- BLUT (R133). -/
def execBlut (c : Ctl) (lut : BitVec 8) (d a b r : Reg) (s : State) : Host.Outcome State Fault Refusal :=
  fixed1 c d s fun x L => LaneMask.ofPred (blutBit lut (x.v a L) (x.v b L) (x.v r L))
/-- SHL (R134). -/
def execShl (c : Ctl) (d a : Reg) (b : SrcB) (s : State) : Host.Outcome State Fault Refusal :=
  bits2 c d a b s fun u n => if n.toNat < 32 then u <<< n.toNat else 0
/-- SHR (R134). -/
def execShr (c : Ctl) (d a : Reg) (b : SrcB) (s : State) : Host.Outcome State Fault Refusal :=
  bits2 c d a b s fun u n => if n.toNat < 32 then u >>> n.toNat else 0
/-- SAR (R134). -/
def execSar (c : Ctl) (d a : Reg) (b : SrcB) (s : State) : Host.Outcome State Fault Refusal :=
  bits2 c d a b s fun u n => u.sshiftRight (min n.toNat 31)
/-- ROT (R134). -/
def execRot (c : Ctl) (right : Bool) (d a : Reg) (b : SrcB) (s : State) : Host.Outcome State Fault Refusal :=
  bits2 c d a b s fun u n =>
    let k := if right then (32 - n.toNat % 32) % 32 else n.toNat % 32
    BitVec.ofNat 32 (u.toNat * 2 ^ k + u.toNat / 2 ^ (32 - k))
/-- FSHF (R135). -/
def execFshf (c : Ctl) (left : Bool) (d a : Reg) (b : SrcB) (r : Reg) (s : State) : Host.Outcome State Fault Refusal :=
  fixed1 c d s fun x L =>
    let u := (x.v r L).toNat * 2 ^ 32 + (x.v a L).toNat
    let m := min (x.b b immZ L).toNat 32
    BitVec.ofNat 32 (if left then u * 2 ^ m / 2 ^ 32 else u / 2 ^ m)
/-- The position and width of a bit field (R136). -/
def fieldOf (v : Word) : Nat × Nat := (min (bits v.toNat 0 8) 32, min (bits v.toNat 8 8) 32)
/-- BFX (R136). -/
def execBfx (c : Ctl) (signed : Bool) (d a : Reg) (b : SrcB) (s : State) : Host.Outcome State Fault Refusal :=
  bits2 c d a b s fun u v =>
    let (p, n) := fieldOf v
    let e : Int := if signed then u.toInt else (u.toNat : Int)
    let f := (e / (2 ^ p : Nat)) % (2 ^ n : Nat)
    if n = 0 then 0 else BitVec.ofInt 32 (if signed then sext f.toNat n else f)
/-- BFI (R136). -/
def execBfi (c : Ctl) (d a : Reg) (b : SrcB) (r : Reg) (s : State) : Host.Outcome State Fault Refusal :=
  fixed1 c d s fun x L =>
    let (p, n) := fieldOf (x.b b immZ L)
    let mask : Word := BitVec.ofNat 32 ((2 ^ n - 1) * 2 ^ p)
    (x.v r L &&& ~~~mask) ||| (BitVec.ofNat 32 ((x.v a L).toNat * 2 ^ p) &&& mask)
/-- POPC (R137). -/
def execPopc (c : Ctl) (d a : Reg) (s : State) : Host.Outcome State Fault Refusal :=
  fixed1 c d s fun x L => BitVec.ofNat 32 (setBits (x.v a L).toNat 32).length
/-- CLZ (R137). -/
def execClz (c : Ctl) (d a : Reg) (s : State) : Host.Outcome State Fault Refusal :=
  fixed1 c d s fun x L => if x.v a L = 0 then 32 else BitVec.ofNat 32 (31 - Nat.log2 (x.v a L).toNat)
/-- CTZ (R137). -/
def execCtz (c : Ctl) (d a : Reg) (s : State) : Host.Outcome State Fault Refusal :=
  fixed1 c d s fun x L => BitVec.ofNat 32 ((setBits (x.v a L).toNat 32).headD 32)
/-- BREV (R137). -/
def execBrev (c : Ctl) (d a : Reg) (s : State) : Host.Outcome State Fault Refusal :=
  fixed1 c d s fun x L => LaneMask.ofPred fun i => (x.v a L).getLsbD (31 - i)
/-- An integer comparison (R138). -/
def icmp (cmp : ICmp) (a b : Int) : Bool :=
  match cmp with
  | .eq => a == b | .ne => a != b | .lt => decide (a < b) | .le => decide (a ≤ b) | .gt => decide (b < a) | .ge => decide (b ≤ a)
/-- A register with its predicate bit replaced, combined with the old one (R138, R149). -/
def setPred (comb : Comb) (bit : BitVec 5) (old : Word) (v : Bool) : Word :=
  let o := old.getLsbD bit.toNat
  let n := match comb with | .none => v | .and => o && v | .or => o || v
  let m : Word := 1 <<< bit.toNat
  if n then old ||| m else old &&& ~~~m
/-- ICMP (R138). -/
def execIcmp (c : Ctl) (t : ITy) (cmp : ICmp) (comb : Comb) (bit : BitVec 5) (d a : Reg) (b : SrcB) (s : State) :
    Host.Outcome State Fault Refusal :=
  fixed1 c d s fun x L => setPred comb bit (x.v d L) (icmp cmp (opnd (x.v a L) t) (opnd (x.b b immS L) t))
/-- SEL (R139). -/
def execSel (c : Ctl) (bit : BitVec 5) (d a : Reg) (b : SrcB) (r : Reg) (s : State) : Host.Outcome State Fault Refusal :=
  fixed1 c d s fun x L => if (x.v r L).getLsbD bit.toNat then x.v a L else x.b b immS L
/-- LEA (R140). -/
def execLea (c : Ctl) (x3 z : Bool) (sh : BitVec 3) (d a : Reg) (b : SrcB) (s : State) : Host.Outcome State Fault Refusal :=
  fixedOp c d 2 s (fun x k L =>
    let v := x.b b immS L
    let i : Int := if z then (v.toNat : Int) else v.toInt
    half ((x.vd a L : Nat) + i * (if x3 then 3 else 1) * 2 ^ sh.toNat) k) fun _ _ => 0
/-- MOV (R141). -/
def execMov (c : Ctl) (d : Reg) (src : MovSrc) (s : State) : Host.Outcome State Fault Refusal :=
  match src with
  | .reg a => fixed1 c d s fun x L => x.v a L
  | .imm v => fixed1 c d s fun _ _ => immS v
  | .pair a => fixedOp c d 2 s (fun x k L => x.v (nextReg a k) L) fun _ _ => 0
/-- MOVI: every lane of the run (R142). -/
def execMovi (c : CtlL) (d : Reg) (imm : BitVec 32) (s : State) : Host.Outcome State Fault Refusal :=
  fixed1 (CtlL.full c) d s fun _ _ => imm
/-- PSET (R138). -/
def execPset (c : Ctl) (z : Bool) (comb : Comb) (bit : BitVec 5) (d a : Reg) (b : SrcB) (s : State) :
    Host.Outcome State Fault Refusal :=
  fixed1 c d s fun x L => setPred comb bit (x.v d L) (((x.v a L &&& x.b b immZ L) == 0) == z)
/-- BMSK (R136). -/
def execBmsk (c : Ctl) (d a : Reg) (b : SrcB) (s : State) : Host.Outcome State Fault Refusal :=
  bits2 c d a b s fun u v => BitVec.ofNat 32 ((2 ^ min v.toNat 32 - 1) * 2 ^ min u.toNat 32)

end Sys2Proof.Machine
end

