-- ==== Sys2Proof/Machine/Float.lean ====
section
/-! DEFINITION. Floating point and conversion (spec/07, R143 to R166). -/

namespace Sys2Proof.Machine

/-- Source B of class F as an FP32 pattern (R77, R144). -/
def fb (x : Issue) (b : SrcB) (L : Nat) : Nat := (x.b b immF L).toNat
/-- Source A as a pattern. -/
def fa (x : Issue) (a : Reg) (L : Nat) : Nat := (x.v a L).toNat

/-- FADD (R146). -/
def execFadd (c : Ctl) (m : RMode) (d a : Reg) (b : SrcB) (s : State) : Host.Outcome State Fault Refusal :=
  fixedF c d s fun x L => fpAdd .f32 m (fa x a L) (fb x b L)
/-- FSUB (R146). -/
def execFsub (c : Ctl) (m : RMode) (d a : Reg) (b : SrcB) (s : State) : Host.Outcome State Fault Refusal :=
  fixedF c d s fun x L => fpSub .f32 m (fa x a L) (fb x b L)
/-- FMUL (R146). -/
def execFmul (c : Ctl) (m : RMode) (d a : Reg) (b : SrcB) (s : State) : Host.Outcome State Fault Refusal :=
  fixedF c d s fun x L => fpMul .f32 m (fa x a L) (fb x b L)
/-- FFMA: one rounding (R146). -/
def execFfma (c : Ctl) (m : RMode) (d a : Reg) (b : SrcB) (r : Reg) (s : State) : Host.Outcome State Fault Refusal :=
  fixedF c d s fun x L => fpFma .f32 m (fa x a L) (fb x b L) (fa x r L)
/-- FMIN (R148). -/
def execFmin (c : Ctl) (d a : Reg) (b : SrcB) (s : State) : Host.Outcome State Fault Refusal :=
  fixedF c d s fun x L => (fpMinMax .f32 false (fa x a L) (fb x b L), snanFlag .f32 [fa x a L, fb x b L])
/-- FMAX (R148). -/
def execFmax (c : Ctl) (d a : Reg) (b : SrcB) (s : State) : Host.Outcome State Fault Refusal :=
  fixedF c d s fun x L => (fpMinMax .f32 true (fa x a L) (fb x b L), snanFlag .f32 [fa x a L, fb x b L])
/-- A compare of bits of format `f` in one lane, written to a predicate bit (R149). -/
def cmpBit (f : FFmt) (cmp : FCmp) (comb : Comb) (bit : BitVec 5) (old : Word) (a b : Nat) : Nat × BitVec 12 :=
  let r := fpCmp f cmp a b
  ((setPred comb bit old r.1).toNat, r.2)
/-- FCMP (R149). -/
def execFcmp (c : Ctl) (cmp : FCmp) (comb : Comb) (bit : BitVec 5) (d a : Reg) (b : SrcB) (s : State) :
    Host.Outcome State Fault Refusal :=
  fixedF c d s fun x L => cmpBit .f32 cmp comb bit (x.v d L) (fa x a L) (fb x b L)
/-- FCLASS: the mask is Bv[25:16] (R150). -/
def execFclass (c : Ctl) (comb : Comb) (bit : BitVec 5) (d a : Reg) (b : SrcB) (s : State) : Host.Outcome State Fault Refusal :=
  fixed1 c d s fun x L => setPred comb bit (x.v d L) ((bits (fb x b L) 16 10).testBit (fpClass .f32 (fa x a L)))
/-- FRND (R151). -/
def execFrnd (c : Ctl) (m : RMode) (d a : Reg) (b : SrcB) (s : State) : Host.Outcome State Fault Refusal :=
  fixedF c d s fun x L => fpRnd .f32 m (fa x a L) (fb x b L)
/-- FSCALB (R152). -/
def execFscalb (c : Ctl) (m : RMode) (d a : Reg) (b : SrcB) (s : State) : Host.Outcome State Fault Refusal :=
  fixedF c d s fun x L => fpScalb m (fa x a L) (fb x b L)
/-- FCLAMP keeps a NaN in A, made canonical (R148). -/
def execFclamp (c : Ctl) (d a : Reg) (b : SrcB) (r : Reg) (s : State) : Host.Outcome State Fault Refusal :=
  fixedF c d s fun x L =>
    let u := fa x a L
    let v := fb x b L
    let w := fa x r L
    ((if (dec .f32 u).isNan then cnan .f32 else fpMinMax .f32 false (fpMinMax .f32 true u v) w), snanFlag .f32 [u, v, w])

/-- An SFU instruction (R153): each active lane gives bits and flags, which return together (R60). -/
def sfuOp (c : Ctl) (i : Instr) (d : Reg) (s : State) (f : Issue → Nat → Nat × BitVec 12) : Host.Outcome State Fault Refusal :=
  varOp c i d 1 s fun x =>
    ([Row.ofLanes fun L => if x.act.getLsbD L then BitVec.ofNat 32 (f x L).1 else 0],
      (LaneMask.lanes x.act).foldl (fun acc L => acc ||| (f x L).2) 0)
/-- FRCP (R154, R156). -/
def execFrcp (c : Ctl) (m : RMode) (d a : Reg) (s : State) : Host.Outcome State Fault Refusal :=
  sfuOp c (.frcp c m d a) d s fun x L => fpRcp m (fa x a L)
/-- FRSQ (R154, R156). -/
def execFrsq (c : Ctl) (m : RMode) (d a : Reg) (s : State) : Host.Outcome State Fault Refusal :=
  sfuOp c (.frsq c m d a) d s fun x L => fpRsq m (fa x a L)
/-- FSQRT (R154, R156). -/
def execFsqrt (c : Ctl) (m : RMode) (d a : Reg) (s : State) : Host.Outcome State Fault Refusal :=
  sfuOp c (.fsqrt c m d a) d s fun x L => fpSqrt m (fa x a L)
/-- FDIV (R154). -/
def execFdiv (c : Ctl) (m : RMode) (d a b : Reg) (s : State) : Host.Outcome State Fault Refusal :=
  sfuOp c (.fdiv c m d a b) d s fun x L => fpDiv m (fa x a L) (fa x b L)
/-- FEX2 (R155, R156). -/
def execFex2 (c : Ctl) (d a : Reg) (s : State) : Host.Outcome State Fault Refusal :=
  sfuOp c (.fex2 c d a) d s fun x L => fpSfu 0x5C (fa x a L)
/-- FLG2 (R155, R156). -/
def execFlg2 (c : Ctl) (d a : Reg) (s : State) : Host.Outcome State Fault Refusal :=
  sfuOp c (.flg2 c d a) d s fun x L => fpSfu 0x5D (fa x a L)
/-- FSIN: the argument in revolutions (R153, R155). -/
def execFsin (c : Ctl) (d a : Reg) (s : State) : Host.Outcome State Fault Refusal :=
  sfuOp c (.fsin c d a) d s fun x L => fpSfu 0x5E (fa x a L)
/-- FCOS: the argument in revolutions (R153, R155). -/
def execFcos (c : Ctl) (d a : Reg) (s : State) : Host.Outcome State Fault Refusal :=
  sfuOp c (.fcos c d a) d s fun x L => fpSfu 0x5F (fa x a L)
/-- FTANH (R155, R156). -/
def execFtanh (c : Ctl) (d a : Reg) (s : State) : Host.Outcome State Fault Refusal :=
  sfuOp c (.ftanh c d a) d s fun x L => fpSfu 0x60 (fa x a L)
/-- FSIGM (R155, R156). -/
def execFsigm (c : Ctl) (d a : Reg) (s : State) : Host.Outcome State Fault Refusal :=
  sfuOp c (.fsigm c d a) d s fun x L => fpSfu 0x61 (fa x a L)

/-- The format of a packed instruction (R157). -/
def hfmt (bf : Bool) : FFmt := if bf then .bf16 else .f16
/-- Element `e` of a packed register (R157). -/
def helem (v e : Nat) : Nat := bits v (16 * e) 16
/-- A packed result: each element on its own, the flags ORed (R158). -/
def packed (f : Nat → Nat × BitVec 12) : Nat × BitVec 12 := ((f 0).1 + 2 ^ 16 * (f 1).1, (f 0).2 ||| (f 1).2)
/-- HADD2 (R158). -/
def execHadd2 (c : Ctl) (bf : Bool) (m : RMode) (d a b : Reg) (s : State) : Host.Outcome State Fault Refusal :=
  fixedF c d s fun x L => packed fun e => fpAdd (hfmt bf) m (helem (fa x a L) e) (helem (fa x b L) e)
/-- HMUL2 (R158). -/
def execHmul2 (c : Ctl) (bf : Bool) (m : RMode) (d a b : Reg) (s : State) : Host.Outcome State Fault Refusal :=
  fixedF c d s fun x L => packed fun e => fpMul (hfmt bf) m (helem (fa x a L) e) (helem (fa x b L) e)
/-- HFMA2 (R158). -/
def execHfma2 (c : Ctl) (bf : Bool) (m : RMode) (d a b r : Reg) (s : State) : Host.Outcome State Fault Refusal :=
  fixedF c d s fun x L => packed fun e =>
    fpFma (hfmt bf) m (helem (fa x a L) e) (helem (fa x b L) e) (helem (fa x r L) e)
/-- HMNMX2 (R158). -/
def execHmnmx2 (c : Ctl) (max bf : Bool) (d a b : Reg) (s : State) : Host.Outcome State Fault Refusal :=
  fixedF c d s fun x L => packed fun e =>
    let u := helem (fa x a L) e
    let v := helem (fa x b L) e
    (fpMinMax (hfmt bf) max u v, snanFlag (hfmt bf) [u, v])
/-- HCMP2: bit b for element 0, bit b + 1 for element 1 (R159). -/
def execHcmp2 (c : Ctl) (bf : Bool) (cmp : FCmp) (comb : Comb) (bit : BitVec 5) (d a b : Reg) (s : State) :
    Host.Outcome State Fault Refusal :=
  fixedF c d s fun x L =>
    let r0 := cmpBit (hfmt bf) cmp comb bit (x.v d L) (helem (fa x a L) 0) (helem (fa x b L) 0)
    let r1 := cmpBit (hfmt bf) cmp comb (bit + 1) (BitVec.ofNat 32 r0.1) (helem (fa x a L) 1) (helem (fa x b L) 1)
    (r1.1, r0.2 ||| r1.2)
/-- DADD (R161). -/
def execDadd (c : Ctl) (m : RMode) (d a b : Reg) (s : State) : Host.Outcome State Fault Refusal :=
  fixedF2 c d s fun x L => fpAdd .f64 m (x.vd a L) (x.vd b L)
/-- DMUL (R161). -/
def execDmul (c : Ctl) (m : RMode) (d a b : Reg) (s : State) : Host.Outcome State Fault Refusal :=
  fixedF2 c d s fun x L => fpMul .f64 m (x.vd a L) (x.vd b L)
/-- DFMA (R161). -/
def execDfma (c : Ctl) (m : RMode) (d a b r : Reg) (s : State) : Host.Outcome State Fault Refusal :=
  fixedF2 c d s fun x L => fpFma .f64 m (x.vd a L) (x.vd b L) (x.vd r L)
/-- DMNMX (R161). -/
def execDmnmx (c : Ctl) (max : Bool) (d a b : Reg) (s : State) : Host.Outcome State Fault Refusal :=
  fixedF2 c d s fun x L => (fpMinMax .f64 max (x.vd a L) (x.vd b L), snanFlag .f64 [x.vd a L, x.vd b L])
/-- DCMP: a single destination register (R160, R161). -/
def execDcmp (c : Ctl) (cmp : FCmp) (comb : Comb) (bit : BitVec 5) (d a b : Reg) (s : State) : Host.Outcome State Fault Refusal :=
  fixedF c d s fun x L => cmpBit .f64 cmp comb bit (x.v d L) (x.vd a L) (x.vd b L)
/-- DRND (R161). -/
def execDrnd (c : Ctl) (m : RMode) (d a : Reg) (s : State) : Host.Outcome State Fault Refusal :=
  fixedF2 c d s fun x L => fpRint .f64 m (x.vd a L)

/-- An element of a register, pair, half or byte as a format and select name it (R162). -/
def element (f : FFmt) (sel : BitVec 2) (x : Issue) (a : Reg) (L : Nat) : Nat :=
  match f with
  | .f64 => x.vd a L
  | .f32 => fa x a L
  | .f16 => bits (fa x a L) (16 * sel.toNat) 16
  | .bf16 => bits (fa x a L) (16 * sel.toNat) 16
  | .f8e4 => bits (fa x a L) (8 * sel.toNat) 8
  | .f8e5 => bits (fa x a L) (8 * sel.toNat) 8
/-- A narrow element inserted into the register's old value (R162). -/
def insertElem (f : FFmt) (sel : BitVec 2) (old v : Nat) : Nat :=
  if FFmt.isNarrow f then
    let w := FFmt.bits f
    let p := w * sel.toNat
    old - bits old p w * 2 ^ p + v * 2 ^ p
  else v
/-- A conversion result of format `f` written to `D` (R162). -/
def cvtResult (c : Ctl) (f : FFmt) (sel : BitVec 2) (d : Reg) (s : State) (g : Issue → Nat → Nat × BitVec 12) :
    Host.Outcome State Fault Refusal :=
  match f with
  | .f64 => fixedF2 c d s g
  | f => fixedF c d s fun x L => let r := g x L; (insertElem f sel (fa x d L) r.1, r.2)
/-- FCVT (R163). -/
def execFcvt (c : Ctl) (dst src : FFmt) (sat : Bool) (m : RMode) (dsel ssel : BitVec 2) (d a : Reg) (s : State) :
    Host.Outcome State Fault Refusal :=
  cvtResult c dst dsel d s fun x L =>
    let e := element src ssel x a L
    let r := roundFmt (dec src e) dst m sat
    (r.1, r.2 ||| snanFlag src [e])
/-- Width of an integer type of a conversion (R162). -/
def ifmtWidth : IFmt → Nat | .s8 => 8 | .z8 => 8 | .s16 => 16 | .z16 => 16 | .s32 => 32 | .z32 => 32 | .s64 => 64 | .z64 => 64
/-- Signedness of an integer type of a conversion (R162). -/
def ifmtSigned : IFmt → Bool | .s8 => true | .s16 => true | .s32 => true | .s64 => true | _ => false
/-- F2I (R164). -/
def execF2i (c : Ctl) (it : IFmt) (ft : FFmt) (m : RMode) (ssel : BitVec 2) (d a : Reg) (s : State) :
    Host.Outcome State Fault Refusal :=
  let g := fun (x : Issue) (L : Nat) =>
    let r := toInt (dec ft (element ft ssel x a L)) (ifmtWidth it) (ifmtSigned it) m
    (wrapN r.1 (if ifmtWidth it = 64 then 64 else 32), r.2)
  if ifmtWidth it = 64 then fixedF2 c d s g else fixedF c d s g
/-- The integer source of I2F (R165). -/
def intSource (it : IFmt) (x : Issue) (a : Reg) (L : Nat) : Int :=
  let v := if ifmtWidth it = 64 then x.vd a L else fa x a L
  if ifmtSigned it then sext v (ifmtWidth it) else zext v (ifmtWidth it)
/-- I2F (R165). -/
def execI2f (c : Ctl) (ft : FFmt) (it : IFmt) (sat : Bool) (m : RMode) (dsel : BitVec 2) (d a : Reg) (s : State) :
    Host.Outcome State Fault Refusal :=
  cvtResult c ft dsel d s fun x L => roundFmt (XR.ofInt (intSource it x a L)) ft m sat
/-- DOT2 (R166). -/
def execDot2 (c : Ctl) (bf : Bool) (m : RMode) (d a b r : Reg) (s : State) : Host.Outcome State Fault Refusal :=
  fixedF c d s fun x L =>
    fpDot (hfmt bf) (hfmt bf) m ([0, 1].map fun e => helem (fa x a L) e) ([0, 1].map fun e => helem (fa x b L) e) (fa x r L)
/-- DOT4 (R166). -/
def execDot4 (c : Ctl) (ae5 be5 : Bool) (m : RMode) (d a b r : Reg) (s : State) : Host.Outcome State Fault Refusal :=
  fixedF c d s fun x L =>
    fpDot (if ae5 then .f8e5 else .f8e4) (if be5 then .f8e5 else .f8e4) m
      ([0, 1, 2, 3].map fun e => bits (fa x a L) (8 * e) 8) ([0, 1, 2, 3].map fun e => bits (fa x b L) (8 * e) 8) (fa x r L)

end Sys2Proof.Machine
end

