-- ==== Sys2Proof/Machine/Lanes.lean ====
section
/-! DEFINITION. Cross-lane instructions (spec/08, R167 to R171). -/

namespace Sys2Proof.Machine

/-- The source lane of SHFL (R168). -/
def shflLane (mode : ShflMode) (w L b : Nat) : Nat :=
  let st := L - L % w
  match mode with
  | .idx => st + b % w
  | .up => if st + b ≤ L then L - b else L
  | .down => if L + b < st + w then L + b else L
  | .xor => L ^^^ (b % w)
/-- SHFL (R168). -/
def execShfl (c : Ctl) (mode : ShflMode) (w : BitVec 3) (d a : Reg) (b : SrcB) (s : State) : Host.Outcome State Fault Refusal :=
  fixed1 c d s fun x L => x.v a (shflLane mode (32 / 2 ^ w.toNat) L (x.b b immZ L).toNat)

/-- The active lanes whose bit `b` of a row is set (R170). -/
def ballot (act : LaneMask) (row : Row) (b : Nat) : LaneMask :=
  LaneMask.ofPred fun K => act.getLsbD K && (Row.lane row K).getLsbD b
/-- VOTE (R170). -/
def execVote (c : Ctl) (mode : VoteMode) (bit : BitVec 5) (d a : Reg) (s : State) : Host.Outcome State Fault Refusal :=
  fixed1 c d s fun x _ =>
    let m := ballot x.act (x.row a) bit.toNat
    match mode with
    | .bal => m
    | .all => if m = x.act then 1 else 0
    | .any => if m ≠ 0 then 1 else 0
    | .eq => if m = x.act ∨ m = 0 then 1 else 0

/-- A register as another wave, a debugger or a save reads it (R48, R169, R250): what its own wave would read without
consuming a flag. A write that no barrier orders may or may not be seen: the latest fixed-latency write issued so far is (DESIGN CHOICE,
log 106). -/
def Wave.outside (w : Wave) (r : Nat) : Row :=
  if r = 255 then Row.zero else match w.hold? r with | some h => h.pre | none => w.latest r

/-- BCAST (R169): under W, of the wave in a slot of the same quarter, if it belongs to the issuing workgroup. Of its own slot, a wave reads
as from outside, not by the producer distance of R39 (DESIGN CHOICE, log 106). -/
def execBcast (c : Ctl) (w : Bool) (d a : Reg) (b : SrcB) (s : State) : Host.Outcome State Fault Refusal :=
  let src := fun (x : Issue) =>
    let v := (x.b b immZ x.low).toNat
    if w then
      match s.seated? (x.key - waveSlot x.key + bits v 8 4) with
      | some o => if o.wg = x.w.wg ∧ o.priv = x.w.priv then
          some (Row.lane (if waveSlot x.key = bits v 8 4 then x.w.outside a.toNat else o.outside a.toNat) (bits v 0 5)) else none
      | none => none
    else some (x.v a (bits v 0 5))
  fixedOp c d 1 s (fun x _ _ => (src x).getD 0) fun x _ => match src x with | some _ => 0 | none => wGRD

/-- The combination of a set of values (R171), with the flags of its rounding. -/
def redCombine (op : RedOp) (sg : Bool) (m : RMode) (l : List Word) : Word × BitVec 12 :=
  let n := l.map BitVec.toNat
  match op with
  | .add => (l.foldl (· + ·) 0, 0)
  | .min =>
    (l.foldl (fun acc v => if (if sg then v.toInt < acc.toInt else v.toNat < acc.toNat) then v else acc)
      (if sg then 0x7FFFFFFF else 0xFFFFFFFF), 0)
  | .max =>
    (l.foldl (fun acc v => if (if sg then acc.toInt < v.toInt else acc.toNat < v.toNat) then v else acc)
      (if sg then 0x80000000 else 0), 0)
  | .and => (l.foldl (· &&& ·) (BitVec.allOnes 32), 0)
  | .or => (l.foldl (· ||| ·) 0, 0)
  | .xor => (l.foldl (· ^^^ ·) 0, 0)
  | .fadd =>
    if l.isEmpty then (0x80000000, 0)
    else
      let (x, inv) := xsumM .rn (n.map (dec .f32))
      let (r, fl) := roundFmt x .f32 m false
      (BitVec.ofNat 32 r, fl ||| flagIf inv fNV ||| snanFlag .f32 n)
  | .fmin => foldMinMax false 0x7F800000 n
  | .fmax => foldMinMax true 0xFF800000 n
where
  /-- `mn` or `mx` folded in increasing lane order; a lone NaN is made canonical (R54, R171). -/
  foldMinMax (mx : Bool) (ident : Word) (n : List Nat) : Word × BitVec 12 :=
    match n with
    | [] => (ident, 0)
    | v :: t => (BitVec.ofNat 32 (t.foldl (fpMinMax .f32 mx) (fpMinMax .f32 mx v v)), snanFlag .f32 n)

/-- LRED (R171). -/
def execLred (c : Ctl) (op : RedOp) (sg : Bool) (m : RMode) (d a : Reg) (s : State) : Host.Outcome State Fault Refusal :=
  let g := fun (x : Issue) => redCombine op sg m ((LaneMask.lanes x.act).map fun K => x.v a K)
  fixedOp c d 1 s (fun x _ _ => (g x).1) fun x _ => (g x).2
/-- LSCAN (R171). -/
def execLscan (c : Ctl) (op : RedOp) (exc sg : Bool) (m : RMode) (d a : Reg) (s : State) : Host.Outcome State Fault Refusal :=
  let g := fun (x : Issue) (L : Nat) =>
    redCombine op sg m (((LaneMask.lanes x.act).filter fun K => K < L || (!exc && K == L)).map fun K => x.v a K)
  fixedOp c d 1 s (fun x _ L => (g x L).1) fun x L => (g x L).2
/-- MATCH (R170). -/
def execMatchL (c : Ctl) (dbl : Bool) (d a : Reg) (s : State) : Host.Outcome State Fault Refusal :=
  fixed1 c d s fun x L =>
    LaneMask.ofPred fun K => x.act.getLsbD K && x.v a K == x.v a L && (!dbl || x.v (nextReg a 1) K == x.v (nextReg a 1) L)
/-- ACTM (R170). -/
def execActm (c : Ctl) (d : Reg) (s : State) : Host.Outcome State Fault Refusal := fixed1 c d s fun x _ => x.act

end Sys2Proof.Machine
end

