-- ==== Sys2Proof/Machine/System.lean ====
section
/-! DEFINITION. System registers, events, stopping and resuming waves, register access, saving and loading, invalidation, protection and signatures (spec/11, R239 to R257, R441). -/

namespace Sys2Proof.Machine

/-! ### System registers (R242, R244, R246) -/

/-- A system register as the firmware of a core reads it (R242). -/
def State.sysReg (s : State) (core num : Nat) : Nat :=
  let d := s.die (core / 48)
  match num with
  | 0x0000 => d.cycle.toNat
  | 0x0001 => (s.core core).gendrop
  | 0x0002 => d.trapCnt.toNat
  | 0x0110 => d.prsLimit
  | 0x0111 => d.prsUsed
  | 0x0112 => d.ovcBase
  | 0x0113 => d.ovcSize
  | 0x0114 => d.ovcUsed
  | 0x0120 => d.trbBase
  | 0x0121 => d.trbSize
  | 0x0122 => d.trbHead
  | 0x0123 => d.trbTail
  | 0x0130 => d.evMask.toNat
  | 0x0131 => d.settle.evPend.toNat
  | 0x0132 => d.timer.toNat
  | _ => 0

/-- A write of `TRB_TAIL` (R242, R244): taken only on the way from the tail to the head; held records are written as room appears. -/
def State.writeTail (s : State) (die v : Nat) : State :=
  let d := s.die die
  if v < d.trbSize ∧ (v + d.trbSize - d.trbTail) % d.trbSize ≤ (d.trbHead + d.trbSize - d.trbTail) % d.trbSize then
    State.drainTraps (s.modDie die fun d => { d with trbTail := v }) die d.heldTraps
  else s

/-- A write of `EVPEND` (R246): a 1 clears a bit; one whose condition still holds is set again at once. -/
def State.clearEv (s : State) (die : Nat) (v : BitVec 32) : State :=
  s.modDie die fun d => { d with evPend := d.evPend &&& ~~~v }.settle

/-- A system register written (R242): a value outside the stated limits is ignored. `TRB_SIZE` leaves head and tail as they are (DESIGN CHOICE,
log 142). -/
def State.writeSysReg (s : State) (core num v : Nat) : State :=
  let die := core / 48
  let d := s.die die
  match num with
  | 0x0001 => s.modCore core fun c => { c with gendrop := v % 2 ^ 32 }
  | 0x0110 => if 1 ≤ v ∧ v ≤ 4096 then s.modDie die fun d => { d with prsLimit := v } else s
  | 0x0112 => if d.ovcUsed = 0 ∧ v % 49152 = 0 then s.modDie die fun d => { d with ovcBase := v } else s
  | 0x0113 => if d.ovcUsed = 0 ∧ v ≤ 2 ^ 20 then s.modDie die fun d => { d with ovcSize := v } else s
  | 0x0120 => if v % 192 = 0 then s.modDie die fun d => { d with trbBase := v } else s
  | 0x0121 => if v % 3 = 0 ∧ 3 ≤ v ∧ v ≤ 65535 then s.modDie die fun d => { d with trbSize := v } else s
  | 0x0123 => s.writeTail die v
  | 0x0130 => s.modDie die fun d => { d with evMask := BitVec.ofNat 32 v &&& 0x3F }
  | 0x0131 => s.clearEv die (BitVec.ofNat 32 v)
  | 0x0132 =>
    -- a bit that the old value has set stays
    s.modDie die fun d => { d.settle with timer := BitVec.ofNat 64 v }
  | _ => s

/-- MFSR (R243): every active lane receives the register. -/
def execMfsr (c : Ctl) (w : Bool) (d : Reg) (num : BitVec 16) (s : State) : Host.Outcome State Fault Refusal :=
  varOp c (.mfsr c w d num) d (dblRegs w) s fun x =>
    let v := s.sysReg (waveCore x.key) num.toNat
    ((List.range (dblRegs w)).map fun k => Row.splat (BitVec.ofNat 32 (v / 2 ^ (32 * k))), 0)

/-- MTSR (R243): the run-wide value is written. -/
def execMtsr (c : Ctl) (w : Bool) (num : BitVec 16) (a : Reg) (s : State) : Host.Outcome State Fault Refusal :=
  onIssue c [] s fun x =>
    if x.act = 0 then x.done s x.w
    else x.done (s.writeSysReg (waveCore x.key) num.toNat (if w then x.ud a else x.u a)) x.w

/-- TRB_TAIL_WRITE (R242, R244). -/
def execTrbTailWrite (die : Nat) (v : BitVec 32) (s : State) : Host.Outcome State Fault Refusal := .next (s.writeTail die v.toNat)
/-- EVPEND_WRITE (R246). -/
def execEvpendWrite (die : Nat) (v : BitVec 32) (s : State) : Host.Outcome State Fault Refusal := .next (s.clearEv die v)
/-- TIMER_EXPIRY (R242, R246). -/
def execTimerExpiry (die : Nat) (s : State) : Host.Outcome State Fault Refusal :=
  if (s.die die).timer.toNat ≤ (s.die die).cycle.toNat then .next (s.raiseEv die 5) else .next s

/-! ### Handles and statuses (R240, R241) -/

/-- A status word (R241). -/
def statusWord (code v : Nat) : Word := BitVec.ofNat 32 (code * 2 ^ 24 + v % 2 ^ 24)

/-- The wave that a wave handle names on a die (R240). -/
def State.waveAt (s : State) (die h : Nat) : Option (Nat × Wave) :=
  if h < 2 ^ 12 ∧ h % 64 < 47 then
    let key := waveKey die (h % 64) (bits h 6 2) (bits h 8 4)
    (s.seated? key).map fun w => (key, w)
  else none

/-- The workgroup that a workgroup handle names on a die (R240). -/
def State.wgAt (s : State) (die h : Nat) : Option (Nat × Workgroup) :=
  if h < 2 ^ 12 ∧ h % 64 < 47 then s.wgs.find? fun g => g.2.slot == h / 64 && g.2.cores.head? == some (die * 48 + h % 64) else none

/-- The handle of a workgroup (R240). -/
def Workgroup.handle (g : Workgroup) : Nat := g.slot * 64 + g.cores.headD 0 % 48

/-- The die on which an operation executes. -/
def Op.die (o : Op) : Nat := o.core / 48
/-- A pair of words of an operation's entry. -/
def Op.entry2 (o : Op) (k : Nat) : Nat := (o.entry k).toNat + 2 ^ 32 * (o.entry (k + 1)).toNat

/-- An operation of the firmware ends with a status (R241). -/
def State.status (s : State) (id code : Nat) (v : Nat := 0) : State := s.modOp id fun o => o.finishAll [statusWord code v] 0

/-- The common course of the privileged operations: run-wide operands are captured at the issue, and the operation is
performed later. -/
def sysOp (c : Ctl) (i : Instr) (d : Reg) (nd : Nat) (srcs : List Reg) (s : State) : Host.Outcome State Fault Refusal :=
  laterOp c i (dstGroup d nd) s (fun x => srcs.map fun r => Row.splat (x.v r x.low)) (fun _ => 0) (fun _ => none) fun _ _ t => t

/-! ### HALT and RTE (R248, R249) -/

/-- HALT (R248). -/
def execHalt (c : Ctl) (d a : Reg) (s : State) : Host.Outcome State Fault Refusal := sysOp c (.halt c d a) d 1 [a] s

/-- A HALT performed: the wave stops now, or at its next clause start; the status waits for the stop. -/
def State.performHalt (s0 : State) (id : Nat) (o : Op) : State :=
  let s := s0.freeGone
  match s.waveAt o.die (o.entry 0).toNat with
  | none => s.status id 1
  | some (key, w) =>
    if o.aux ≠ 0 ∧ o.aux ≠ w.gen + 1 then s.status id 1
    else
      match w.stop with
      | .running =>
        if w.clause.isNone then ((s.setWave key { w with stop := .halted, haltReq := false, active := false }).raiseEv o.die 1).status id 0
        else (s.setWave key { w with haltReq := true }).modOp id fun o => { o with aux := w.gen + 1 }
      | .halted => s.status id (if o.aux = 0 then 2 else 0)
      | _ => (s.setWave key { w with haltReq := false }).status id 2

/-- RTE (R249). -/
def execRte (c : Ctl) (act : RteAct) (d a : Reg) (s : State) : Host.Outcome State Fault Refusal := sysOp c (.rte c act d a) d 1 [a] s

/-- An RTE performed: the return from a trap or a HALT (R249). -/
def State.performRte (s : State) (id : Nat) (o : Op) (act : RteAct) : State :=
  match s.waveAt o.die (o.entry 0).toNat with
  | none => s.status id 1
  | some (key, w) =>
    let frozen := match s.wg? w.wg with | some g => g.frozen | none => false
    -- a wave of a workgroup that is being saved goes on with it (R251, R360)
    let run := fun (w : Wave) => ((s.setWave key (if frozen then { w.suspend with stop := .agent } else w.resume s.tick)).recheckBars w.wg).status id 0
    let kill := (s.killLaunch (match s.wg? w.wg with | some g => g.node | none => 0) 2).status id 0
    match w.stop, act with
    | .running, _ => s.status id 2
    | .agent, _ => s.status id 2
    | _, .kill => kill
    | .halted, _ => run w
    | .trapCheck, .rep => run w
    | .trapCheck, .skip => s.status id 2
    | .trapSlot, .rep => run w
    | .trapSlot, .skip => match w.clause with | some cl => run (w.endSlot cl) | none => run w

/-! ### DBGRD and DBGWR (R250) -/

/-- DBGRD (R250). -/
def execDbgrd (c : Ctl) (d a b : Reg) (s : State) : Host.Outcome State Fault Refusal := sysOp c (.dbgrd c d a b) d 2 [a, b] s
/-- DBGWR (R250). -/
def execDbgwr (c : Ctl) (d a b r : Reg) (s : State) : Host.Outcome State Fault Refusal := sysOp c (.dbgwr c d a b r) d 1 [a, b, r] s

/-- The wave and register that a DBGRD or DBGWR names, or its status (R250): stopped by a trap or a HALT. -/
def State.dbgTarget (s : State) (o : Op) : Except Nat (Nat × Wave × Nat × Nat) :=
  match s.waveAt o.die (o.entry 0).toNat with
  | none => .error 1
  | some (key, w) =>
    let v := (o.entry 1).toNat
    if 2 ^ 13 ≤ v then .error 3
    else if w.stop = .running ∨ w.stop = .agent then .error 2
    else if v % 256 ≠ 255 ∧ allocated w.nregs ≤ v % 256 then .error 3
    else .ok (key, w, v % 256, v / 256)

/-- A DBGRD performed. -/
def State.performDbgrd (s : State) (id : Nat) (o : Op) : State :=
  match s.dbgTarget o with
  | .error e => s.modOp id fun o => o.finishAll [0, statusWord e 0] 0
  | .ok (_, w, r, L) => s.modOp id fun o => o.finishAll [Row.lane (w.outside r) L, statusWord 0 0] 0

/-- A DBGWR performed: a register that is held without its result is waited for. -/
def State.performDbgwr (s : State) (id : Nat) (o : Op) : State :=
  match s.dbgTarget o with
  | .error e => s.status id e
  | .ok (key, w, r, L) =>
    if r = 255 then s.status id 0
    else if !w.dstReady [r] then s
    else
      let w1 := w.accept r
      let row := Row.merge (LaneMask.single L) (w1.latest r) (Row.splat (o.entry 2))
      let w2 := w1.forget r
      (s.setWave key { w2 with regs := FMap.set w2.regs r row }).status id 0

/-! ### CTXSV and CTXLD (R251) -/

/-- CTXSV (R251). -/
def execCtxsv (c : Ctl) (d a b : Reg) (s : State) : Host.Outcome State Fault Refusal := sysOp c (.ctxsv c d a b) d 1 [a, b, nextReg b 1] s
/-- CTXLD (R251). -/
def execCtxld (c : Ctl) (d a b : Reg) (s : State) : Host.Outcome State Fault Refusal := sysOp c (.ctxld c d a b) d 1 [a, b, nextReg b 1] s

/-- A frame address is a multiple of 192 in device memory (R251). -/
def State.frameAddr (s : State) (a : Nat) : Bool := a % 192 == 0 && (match s.backing a with | .dev _ => true | _ => false)

/-- A CTXSV performed (R251, R265): the gang stops, and is saved once what was under way is over. -/
def State.performCtxsv (s : State) (id : Nat) (o : Op) : State :=
  let addr := o.entry2 1
  let go := fun (t : State) (gang : Nat) =>
    let ws := t.residentOf gang
    if ws.isEmpty then t.status id 1
    else if !(ws.all fun w => t.settled w.1) then t
    else
      let u := t.saveGang gang addr 3 none
      u.status id 0 (((u.gangFrames gang).map fun f => f.2.length).foldl (· + ·) 0 / 192)
  if o.aux ≠ 0 then go s (o.aux - 1)
  else if !s.frameAddr addr then s.status id 3
  else
    match s.wgAt o.die (o.entry 0).toNat with
    | none => s.status id 1
    | some (_, g) =>
      if (s.residentOf g.gang).any fun w => w.2.frozen then s.status id 2
      else
        let s1 := (s.residentOf g.gang).foldl (fun t w => t.freezeWg w.1) s
        go (s1.modOp id fun o => { o with aux := g.gang + 1 }) g.gang

/-- A saved frame's bytes stand at their home as the device wrote them. -/
def State.frameIntact (s : State) (a : Nat) (f : Frame) : Bool :=
  !f.torn && (s.dies.all fun d => d.2.l2.all fun x => !(decide (a ≤ secAddr x.1) && decide (secAddr x.1 < a + f.length)) || x.2.data == s.rawSector x.1)

/-- A CTXLD performed (R251, R265, R363): the gang whose first frame stands at the address is restored on this die. A sealed frame whose bytes
another write has changed fails authentication (log 109). -/
def State.performCtxld (s : State) (id : Nat) (o : Op) : State :=
  let addr := o.entry2 1
  if (o.entry 0) ≠ 0 ∨ !s.frameAddr addr then s.status id 3
  else
    match FMap.get? s.frames addr with
    | none => s.status id 3
    | some f =>
      let s0 := s.freeGone
      match s0.node? f.wg.node with
      | none => s.status id 3
      | some n =>
        match n.kernel, (s0.gangFrames f.wg.gang).head? with
        | some k, some (a0, _) =>
          if a0 ≠ addr then s.status id 3
          else if (s0.gangFrames f.wg.gang).any fun x => x.2.sealed && !s0.frameIntact x.1 x.2 then s.status id 4
          else
            match s0.restoreOn f.wg.node n k f.wg.gang o.die with
            | none => s.status id 2
            | some sets =>
              let t := s0.restoreGang f.wg.gang o.die n k sets
              t.status id 0 (match t.wg? f.id with | some g => g.handle | none => 0)
        | _, _ => s.status id 3

/-! ### TINV and PRSRS (R252, R253) -/

/-- TINV (R252). -/
def execTinv (c : Ctl) (d a : Reg) (s : State) : Host.Outcome State Fault Refusal :=
  sysOp c (.tinv c d a) d 1 [a, nextReg a 1, nextReg a 2, nextReg a 3] s
/-- PRSRS (R253). -/
def execPrsrs (c : Ctl) (act : ResAct) (d a : Reg) (s : State) : Host.Outcome State Fault Refusal :=
  sysOp c (.prsrs c act d a) d 1 [a, nextReg a 1, nextReg a 2, nextReg a 3] s

/-- Every TLB and walk cache of the package without the entries that `p` selects (R252, R369). -/
def State.dropTlb (s : State) (p : TlbEntry → Bool) : State :=
  { s with dies := s.dies.map fun d => (d.1, { d.2 with tlb := d.2.tlb.filter (fun e => !p e), walks := d.2.walks.filter fun w => !p w.2 }),
           cores := s.cores.map fun c => (c.1, { c.2 with tlb := c.2.tlb.filter fun e => !p e }) }

/-- The entries a TINV drops, of mappings and of table entries (R252, R369): a combined entry is built on every stage-2 page it names (R370). -/
def tinvDrops (kind vmid asid lo n : Nat) (e : TlbEntry) : Bool :=
  let st1 := e.vmid == vmid && e.asid == asid && e.stage != 1
  match kind with
  | 0 => true
  | 1 => e.vmid == vmid
  | 3 => st1 && meets e.base e.size lo n
  | 4 => e.vmid == vmid && ((e.stage == 1 && meets e.base e.size lo n) || (e.via.any fun v => meets v.1 v.2 lo n))
  | _ => st1

/-- A TINV performed (R252, R371). -/
def State.performTinv (s : State) (id : Nat) (o : Op) : State :=
  let v := (o.entry 0).toNat
  let kind := v % 16
  let vmid := bits v 16 12
  let asid := (o.entry 1).toNat % 2 ^ 16
  let count := (o.entry 1).toNat / 2 ^ 16
  let lo := o.entry2 2 / pageBytes * pageBytes
  if 5 < kind ∨ bits v 4 12 ≠ 0 ∨ bits v 28 4 ≠ 0 ∨ ((kind = 3 ∨ kind = 4) ∧ count = 0) then s.status id 3
  else
    let s1 := s.dropTlb (tinvDrops kind vmid asid lo (count * pageBytes))
    let s2 := if kind = 5 then { s1 with asids := FMap.erase s1.asids (vmid * 65536 + asid) } else s1
    s2.status id 0

/-- A PRSRS performed (R253): as a resolution on this die. -/
def State.performPrsrs (s : State) (id : Nat) (o : Op) (act : ResAct) : State :=
  let w2 := (o.entry 2).toNat
  let w3 := (o.entry 3).toNat
  if 2 ^ 16 ≤ w2 ∨ bits w3 12 4 ≠ 0 ∨ bits w3 17 15 ≠ 0 then s.status id 3
  else
    match s.resolveWith o.die (w3 % 2 ^ 12) w2 (bits w3 16 1) (o.entry2 0 / pageBytes) act 0 0 with
    | (none, t) => t.status id 1
    | (some n, t) => t.status id 0 n

/-! ### TCKT, KEYLD, SCRUB (R254 to R256) -/

/-- TCKT (R254). -/
def execTckt (c : Ctl) (clr : Bool) (d a b : Reg) (s : State) : Host.Outcome State Fault Refusal :=
  sysOp c (.tckt c clr d a b) d 1 [a, b, nextReg b 1] s
/-- KEYLD (R255). -/
def execKeyld (c : Ctl) (d a b : Reg) (s : State) : Host.Outcome State Fault Refusal := sysOp c (.keyld c d a b) d 1 [a, b, nextReg b 1] s
/-- SCRUB (R256). -/
def execScrub (c : Ctl) (tgt : ScrubTgt) (d a b : Reg) (s : State) : Host.Outcome State Fault Refusal :=
  sysOp c (.scrub c tgt d a b) d 1 [a, b, nextReg b 1] s

/-- A TCKT performed. -/
def State.performTckt (s : State) (id : Nat) (o : Op) (clr : Bool) : State :=
  let v := o.entry2 1
  match s.wgAt o.die (o.entry 0).toNat with
  | none => s.status id 1
  | some (_, g) =>
    if !clr && v == 0 then s.status id 3
    else ((s.residentOf g.gang).foldl (fun t w => t.modWg w.1 fun x => { x with ticket := if clr then 0 else BitVec.ofNat 64 v }) s).status id 0

/-- The wrapped key that stands at an address, and whose it is (R412). -/
def State.wrapAt (s : State) (addr : Nat) : Option (Nat × List Byte) := s.keyWraps.find? fun k => Config.wrapAddr k.1 == addr
/-- The wrapped key of a slot, loaded from its address, no longer waits for the die's firmware; with the last one, the controller has no message
left (R246, R412). -/
def State.tookKey (s : State) (die kind slot addr : Nat) : State :=
  match s.wrapAt addr with
  | some (k, _) =>
    if k = (die * 2 + kind) * 64 + slot then
      let left := FMap.erase s.keyWraps k
      { s with keyWraps := left }.modDie die fun d => { d with mbxWaits := left.any fun k => k.1 / 128 == die }
    else s
  | none => s

/-- A KEYLD performed (R255, R412, R413): a wrapped key whose last 16 bytes are not zero does not unwrap (DEDUCED, log 73). -/
def State.performKeyld (s : State) (id : Nat) (o : Op) : State :=
  let v := (o.entry 0).toNat
  let slot := v % 64
  let kind := bits v 8 4
  let addr := o.entry2 1
  if v / 64 % 4 ≠ 0 ∨ 2 ^ 12 ≤ v ∨ 2 < kind ∨ addr % 64 ≠ 0 ∨ !hasKeySlot o.die kind slot then s.status id 3
  else
    let b := match s.wrapAt (addr % 2 ^ 52) with | some w => w.2 | none => s.homeRead (addr % 2 ^ 52) 64
    match Config.keyUnwrap o.die (b.take 40) with
    | none => s.status id 4
    | some key =>
      if (b.drop 48).any (· != 0) then s.status id 4
      else
        (if kind = 2 then s.modDie o.die fun d => { d with frameKeys := FMap.set d.frameKeys slot key }
         else
           let new := (FMap.getD (s.die o.die).keys (kind * 64 + slot) KeySlot.empty).load (field b 40 8, key)
           (s.modDie o.die fun d => { d with keys := FMap.set d.keys (kind * 64 + slot) new }).tookKey o.die kind slot (addr % 2 ^ 52)).status id 0

/-- Every scratchpad line of a workgroup zero and EMPTY (R256). -/
def Workgroup.emptied (g : Workgroup) : Workgroup :=
  { g with sp := g.cores.zipIdx.flatMap fun c => (List.range (g.size c.2 / 128)).map fun i => (c.2 * 2 ^ 20 + i, ⟨.empty, List.replicate 128 0⟩) }

/-- A range of physical memory zero at its home, every copy discarded (R256). -/
def State.scrubMem (s : State) (a n : Nat) : State :=
  let inside := fun (pa : Nat) => decide (a ≤ pa) && decide (pa < a + n)
  let hostIn := fun (h : Nat) => s.runs.any fun r => decide (r.hb ≤ h) && decide (h < r.hb + r.len) && inside (14 * 2 ^ 48 + r.db + (h - r.hb))
  { s.dropCopies a n with
           mem := s.mem.filter (fun c => !inside c.1), hostMem := s.hostMem.filter (fun c => !hostIn c.1),
           hostCopies := s.hostCopies.filter (fun l => !inside (l * 192)),
           frames := s.frames.filter (fun f => !meets f.1 f.2.length a n) }

/-- A SCRUB performed (R256). -/
def State.performScrub (s : State) (id : Nat) (o : Op) (tgt : ScrubTgt) : State :=
  match tgt with
  | .mem =>
    let n := (o.entry 0).toNat
    let a := o.entry2 1
    if n % 192 ≠ 0 ∨ a % 192 ≠ 0 then s.status id 3 else (s.scrubMem a n).status id 0
  | _ =>
    match s.wgAt o.die (o.entry 0).toNat with
    | none => s.status id 1
    | some (n, g) =>
      if g.waves.any fun k => match s.wave? k with | some w => w.stop == .running | none => false then s.status id 2
      else if tgt = .sp then (s.modWg n Workgroup.emptied).status id 0
      else (g.cores.foldl (fun t c => t.zeroAcc c g.acc0 g.accN) s).status id 0

/-! ### IDLE and FWSIG (R245, R257) -/

/-- IDLE (R245). -/
def execIdle (c : Ctl) (d : Reg) (s : State) : Host.Outcome State Fault Refusal := sysOp c (.idle c d) d 1 [] s
/-- An IDLE ends once an event is pending and unmasked (R245, R247). -/
def State.performIdle (s : State) (id : Nat) (o : Op) : State :=
  let d := (s.die o.die).settle
  let v := d.evPend &&& d.evMask
  if v = 0 then s else s.modOp id fun o => o.finishAll [v] 0

/-- FWSIG (R257). -/
def execFwsig (c : Ctl) (d a : Reg) (s : State) : Host.Outcome State Fault Refusal := sysOp c (.fwsig c d a) d 1 [a, nextReg a 1] s

/-- Bytes of an ML-DSA-65 signature. -/
def sigBytes : Nat := 3309

/-- A FWSIG performed (R257). -/
def State.performFwsig (s : State) (id : Nat) (o : Op) : State :=
  let addr := o.entry2 0
  let b := s.homeRead addr 192
  let len := field b 8 8
  if addr % 192 ≠ 0 ∨ len = 0 ∨ 2 ^ 32 < len ∨ (((b.drop 28).take 36) ++ b.drop 128).any (· != 0) then s.status id 3
  else
    match Config.verifyKey (field b 24 4) with
    | none => s.status id 5
    | some key =>
      let digest := fitBytes 64 (Config.shake256 (s.homeRead (field b 0 8) len))
      let ok := Config.mldsaVerify key digest (s.homeRead (field b 16 8) sigBytes)
      (s.homeWrite (addr + 64) digest).status id (if ok then 0 else 4)

end Sys2Proof.Machine
end

