-- ==== Sys2Proof/Machine/Units.lean ====
section
/-! DEFINITION. Firmware units, their images and the compatibility manifest (spec/25, R405, R406, R422 to R424). -/

namespace Sys2Proof.Machine

/-- How many units a kind has (R405). -/
def unitCount (kind : Nat) : Nat := match kind with | 1 => 24 | 2 => 1 | 3 => 1 | 4 => 4 | 5 => 24 | _ => 0
/-- Every unit: kind and index. -/
def allUnits : List (Nat × Nat) := ([1, 2, 3, 4, 5] : List Nat).flatMap fun k => (List.range (unitCount k)).map fun i => (k, i)
/-- A unit (R406). -/
def State.unit (s : State) (kind idx : Nat) : Unit := FMap.getD s.units (kind * 32 + idx) Unit.reset
/-- The state with a unit changed. -/
def State.modUnit (s : State) (kind idx : Nat) (f : Unit → Unit) : State :=
  { s with units := FMap.set s.units (kind * 32 + idx) (f (s.unit kind idx)) }

/-! ### The firmware of a die (R239, R405, R441) -/

/-- A privileged wave at a clause address (R239). It has v0 to v254 (R439); its registers and flags are zero (DESIGN CHOICE, log 101); the number 1024
names no context (R342), and 0 no workgroup. -/
def firmwareWave (tick : Nat) (entry : BitVec 52) : Wave :=
  { priv := true, ctx := 1024, wg := 0, index := 0, nregs := 255,
    pct := laneNums.map fun _ => ⟨false, false, 0, entry, 0⟩, regs := [], holds := [], flags := List.replicate 12 0, wstat := 0,
    clause := none, counters := List.replicate 4 [], push := List.replicate 8 [], pop := List.replicate 8 [], ovf := false, heldRx := [],
    gen := 0, stop := .running, haltReq := false, active := true, starts := 0, lastIssue := tick, waitSince := tick, pend := [], waits := [],
    locks := [], cvWait := [], zeroFetch := none }

/-- The key of the wave of a die's firmware: core 47 (R15, R405). -/
def firmwareKey (die : Nat) : Nat := waveKey die Config.firmwareCore 0 0

/-- The firmware wave of a die is stopped by a trap of its own (R441). -/
def State.firmwareTrapped (s : State) (die : Nat) : Bool :=
  match s.wave? (firmwareKey die) with | some w => w.stop == .trapCheck || w.stop == .trapSlot | none => false

/-- The firmware of a die starts (R239, R425, R429): its wave stands at its entry, and serves. -/
def State.startFirmware (s : State) (die : Nat) : State :=
  let old := firmwareKey die
  ({ s with ops := s.ops.filter (fun (o : Nat × Op) => o.2.wave != old),
            waves := FMap.set s.waves old (firmwareWave s.tick (Config.firmwareEntry die)) } : State).modDie die fun d => { d with fwHeld := false }

/-- The slot of a unit by its name. -/
def Unit.slot (u : Unit) (b : Bool) : ImageSlot := if b then u.slotB else u.slotA
/-- The unit with a slot replaced. -/
def Unit.setSlot (u : Unit) (b : Bool) (x : ImageSlot) : Unit := if b then { u with slotB := x } else { u with slotA := x }
/-- What the CRC of a copy covers: every other part of it; their places are not stated (DESIGN CHOICE, log 122). -/
def HandCopy.bytes (c : HandCopy) : List Byte :=
  leBytes 4 c.format ++ leBytes 4 c.kind ++ leBytes 4 c.idx ++ leBytes 4 c.fromV ++ leBytes 4 c.toV ++ leBytes 8 c.seq ++ leBytes 4 c.len ++ c.sections
/-- The CRC of a copy is right. -/
def HandCopy.good (c : HandCopy) : Bool := c.crc == (crc32c c.bytes).toNat
/-- The state of a press (R426). -/
def Press.facts (p : Press) : List Nat :=
  [p.cmap, p.init.toNat, p.loaded.toNat, p.gen, p.cur, p.next, p.writing.toNat] ++ p.ext ++ p.regs.map BitVec.toNat ++ p.shadow.map BitVec.toNat ++
    p.map.flatMap (fun g => [g.1, g.2]) ++ p.tiles.flatMap fun t => [t.1, t.2.gen, t.2.wg.getD 0] ++ t.2.granules
/-- A stage of a node as a number. -/
def NodeStage.num : NodeStage → Nat | .waiting => 0 | .eligible => 1 | .running => 2 | .ending => 3 | .complete => 4
/-- What a unit owns that the sections of its record hold (R426): the ready pool and live nodes with their counters and presses, each queue's `RDPTR`
and copy in force; port states, key epochs, sequence numbers of the links and from end to end, and how full the replay buffers are; `TRB_TAIL`, held
records, pending imports, and the bindings of sessions and tickets. -/
def State.handFacts (s : State) (kind idx : Nat) : List Nat :=
  match kind with
  | 1 => let d := s.die idx
         [d.trbTail, d.heldTraps.length] ++ d.heldTraps.map leNat ++ d.imports.flatMap (fun i => [i.1, i.2.1, i.2.2.1, i.2.2.2.1, i.2.2.2.2]) ++
           s.sessions.flatMap (fun x => x.1 :: x.2.ctxs) ++ (s.wgs.filter fun g => g.2.die == idx).flatMap fun g => [g.1, g.2.ticket.toNat]
  | 3 => (s.ctxs.flatMap fun c => c.2.queues.flatMap fun q => [q.rd, q.wc, match q.qcb with | some b => b.seq | none => 0]) ++
         s.nodes.flatMap fun n => [n.1, n.2.stage.num, n.2.order, n.2.nextWg, n.2.retired] ++ n.2.again ++
           (match n.2.press with | some p => p.facts | none => [])
  | 4 => (((s.ports.drop (12 * idx)).take 12).flatMap fun p => [p.up.toNat, p.spare.toNat, p.peer, p.epoch] ++ p.txSeq ++ p.rxSeq ++ p.replay.map List.length) ++
         (s.eseqTx ++ s.eseqRx ++ s.eseqAck).flatMap fun e => [e.1, e.2]
  | _ => []
/-- A copy of the hand-over record of a unit, with a `SEQ` (R426). -/
def State.handCopy (s : State) (kind idx fromV toV seq : Nat) : HandCopy :=
  let secs := Config.handSections kind fromV toV (s.handFacts kind idx)
  let c : HandCopy := ⟨seq, fromV, toV, kind, idx, 1, secs.length, secs, 0⟩
  { c with crc := (crc32c c.bytes).toNat }
/-- A copy of the hand-over record, `mk` of its `SEQ`, written over the one that is not in force, with the next `SEQ`, and committed or not (R426). -/
def Unit.handOver (u : Unit) (commits : Bool) (mk : Nat → HandCopy) : Unit :=
  let c := mk (u.commit + 1)
  let u1 := if u.handA.any fun x => x.seq == u.commit then { u with handB := some c } else { u with handA := some c }
  if commits then { u1 with commit := u.commit + 1 } else u1
/-- The copy of the record that an image reads: the one whose `SEQ` matches the commit word and whose CRC is right (R426). -/
def Unit.inForce (u : Unit) : Option HandCopy := ([u.handA, u.handB].filterMap id).find? fun c => c.seq == u.commit && c.good
/-- The image a unit runs; `none` is its ROM image. -/
def Unit.running (u : Unit) : Option Image := if u.rom then none else (u.slot u.activeB).img
/-- The version of an image of a kind, `none` standing for ROM. -/
def imageVersion (kind : Nat) (i : Option Image) : Nat := match i with | some x => x.version | none => Config.romVersion kind
/-- The version of the image that a unit runs. -/
def State.version (s : State) (kind idx : Nat) : Nat := imageVersion kind (s.unit kind idx).running

/-- A mixture: the version of every unit. -/
abbrev Mixture := Nat → Nat → Nat
/-- The mixture that runs. -/
def State.mixture (s : State) : Mixture := s.version
/-- A mixture with one unit's version replaced. -/
def Mixture.put (m : Mixture) (kind idx v : Nat) : Mixture := fun k i => if k = kind ∧ i = idx then v else m k i

/-- A manifest entry admits a version of a unit among the others of a mixture (R423): each other kind's versions lie in the range
that the entry names for it. -/
def entryAdmits (e : ManifestEntry) (m : Mixture) (kind idx : Nat) : Bool :=
  e.kind == kind && decide (e.lo ≤ m kind idx) && decide (m kind idx ≤ e.hi) &&
  (allUnits.all fun u => u.1 == kind || e.works.any fun w => w.1 == u.1 && decide (w.2.1 ≤ m u.1 u.2) && decide (m u.1 u.2 ≤ w.2.2))
/-- A manifest admits a mixture (R423), or admits it to leave reset. -/
def manifestAdmits (mf : Manifest) (m : Mixture) (boot : Bool) : Bool :=
  allUnits.all fun u => mf.entries.any fun e => entryAdmits e m u.1 u.2 && (!boot || e.boot)
/-- A manifest admits an image version somewhere (R422). -/
def manifestNames (mf : Manifest) (kind v : Nat) : Bool := mf.entries.any fun e => e.kind == kind && decide (e.lo ≤ v) && decide (v ≤ e.hi)
/-- The mixture of a state is admitted; without a manifest only the ROM images are (log 31). -/
def State.admitted (s : State) (m : Mixture) (boot : Bool) : Bool :=
  match s.manifest with
  | some mf => manifestAdmits mf m boot
  | none => allUnits.all fun u => m u.1 u.2 == Config.romVersion u.1
/-- The manifest in force knows a version of a kind. -/
def State.named (s : State) (kind v : Nat) : Bool :=
  match s.manifest with | some mf => manifestNames mf kind v | none => v == Config.romVersion kind
/-- The security floor of a kind in force (R424): the fuses'. -/
def State.floorOf (s : State) (kind : Nat) : Nat := s.floors.getD (kind - 1) 0

/-- The bytes of a manifest, which its signature and its digest cover (R417, R423): what takes effect, and what else it carries. -/
def manifestImage (m : Manifest) : List Byte := Config.manifestBytes m.version m.floors m.entries m.deadline ++ m.body

/-- The bytes of an image's header (R422). -/
def imageHeader (i : Image) : List Byte :=
  leBytes 4 i.kind ++ leBytes 4 i.cmdVersion ++ leBytes 4 i.version ++ leBytes 4 i.security ++ leBytes 4 i.body.length ++ List.replicate 172 0
/-- The digest of an image (R417, R422). -/
def imageDigest (i : Image) : List Byte := fitBytes 64 (Config.shake256 (imageHeader i ++ i.body))
/-- An image's signature verifies (R257, R422), under the key of the image slot's signer. -/
def imageSigned (i : Image) : Bool := Config.mldsaVerify Config.imageKey (imageDigest i) i.signature

end Sys2Proof.Machine
end

