-- ==== Sys2Proof/Machine/Fabric.lean ====
section
/-! DEFINITION. Ports, flits, caches and host accesses, and hot rows (spec/24, R388 to R404; R282 to R284, R323, R413, R414, R432). -/

namespace Sys2Proof.Machine

/-! ### The link layer (R392, R393) -/

/-- A port changed. -/
def State.modPort (s : State) (k : Nat) (f : Port → Port) : State := { s with ports := modAt s.ports k f }
/-- The port. -/
def State.port (s : State) (k : Nat) : Port := s.ports.getD k Port.reset

/-- A kind the layout lists (R392). -/
def validKind (k : Nat) : Bool :=
  (([0x01, 0x02, 0x03, 0x04, 0x05, 0x06, 0x10, 0x11, 0x12, 0x13, 0x14, 0x15, 0x20] : List Nat).contains k) || (decide (0x30 ≤ k) && decide (k ≤ 0x3F))

/-- The distance from a sequence number up to another, modulo 2^16. -/
def seqDist (a b : Nat) : Nat := (b + 65536 - a % 65536) % 65536

/-- Flits covered by a cumulative acknowledgement leave the replay buffer (R393). -/
def State.ackReplay (s : State) (k cls ack : Nat) : State :=
  s.modPort k fun p =>
    let left := modAt p.replay cls fun m => m.filter fun f => decide (32768 ≤ seqDist f.1 ack)
    { p with replay := left, timeouts := if left = p.replay then p.timeouts else 0 }

/-- An idle flit that carries the acknowledgement of a class (R392, R393); it also names the first missing flit (log 32). -/
def State.idleFlit (s : State) (k cls : Nat) : State :=
  let p := s.port k
  let b : FlitBody := { cls := cls, kind := 0x20, dst := p.peer, srcCtx := 0, dstCtx := 0, window := 0, offset := 0, pay := [], mask := [] }
  s.wire k (flitPlain b s.pkg none 0) (p.txSeq.getD cls 0) cls

/-- Unacknowledged flits of a class from a number on, oldest first, go again (R393): they stand first in the port's queue. -/
def State.goBack (s : State) (k cls seq : Nat) : State :=
  let p := s.port k
  let fs := sortBy (fun a b => decide (seqDist seq a.1 ≤ seqDist seq b.1)) ((p.replay.getD cls []).filter fun f => decide (seqDist seq f.1 < 32768))
  let q := fs.map fun f => (cls, f.1, f.2)
  s.modPort k fun p => { p with queue := q ++ p.queue.filter fun f => !q.contains f }

/-- The oldest unacknowledged number of a class. -/
def Port.oldest (p : Port) (cls : Nat) : Option Nat :=
  (p.replay.getD cls []).foldl (fun a f => match a with
    | some x => if seqDist f.1 (p.txSeq.getD cls 0) > seqDist x (p.txSeq.getD cls 0) then some f.1 else some x
    | none => some f.1) none

/-- A flow that was on a port out of service goes by the port that flits of it have taken since, or by a new one (R391). -/
def State.newRoute (s : State) (cls src dst : Nat) (sealedOnly mayDetour : Bool) : Option (Nat × Option Nat) :=
  match FMap.get? s.flows (flowOf cls src dst) with
  | some r => s.takes cls r sealedOnly
  | none => s.choose cls src dst sealedOnly mayDetour

/-- The detour fields of a flit in clear rewritten; one that makes its detour here keeps them (R390). -/
def State.setVia (s : State) (plain : List Byte) (via : Option Nat) : List Byte :=
  let r := leNat ((plain.drop 224).take 8)
  let base := r % 2 ^ 16 + r / 2 ^ 25 * 2 ^ 25
  if (flowFields plain).2.2 = some s.pkg then plain
  else plain.take 224 ++ leBytes 8 (base + match via with | some x => x * 2 ^ 16 + 2 ^ 24 | none => 0)

/-- The `ESEQ` of a flit in clear (R392). -/
def eseqOf (plain : List Byte) : Nat := bits (leNat ((plain.drop 224).take 8)) 45 16
/-- Flits of one class in the order of their flows, and within a flow in the order in which they were sent. -/
def byFlow (l : List (Nat × Nat × List Byte)) : List (Nat × Nat × List Byte) :=
  let num := fun (f : Nat × Nat × List Byte) => flowOf 0 (routeOf f).1 (routeOf f).2
  sortBy (fun a b => decide (num a < num b) || (num a == num b && decide (seqDist (eseqOf a.2.2) (eseqOf b.2.2) < 32768))) l
/-- The unacknowledged flits of a class that stand on ports out of service: port, `SEQ` and flit. -/
def State.downFlits (s : State) (cls : Nat) : List (Nat × Nat × List Byte) :=
  byFlow ((List.range 48).flatMap fun k => if (s.port k).up then [] else ((s.port k).replay.getD cls []).map fun f => (k, f.1, f.2))

/-- Those flits go out again where a port takes them, each flow's in its order: after one that no port takes, the later ones of its flow wait too
(R391). -/
def State.resendFrom (s : State) (cls : Nat) : State :=
  ((s.downFlits cls).foldl (fun (a : State × List (Nat × Nat)) f =>
    let t := a.1
    let (src, dst, was) := flowFields f.2.2
    if a.2.contains (src, dst) then a
    else
      match t.newRoute cls src dst (t.port f.1).sealPolicy (was != some t.pkg) with
      | some (j, via) =>
        ((t.modPort f.1 fun p => { p with replay := modAt p.replay cls fun m => FMap.erase m f.2.1 }).emitFlit j cls (t.setVia f.2.2 via), a.2)
      | none => (t, a.2 ++ [(src, dst)])) (s, [])).1
/-- Every flit that waits on a port out of service is tried again, management flits first (R393). -/
def State.resendDown (s : State) : State := (s.resendFrom 2).resendFrom 0

/-- Requests that waited at the source, each after those before it to its package (R292, R294). -/
def State.resendReqs (s : State) : State :=
  (s.fabricReqs.foldl (fun (a : State × List Nat) r =>
    if r.2.sent || r.2.pkg == a.1.pkg || a.2.contains r.2.pkg then a
    else
      match a.1.sendFlit (accessFlit r.2.acc r.2.pkg r.2.ctx) r.2.acc.prot with
      | some u => ({ u with fabricReqs := u.fabricReqs.map fun x => if x.1 = r.1 then (x.1, { x.2 with sent := true }) else x }, a.2)
      | none => (a.1, a.2 ++ [r.2.pkg])) (s, [])).1

/-- What stands on ports out of service, and then answers, requests and headers that waited at the source for a port, are sent (R391). -/
def State.resendWaiting (s : State) : State := s.resendDown.resendFlits.resendReqs.sendHeaders

/-- NACK_RECEIVE (R393): it acknowledges what stands before the missing flit, and the sender goes back to that one; what waited for
room then follows. -/
def execNackReceive (port cls seq : Nat) (s : State) : Host.Outcome State Fault Refusal :=
  if cls = 1 ∨ 2 < cls ∨ !(s.port port).up then .next s
  else .next ((s.ackReplay port cls ((seq + 65535) % 65536)).goBack port cls seq).resendWaiting

/-- REPLAY_TIMEOUT (R389, R393). -/
def execReplayTimeout (port cls : Nat) (s : State) : Host.Outcome State Fault Refusal :=
  if !(s.port port).up then .next s
  else
    match (s.port port).oldest cls with
    | some q => .next ((s.goBack port cls q).modPort port fun p => { p with timeouts := p.timeouts + 1 })
    | none => .next s

/-- ACK_INTERVAL (R393): a slot of the port comes, and the next queued flit leaves in it; an acknowledgement of the class that is still owed then
goes in an idle flit (log 65). -/
def execAckInterval (port cls : Nat) (s : State) : Host.Outcome State Fault Refusal :=
  let t := s.sendSlot port
  .next (if (t.port port).up && (t.port port).ackOwed.getD cls false then t.idleFlit port cls else t)

/-! ### Failing and training (R388 to R391, R394, R414, R432) -/

/-- A port leaves service (R389): counted; where it was a working one, a spare of the same peer takes its place (R388); its reliable flits go
another way, and the lossy payload of a route that went by it goes no more (R331). -/
def State.failPort (s : State) (k : Nat) : State :=
  let peer := (s.port k).peer
  let s0 := ({ (s.modPort k fun p => { p with up := false, failTimes := [], timeouts := 0, queue := [] }) with
    flows := s.flows.filter fun (f : Nat × Nat × Option Nat) => f.2.1 != k } : State).count 0x11 k
  let s1 : State := { s0 with msgs := s0.msgs.map fun (m : Nat × Msg) => if m.2.port = some k then (m.1, { m.2 with port := none }) else m }
  let s2 := if (s.port k).spare then s1 else match (List.range 48).find? fun j => j != k && (s1.port j).up && (s1.port j).spare && (s1.port j).peer == peer with
    | some j => s1.modPort j fun p => { p with spare := false }
    | none => s1
  s2.resendWaiting

/-- The failed checks of a port within the last millisecond (R389). -/
def State.recentFails (s : State) (p : Port) : List Nat := p.failTimes.filter fun t => decide (s.usec < t + 1000)

/-- PORT_FAIL (R389): its link trained down (cause 0), failed checks (1), or replays that timed out (2). -/
def execPortFail (port cause : Nat) (s : State) : Host.Outcome State Fault Refusal :=
  let p := s.port port
  if p.up && (cause == 0 || (cause == 1 && decide (16 ≤ (s.recentFails p).length)) || (cause == 2 && decide (4 ≤ p.timeouts))) then .next (s.failPort port) else .next s

/-- Working ports that a peer receives (R388). -/
def peerPorts : Nat := 48 / (Config.fabricShape.1 + Config.fabricShape.2 - 2)

/-- LINK_TRAINING (R388, R389, R394, R414, R432): the peer's signature and version are checked, by the manifests of both packages, and a key is
agreed; otherwise the port stays out of service. A CLEAR port trains only where the manifest names it chassis-internal. A SEAL port in service
is rekeyed, or leaves service. -/
def execLinkTraining (port : Nat) (trained : Bool) (peer : Nat) (report : PeerReport) (share sig : List Byte) (s : State) :
    Host.Outcome State Fault Refusal :=
  let p := s.port port
  let known := s.named 4 report.version && report.admits
  if 48 ≤ port ∨ s.minimal ∨ s.powerOff ∨ !trained then .next s
  else if p.up then
    if !p.sealPolicy then .next s
    else if known && Config.mldsaVerify (Config.peerKey peer) share sig then
      .next (s.modPort port fun p => { p with key := Config.portKey port share, txCount := 0, rxCount := 0, epoch := p.epoch + 1 }).resendWaiting
    else .next (s.failPort port)
  else if !(p.sealPolicy || Config.clearPort port) then .next s
  else if !known then .next (s.count 0x11 port)
  else if !Config.mldsaVerify (Config.peerKey peer) share sig then .next s
  else
    let working := ((List.range 48).filter fun k => (s.port k).up && !(s.port k).spare && (s.port k).peer == peer).length
    let old := fun (cls : Nat) => byFlow ((p.replay.getD cls []).map fun f => (port, f.1, f.2))
    let s1 := s.modPort port fun p =>
      { Port.reset with up := true, peer := peer, spare := decide (peerPorts ≤ working), sealPolicy := p.sealPolicy, key := Config.portKey port share, epoch := 1 }
    -- what it had not been acknowledged before goes first (R391), management flits before others (R393)
    let again := fun (t : State) (cls : Nat) => (old cls).foldl (fun t f =>
      let (src, dst, was) := flowFields f.2.2
      match t.newRoute cls src dst p.sealPolicy (was != some t.pkg) with
      | some (j, via) => t.emitFlit j cls (t.setVia f.2.2 via)
      | none => t.emitFlit port cls f.2.2) t
    .next (again (again s1 2) 0).resendWaiting

/-- A key wrapped for a die, with its epoch (R412). -/
def wrapOf (die epoch : Nat) (key : List Byte) : List Byte := fitBytes 40 (Config.keyWrap die key) ++ leBytes 8 epoch ++ List.replicate 16 0

/-! ### Link keys (R412, R413) -/

/-- The keys of a sealed link end (R413): of a compute die; of an IO die, dies 24 to 27 and kind 0; of the base die of stack d, die 24 + d and kind 1. -/
def State.endKeys (s : State) (die kind slot : Nat) : KeySlot :=
  if die < 24 then FMap.getD (s.die die).keys (kind * 64 + slot) KeySlot.empty
  else if kind = 1 then FMap.getD s.baseKeys (die - 24) KeySlot.empty
  else FMap.getD s.ioKeys (die * 128 + slot) KeySlot.empty
/-- Those replaced. -/
def State.setEnd (s : State) (die kind slot : Nat) (k : KeySlot) : State :=
  if die < 24 then s.modDie die fun d => { d with keys := FMap.set d.keys (kind * 64 + slot) k }
  else if kind = 1 then { s with baseKeys := FMap.set s.baseKeys (die - 24) k }
  else { s with ioKeys := FMap.set s.ioKeys (die * 128 + slot) k }

/-- The end over against a link end, under the same numbers. -/
def otherEnd (die kind slot : Nat) : Option (Nat × Nat) := if kind = 1 then some (if die < 24 then die + 24 else die - 24, 0) else farEnd die slot

/-- The next key of a link or memory interface dealt (R412, R413): wrapped for each end that is a die, whose firmware has a message; an IO die's or a
base die's end receives it at once, as its next key. -/
def State.dealLink (s : State) (die kind slot epoch : Nat) : State :=
  let key := Config.keygen s.bootCount s.drawn
  let ends := (die, slot) :: (otherEnd die kind slot).toList
  let s1 : State := { s with drawn := s.drawn + 1 }
  ends.foldl (fun t e =>
    if e.1 < 24 then { t with keyWraps := FMap.set t.keyWraps (e.1 * 128 + kind * 64 + e.2) (wrapOf e.1 epoch key) }.modDie e.1 fun d => { d with mbxWaits := true }.settle
    else t.setEnd e.1 kind e.2 ((t.endKeys e.1 kind e.2).load (epoch, key))) s1

/-- The two ends of a link use one key and nothing waits to be loaded: the link may be rekeyed (R413). -/
def State.linkIdle (s : State) (die kind slot epoch : Nat) : Bool :=
  ((die, slot) :: (otherEnd die kind slot).toList).all fun e =>
    (s.endKeys e.1 kind e.2).nxt.isNone && ((s.endKeys e.1 kind e.2).cur.any fun c => c.1 == epoch) &&
    (FMap.get? s.keyWraps (e.1 * 128 + kind * 64 + e.2)).isNone

/-- KEY_EPOCH_SWITCH (R413): a link end takes its next step towards its next key. Where both ends use one key and none waits, the management controller
deals the next: they rekey before the bound of R394 (log 113). -/
def execKeyEpochSwitch (die kind slot : Nat) (s : State) : Host.Outcome State Fault Refusal :=
  let me := s.endKeys die kind slot
  match otherEnd die kind slot with
  | none => .next s
  | some (d, k) =>
    match me.nxt, me.cur with
    | some _, _ => .next (s.setEnd die kind slot (me.step (s.endKeys d kind k)))
    | none, some c => .next (if s.linkIdle die kind slot c.1 then s.dealLink die kind slot (c.1 + 1) else s)
    | none, none => .next s

/-! ### Arriving flits (R390 to R394) -/

/-- The access that a request flit asks for (R392, R397); of the kind 0x05 the operations 14 and 15 stand for a SWAIT check and a SWAKE (log 9). -/
def Arrived.access (f : Arrived) (flit : List Byte) : FabricAccess :=
  let (size, op, b, n, ntf, key) := Config.requestOfPay f.pay
  let atom := (([AtomOp.add, .smin, .smax, .umin, .umax, .and, .or, .xor, .xchg, .cas, .fadd] : List AtomOp).find? fun o => o.code == op).getD .add
  let base : FabricAccess := { kind := 0, src := f.src, window := f.window, key := key, offset := f.offset, size := size, data := [], mask := [],
                               atomOp := .add, operand := 0, newval := 0, ntf := false, tag := f.eseq, prot := f.sealed, srcCtx := f.srcCtx, dstCtx := 0 }
  match f.kind with
  | 0x01 => base
  | 0x03 => { base with kind := 1, key := Config.writeKey flit, size := 192, data := f.pay, mask := f.mask }
  | _ =>
    if op = 14 then { base with kind := 3, operand := b, newval := n }
    else if op = 15 then { base with kind := 4 }
    else { base with kind := 2, atomOp := atom, operand := b, newval := n, ntf := ntf }

/-- The request of this package that an answer belongs to: the oldest that fits it. -/
def State.answered (s : State) (f : Arrived) : Option Nat :=
  let kind := match f.kind with | 0x02 => 0 | 0x04 => 1 | _ => (f.pay.getD 8 0).toNat
  (s.fabricReqs.find? fun r => r.2.sent && r.2.pkg == f.src && r.2.ctx == f.dstCtx && r.2.acc.kind == kind && r.2.acc.window == f.window && r.2.acc.offset == f.offset).map Prod.fst

/-- A message here by its sender's number. -/
def State.inbound (s : State) (f : Arrived) (num : Nat) : Option Nat :=
  (s.msgs.find? fun m => m.2.srcPkg == f.src && m.2.srcPkg != s.pkg && m.2.num == num && m.2.srcCtx == f.srcCtx).map Prod.fst
/-- A message of this package that another one answers. -/
def State.outbound (s : State) (f : Arrived) : Option (Nat × Msg) :=
  match FMap.get? s.msgs f.offset with
  | some m => if m.srcPkg = s.pkg ∧ m.dstPkg = f.src then some (f.offset, m) else none
  | none => none

/-- A flit that is for this package is performed (R326, R330, R392). -/
def State.deliver (s : State) (f : Arrived) (flit : List Byte) : State :=
  match f.kind with
  | 0x01 => s.arriveAccess (f.access flit)
  | 0x03 => s.arriveAccess (f.access flit)
  | 0x05 => s.arriveAccess (f.access flit)
  | 0x02 => match s.answered f with | some id => s.fabricReturn id f.pay (f.mask.any (fun b => b)) | none => s
  | 0x04 => match s.answered f with | some id => s.fabricReturn id [] (f.mask.any (fun b => b)) | none => s
  | 0x06 => match s.answered f with
    | some id => s.fabricReturn id (f.pay.take (match FMap.get? s.fabricReqs id with | some r => r.acc.size | none => 4)) (f.mask.any (fun b => b))
    | none => s
  | 0x10 =>
    let (tag, len, lossy, num) := Config.headerOfPay f.pay
    let (id, s1) := s.fresh
    { s1 with msgs := FMap.set s1.msgs id (newMsg (f.src, f.srcCtx) (s.pkg, f.dstCtx) tag len lossy none (.flying 0) num f.sealed) }
  | 0x11 => match s.outbound f with | some (id, m) => (match m.snd with | .flying _ => s.acceptHeader id | _ => s) | none => s
  | 0x12 => match s.outbound f with
    | some (id, m) => match m.snd with
      | .flying n => if (Config.blockOfPay f.pay).2 = 0x21 then s.failSend id m 0x21 m.dest else s.refuseHeader id m n
      | _ => s
    | none => s
  | 0x13 => match s.inbound f (f.offset / 16) with | some id => s.arriveBlock id (f.window + 4096 * (f.offset % 16)) f.pay | none => s
  | 0x14 => match s.inbound f f.offset with | some id => s.arriveMarker id | none => s
  | 0x15 => match s.outbound f with | some (id, m) => if m.snd = .marked then s.ackSend id else s | none => s
  | 0x30 => { s with eseqAck := FMap.set s.eseqAck f.src (f.offset % 65536) }
  | _ => s

/-- A flit delivered as the next of its flow. -/
def State.deliverNext (s : State) (f : Arrived) (flit : List Byte) : State :=
  ({ s with eseqRx := FMap.set s.eseqRx (f.cls * 256 + f.src) ((f.eseq + 1) % 65536) } : State).deliver f flit
/-- The flits that wait for their turn in a flow and whose turn comes at `want`, in their order. -/
def inTurn (early : List (Arrived × List Byte)) (cls src : Nat) : Nat → Nat → List (Arrived × List Byte)
  | 0, _ => []
  | fuel + 1, want => match early.find? fun x => x.1.cls == cls && x.1.src == src && x.1.eseq == want with
    | some x => x :: inTurn early cls src fuel ((want + 1) % 65536)
    | none => []
/-- The destination acknowledges a reliable flow to its source: a management flit of kind 0x30, whose offset is the next `ESEQ` expected; a newer
one takes the place of one that waits (R391; log 76). -/
def State.ackFlow (s : State) (src next : Nat) : State :=
  let b : FlitBody := { cls := 2, kind := 0x30, dst := src, srcCtx := 0, dstCtx := 0, window := 0, offset := next, pay := [], mask := [] }
  if src = s.pkg then s
  else ({ s with flitsWait := s.flitsWait.filter fun f => !(f.1.kind == 0x30 && f.1.dst == src) } : State).sendOrWait b false
/-- A flit at its destination (R391): of a reliable or management flow, each exactly once and in order. One ahead of its turn waits for it; one
that is not is a duplicate. What waited for an answer before its flow may change its port follows. -/
def State.deliverOnce (s : State) (f : Arrived) (flit : List Byte) : State :=
  if f.cls = 1 then s.deliverNext f flit
  else
    let want := FMap.getD s.eseqRx (f.cls * 256 + f.src) 0
    if f.eseq = want then
      let later := inTurn s.early f.cls f.src s.early.length ((want + 1) % 65536)
      let s1 := later.foldl (fun t x => t.deliverNext x.1 x.2)
        (({ s with early := s.early.filter fun x => !later.contains x } : State).deliverNext f flit)
      (if f.cls = 0 then s1.ackFlow f.src ((want + 1 + later.length) % 65536) else s1).resendWaiting
    else if seqDist want f.eseq < 32768 && !(s.early.any fun x => x.1.cls == f.cls && x.1.src == f.src && x.1.eseq == f.eseq) then
      { s with early := s.early ++ [(f, flit)] }
    else s

/-- A flit at a port (R390 to R394): checked, acknowledged, and delivered, forwarded or discarded. -/
def State.takeFlit (s : State) (port : Nat) (flit : List Byte) : State :=
  let p := s.port port
  if !p.up || flit.length != 256 || (p.sealPolicy && decide (rekeyBound ≤ p.rxCount)) then s
  else
    let addr := field flit 216 8
    let route := field flit 224 8
    let link := field flit 232 4
    let cls := bits addr 58 2
    let kind := bits addr 52 6
    let seq := link % 65536
    let crcOk := field flit 252 4 == (crc32c (flit.take 252)).toNat
    let pay := if p.sealPolicy then
        Config.gcmOpen p.key (Config.portNonce port false p.rxCount ++ (flit.drop 192).take 44) (flit.take 192) ((flit.drop 236).take 16)
      else some (flit.take 192)
    let s := if p.sealPolicy then s.modPort port fun p => { p with rxCount := p.rxCount + 1 } else s
    match if crcOk then pay else none with
    | none =>
      let s1 := (s.count 0x0B port).modPort port fun p => { p with failTimes := s.recentFails p ++ [s.usec] }
      if cls = 0 ∨ cls = 2 then s1.idleFlit port cls else s1
    | some pay =>
      if cls = 3 then s.count 0x0C (port / 12)
      else
        let s1 := if cls = 1 then s else (s.ackReplay port cls (link / 65536)).resendWaiting
        if kind = 0x20 then s1
        else if cls ≠ 1 ∧ seq ≠ p.rxSeq.getD cls 0 then
          -- a duplicate is acknowledged again; a gap is a NACK
          s1.idleFlit port cls
        else
          let s2 := s1.modPort port fun p =>
            { p with rxSeq := modAt p.rxSeq cls fun _ => (seq + 1) % 65536, ackOwed := modAt p.ackOwed cls fun _ => cls != 1 }
          if !validKind kind then s2.count 0x0C (port / 12)
          else
            let src := route % 256
            let dst := bits route 8 8
            let f : Arrived := { cls := cls, kind := kind, src := src, srcCtx := bits route 25 10, dstCtx := bits route 35 10, eseq := bits route 45 16,
                                 window := bits addr 40 12, offset := bits addr 0 40, pay := pay,
                                 mask := (List.range 192).map fun i => (List.getD flit (192 + i / 8) 0).getLsbD (i % 8),
                                 sealed := p.sealPolicy }
            if dst = s.pkg then s2.deliverOnce f flit
            else
              let mine := route.testBit 24 && bits route 16 8 == s.pkg
              match s2.route cls src dst p.sealPolicy (!mine) with
              | some (k, via) => s2.emitFlit k cls (s2.setVia (pay ++ (flit.drop 192).take 40) via)
              -- no port takes it: a reliable flit overflows, and its sender goes back to it (R393)
              | none => if cls = 1 then s2 else s1.idleFlit port cls

/-- FLIT_RECEIVE (R390 to R394): while the controller of a port switches, what arrives is held (R428). -/
def execFlitReceive (port : Nat) (flit : List Byte) (s : State) : Host.Outcome State Fault Refusal :=
  match s.activation with
  | some a => .next (if a.kind = 4 ∧ a.idx = port / 12 then { s with heldFlits := s.heldFlits ++ [(port, flit)] } else s.takeFlit port flit)
  | none => .next (s.takeFlit port flit)

/-! ### Write combining, evictions, the host's accesses (R282 to R284, R323) -/

/-- WCB_DRAIN (R323): the device may drain an entry at any time. -/
def execWcbDrain (core idx : Nat) (s : State) : Host.Outcome State Fault Refusal :=
  match (s.core core).wcb[idx]? with
  | some e => .next (s.drainEntry core e)
  | none => .next s

/-- EVICTION (R282, R284, R286): a sector leaves a cache, a dirty one to the next level; a pinned line stays in its home L2. -/
def execEviction (at_ : CacheAt) (sector : Nat) (s : State) : Host.Outcome State Fault Refusal :=
  match at_ with
  | .l1 core =>
    match FMap.get? (s.core core).l1 sector with
    | some c =>
      let s1 := s.modCore core fun x => { x with l1 := FMap.erase x.l1 sector }
      .next (if c.dirty then s1.l1Out core sector c.data else s1)
    | none => .next s
  | .l2 die =>
    match FMap.get? (s.die die).l2 sector with
    | some _ =>
      if s.pinned die (secAddr sector) then .next s
      else
        let s1 := if s.home? (secAddr sector) = some die then s.cleanHome sector else s.cleanCopy die sector
        .next (s1.modDie die fun d => { d with l2 := FMap.erase d.l2 sector })
    | none => .next s

/-- HOST_CXL_ACCESS (R283, R306): the host reads or writes device memory at its home L2, and keeps a copy of a line it reads; its
own memory it writes where the host-run table shows it: a dirty device copy is written back first, and the copy shows the new bytes (R290). Both
links have decoders for the same memory (R400); in minimal mode neither has (R430). -/
def execHostCxlAccess (write : Bool) (target : CxlAddr) (data : List Byte) (s : State) : Host.Outcome State Fault Refusal :=
  let addr := target.addr
  if s.minimal ∨ s.powerOff ∨ 2 ≤ target.link then .next s
  else
    match s.backing addr with
    | .dev _ =>
      if write then .next (s.homeWrite addr (s.kept addr data))
      else .next { s with hostCopies := if s.hostCopies.contains (addr / 192) then s.hostCopies else s.hostCopies ++ [addr / 192] }
    | .host _ _ =>
      if write then
        .next ((cutSectors (data.length / 48 + 2) addr data).foldl (fun t p =>
          match t.backing p.1 with | .host _ _ => (t.cleanHome (p.1 / 48)).homeWriteIn p.1 (s.kept p.1 p.2) | _ => t) s)
      else .next s
    | _ => .next s

/-- CXL_CACHE_SNOOP (R283, R290): a dirty home copy of a host sector is written back; then it is dropped, or takes with the host's memory what the
host has written there. -/
def execCxlCacheSnoop (die sector : Nat) (update : Option (List Byte)) (s : State) : Host.Outcome State Fault Refusal :=
  if s.minimal || s.powerOff || !s.hostKey sector || s.home? (secAddr sector) != some die then .next s
  else
    match FMap.get? (s.die die).l2 sector with
    | none => .next s
    | some _ =>
      let s1 := s.cleanHome sector
      match update with
      | some bs =>
        let new := s.kept (secAddr sector) (fitBytes 48 bs)
        let t := s1.putL2 die sector new false
        .next (match t.backing (secAddr sector) with
          | .host _ h => { t with hostMem := Memory.write t.hostMem h new }
          | _ => t)
      | none => .next (s1.modDie die fun d => { d with l2 := FMap.erase d.l2 sector })

/-! ### Hot rows (R404) -/

/-- The row is throttled. -/
def State.hot (s : State) (stack row : Nat) : Bool := s.hotRows.any fun h => h.1 == stack && h.2.row == row

/-- A row has been activated as often as its window's threshold says (R404). Which accesses find a row closed is not stated: to those that the
model counts, a free number of others is added (log 110). -/
def State.rowFull (s : State) (stack row : Nat) : Bool :=
  match FMap.get? s.rowActs (stack * 2 ^ 24 + row) with
  | some w => decide (s.usec < w.start + 32000) && decide (w.hrt ≤ w.count + Config.rowActs s.tick stack row)
  | none => decide (s.hrt.getD stack 4096 ≤ Config.rowActs s.tick stack row)

/-- HOT_ROW_THROTTLE (R404): a row has reached its threshold. -/
def execHotRowThrottle (stack row : Nat) (s : State) : Host.Outcome State Fault Refusal :=
  if 24 ≤ stack ∨ s.hot stack row ∨ !s.rowFull stack row then .next s
  else .next ({ s with hotRows := s.hotRows ++ [(stack, HotRow.mk row [] false none)] }.count 0x10 stack)

/-- A request of a side queue that goes on when its turn comes; of the others, what asked asks again at its own event. -/
def ReqKind.runs : ReqKind → Bool
  | .op _ _ => true | .cmd _ => true | .fabric _ => true | .land _ => true | _ => false

/-- A request of a side queue is still wanted. -/
def State.rowLive (s : State) (who : ReqKind) : Bool :=
  match who with
  | .op o m => match FMap.get? s.ops o with | some x => !x.done && (x.todo &&& m != 0 || x.todo == 0) | none => false
  | .cmd c => (FMap.get? s.cmds c).isSome
  | .fetch w _ _ => (s.wave? w).isSome
  | .land m => (FMap.get? s.msgs m).isSome
  | _ => true

/-- A request of a side queue goes on. -/
def State.rowGo (s : State) (who : ReqKind) : State :=
  match who with
  | .op o _ => match FMap.get? s.ops o with
    | some x => (match x.instr with | .spawn .. => s.performSpawn o x | _ => s.attempt o)
    | none => s
  | .fabric a => match FMap.get? s.imports a.window with
    | some e => s.goAccess a e
    | none => s.answerNone a false
  | k => if k.runs then s.unitGo k else s

/-- A throttled row's activation has been used. -/
def State.rowUsed (s : State) (stack row : Nat) : Bool := !s.hotRows.any fun h => h.1 == stack && h.2.row == row && h.2.permit

/-- The activation of an interval offered to the requests of a side queue in their order (R404): the first that can go on takes it. One that needs
another throttled row too keeps the turn where no other takes it; one that asks again by itself has it until the next interval. -/
def State.rowTurn (s : State) (stack row : Nat) (all : List ReqKind) : List ReqKind → State
  | [] => s.modRow stack row fun h => { h with permit := true, turn := all.head?, queued := all.tail }
  | x :: l =>
    let t := (s.modRow stack row fun h => { h with permit := true, turn := some x, queued := all.filter (· != x) }).rowGo x
    if !x.runs || t.rowUsed stack row then t
    else t.rowTurn stack row (if (match x with | .fabric _ => false | _ => t.rowLive x) then all else all.filter (· != x)) l

/-- TARGETED_REFRESH (R404): the neighbours have been refreshed, the throttle ends, the row is counted anew, and the requests of its side queue go
on. -/
def execTargetedRefresh (stack row : Nat) (s : State) : Host.Outcome State Fault Refusal :=
  match s.hotRows.find? fun h => h.1 == stack && h.2.row == row with
  | none => .next s
  | some h =>
    let s1 : State := { s with hotRows := s.hotRows.filter (fun h => !(h.1 == stack && h.2.row == row)),
                               rowActs := FMap.erase s.rowActs (stack * 2 ^ 24 + row) }
    .next ((h.2.turn.toList ++ h.2.queued).foldl (fun t x => if t.rowLive x then t.rowGo x else t) s1)

/-- THROTTLE_INTERVAL (R404): one activation of a throttled row is permitted: the requests of its side queue take it in their order, else the next
one that comes in the interval. -/
def execThrottleInterval (stack row : Nat) (s : State) : Host.Outcome State Fault Refusal :=
  match s.hotRows.find? fun h => h.1 == stack && h.2.row == row with
  | none => .next s
  | some h =>
    let all := ((h.2.turn.toList.filter ReqKind.runs) ++ h.2.queued).filter s.rowLive
    .next (s.rowTurn stack row all all)

end Sys2Proof.Machine
end

