-- ==== Sys2Proof/Machine/Mailbox.lean ====
section
/-! DEFINITION. The mailbox of a function, and the commands that create contexts and map memory (spec/25, R406 to R409, R415 to R418; R342, R368, R371, R396 to R402). -/

namespace Sys2Proof.Machine

/-! ### Host registers (R8, R9, R400, R407) -/

/-- Bytes of a function's request payload. -/
def reqBytes (m : FMap Byte) (lo n : Nat) : List Byte := (List.range n).map fun i => FMap.getD m (lo + i) 0
/-- A field of a request. -/
def reqField (m : FMap Byte) (lo n : Nat) : Nat := leNat (reqBytes m lo n)

/-- A write of `MBCMD` (R407): `GO` submits the request as it stands, unless a command is in flight. -/
def State.writeMbCmd (s : State) (fn : Nat) (v : BitVec 64) : State :=
  let keep := v &&& 0x8000FFFFFFFFFFFF
  if !v.getLsbD 63 then s.modFn fn fun f => { f with mbCmd := keep }
  else if (s.fn fn).taken.isSome then s.count 0x09 fn
  else s.modFn fn fun f => { f with mbCmd := keep, mbSts := f.mbSts &&& ~~~((1 : BitVec 64) <<< 63), taken := some (v, f.mbReq) }

/-- What the host reads of a register of BAR 0 (R8, R9, R400, R407): of an RW register the last value written, of an RO register its current
value; the bytes of `MBREQ` and `MBRSP` one by one, and zero beyond them and of an unlisted offset. Where the state of a CXL link is read is not
stated (DESIGN CHOICE, log 98). -/
def State.hostReg (s : State) (fn : Nat) (r : HostReg) : BitVec 64 :=
  let f := s.fn fn
  match r with
  | .fqBase => BitVec.ofNat 64 f.fqBase
  | .fqSize => BitVec.ofNat 64 f.fqSize
  | .fqVec => BitVec.ofNat 64 f.fqVec
  | .fqHead => BitVec.ofNat 64 f.fqHead
  | .mbCmd => f.mbCmd
  | .mbSts => f.mbSts
  | .mbVec => f.mbVec.zeroExtend 64
  | .mbReq o => if 4032 ≤ o then 0 else (FMap.getD f.mbReq o 0).zeroExtend 64
  | .mbRsp o => if 4096 ≤ o then 0 else (f.mbRsp.getD o 0).zeroExtend 64
  | .cxlLink k => let l := s.cxlLinks.getD k (0, 0); BitVec.ofNat 64 (l.1 + l.2 * 2 ^ 16)
  | .unlisted _ => 0

/-- REGISTER_WRITE (R8, R9, R400, R407): `FQBASE` and `FQSIZE` only while the fault queue is disabled; an RO register takes nothing. An `FQBASE`
that is no multiple of 64 is stored rounded down (DESIGN CHOICE, log 35). -/
def execRegisterWrite (fn : Nat) (r : HostReg) (v : BitVec 64) (s : State) : Host.Outcome State Fault Refusal :=
  if 9 ≤ fn then .next s
  else
    match r with
    | .fqBase => .next (if (s.fn fn).fqOn then s else s.modFn fn fun f => { f with fqBase := v.toNat / 64 * 64 })
    | .fqSize => .next (if (s.fn fn).fqOn then s else s.modFn fn fun f => { f with fqSize := v.toNat % 2 ^ 32 })
    | .fqVec => .next (s.modFn fn fun f => { f with fqVec := v.toNat % 2 ^ 32 })
    | .mbVec => .next (s.modFn fn fun f => { f with mbVec := v.truncate 32 })
    | .mbReq o => .next (if 4032 ≤ o then s else s.modFn fn fun f => { f with mbReq := FMap.set f.mbReq o (v.truncate 8) })
    | .mbCmd => .next (s.writeMbCmd fn v)
    | .fqHead => .next s
    | .mbSts => .next s
    | .mbRsp _ => .next s
    | .cxlLink _ => .next s
    | .unlisted _ => .next s

/-! ### The course of a command (R407 to R409) -/

/-- What became of a command. -/
inductive MbOut where
  /-- done: value, response, state -/
  | done (value : Nat) (rsp : List Byte) (t : State)
  /-- ended with a status other than 0, and a value -/
  | fail (status value : Nat)
  /-- ended with a status other than 0 and the state it leaves (R422) -/
  | failWith (status value : Nat) (t : State)
  /-- still in progress -/
  | wait (t : State)
  deriving DecidableEq, Repr

/-- A value of `MBSTS` that the spec does not state: free (log 34). -/
def State.freeValue (s : State) : Nat := (Config.freeWord s.tick).toNat % 2 ^ 24

/-- A function's fault queue is enabled with its first command that is done, if its ring is then within limits (R400; log 35). -/
def Func.enable (f : Func) : Func :=
  if !f.fqOn && decide (64 ≤ f.fqSize) && decide (f.fqSize ≤ 65536) then { f with fqOn := true } else f

/-- The response, `MBSTS` and the vector of a command that has ended (R407). -/
def State.mbEnd (s : State) (fn status value : Nat) (rsp : List Byte) : State :=
  match (s.fn fn).taken with
  | none => s
  | some (cmd, _) =>
    let sts := BitVec.ofNat 64 (value % 2 ^ 24 + status * 2 ^ 24 + bits cmd.toNat 32 16 * 2 ^ 32 + 2 ^ 63)
    let s1 := s.modFn fn fun f =>
      let g := if status = 0 then f.enable else f
      { g with mbRsp := rsp.take 4096 ++ f.mbRsp.drop (min 4096 rsp.length), mbSts := sts, taken := none }
    let v := (s.fn fn).mbVec
    if v = 0xFFFFFFFF then s1 else { s1 with irqs := s1.irqs ++ [(fn, v.toNat)] }

/-- The management controller is switching its image: commands are held (R428). -/
def State.mbHeld (s : State) : Bool := match s.activation with | some a => a.kind == 2 | none => false

/-- The length and the reserved bits of a command are within R407. -/
def cmdOk (cmd : BitVec 64) : Bool := decide (bits cmd.toNat 16 16 ≤ 4032) && bits cmd.toNat 48 15 == 0

/-- A command of a function with one of the codes, performed (R407 to R409): `root` reserves it to physical function 0, `slim`
admits it in minimal mode (R430). Where no rule names the status of a refusal, it is the one of R409 that fits (DEDUCED, log 117). -/
def mailbox (fn : Nat) (code : Nat → Bool) (root slim : Bool) (f : BitVec 64 → FMap Byte → State → MbOut) (s : State) : Host.Outcome State Fault Refusal :=
  match (s.fn fn).taken with
  | none => .next s
  | some (cmd, req) =>
    if s.boot ≠ .ready || s.mbHeld || !code (bits cmd.toNat 0 16) then .next s
    else
      let out : MbOut :=
        if s.minimal && !slim then .fail 2 s.freeValue
        else if root && fn != 0 then .fail 7 s.freeValue
        else if !cmdOk cmd then .fail 3 s.freeValue
        else f cmd req s
      match out with
      | .done v rsp t => .next (t.mbEnd fn 0 v rsp)
      | .fail st v => .next (s.mbEnd fn st v [])
      | .failWith st v t => .next (t.mbEnd fn st v [])
      | .wait t => .next t

/-- A command ends with a status; its value is free. -/
def State.no (s : State) (status : Nat) : MbOut := .fail status s.freeValue
/-- A command is done; its value is free. -/
def State.yes (s t : State) : MbOut := .done s.freeValue [] t

/-- The codes of R408. -/
def mbCodes : List Nat :=
  [0x0001, 0x0002, 0x0010, 0x0011, 0x0012, 0x0013, 0x0014, 0x0020, 0x0021, 0x0022, 0x0023, 0x0024, 0x0025, 0x0030, 0x0031, 0x0032, 0x0033,
   0x0040, 0x0041, 0x0042, 0x0043, 0x0050, 0x0051, 0x0052, 0x0053]

/-- MAILBOX_UNKNOWN_COMMAND (R408). -/
def execMailboxUnknownCommand (fn : Nat) (s : State) : Host.Outcome State Fault Refusal :=
  mailbox fn (fun c => !mbCodes.contains c) false false (fun _ _ s => s.no 3) s

/-! ### Identity and attestation (R416 to R418) -/

/-- IDENT (R416). -/
def execIdent (fn : Nat) (s : State) : Host.Outcome State Fault Refusal :=
  mailbox fn (· == 0x0001) false true (fun _ _ s => .done s.freeValue Config.certChain s) s

/-- The bytes of the image a unit runs, as its digest covers them (R417). -/
def runningDigest (kind : Nat) (i : Option Image) : List Byte :=
  match i with | some x => imageDigest x | none => fitBytes 64 (Config.shake256 (Config.romImage kind))

/-- One entry of a report (R417). -/
def State.reportEntry (s : State) (kind idx : Nat) : List Byte :=
  let u := s.unit kind idx
  let sec := match u.running with | some x => x.security | none => 0
  ([BitVec.ofNat 8 kind, BitVec.ofNat 8 idx, if u.activeB then 1 else 0, if u.rom then 1 else 0] : List Byte) ++ leBytes 4 (s.version kind idx) ++ leBytes 4 sec ++
    List.replicate 52 0 ++ runningDigest kind u.running

/-- The port policy byte of a port (R417). -/
def Port.policy (p : Port) : Byte := if !p.up then 2 else if p.sealPolicy then 0 else 1

/-- The 52 entries' units: compute dies, IO dies, base dies (R417). -/
def reportUnits : List (Nat × Nat) :=
  ((List.range 24).map fun i => (1, i)) ++ [(2 + Config.reportIod0 % 3, 0)] ++ ([1, 2, 3] : List Nat).map (fun i => (4, i)) ++
    (List.range 24).map fun i => (5, i)

/-- Bytes 0–6863 of a report (R417). -/
def State.reportBody (s : State) (nonce : List Byte) : List Byte :=
  let mf := match s.manifest with | some m => manifestImage m | none => []
  leBytes 2 1 ++ leBytes 2 52 ++ leBytes 4 10173 ++ leBytes 4 s.bootCount ++ leBytes 4 0 ++ fitBytes 64 nonce ++
    fitBytes 64 (Config.shake256 mf) ++ leBytes 4 (Config.reportFloor s.floors) ++
    leBytes 4 (match s.manifest with | some m => m.version | none => 0) ++ (((List.range 48).map fun k => (s.port k).policy) : List Byte) ++ leBytes 8 0 ++
    (reportUnits.flatMap fun u => s.reportEntry u.1 u.2)

/-- A whole report, signed (R417). -/
def State.report (s : State) (nonce : List Byte) : List Byte :=
  let b := s.reportBody nonce
  b ++ fitBytes sigBytes (Config.mldsaSign (Config.shake256 b))

/-- ATTEST (R417, R418). -/
def execAttest (fn : Nat) (nonce : List Byte) (addr : Nat) (s : State) : Host.Outcome State Fault Refusal :=
  mailbox fn (· == 0x0002) false true (fun _ _ s =>
    if nonce.length ≠ 64 ∨ addr % 64 ≠ 0 then s.no 3 else .done 10173 [] (s.hostPut addr (s.report nonce))) s

/-! ### Contexts (R342, R371, R408) -/

/-- The descriptor of a context, read from a request (R342). -/
def contextFrom (m : FMap Byte) (fn : Nat) (key : Option Nat) : Context :=
  let g := reqField m
  let prot := (g 13 1).testBit 0
  { ptroot := g 0 8, asid := g 8 2, vmid := g 10 2 % 4096, homeIod := g 12 1 % 4, prot := prot, parts := g 14 1, lrt := g 16 8, lrtn := g 24 2,
    qtab := g 32 8, frb := g 40 8, frs := g 48 8, rxb := g 56 8, rxn := g 64 4,
    accept := (List.range 30).filterMap fun i =>
      let a := g (72 + 4 * i) 4
      if a.testBit 31 then some (a % 256, bits a 8 10) else none,
    owner := fn, queues := List.replicate (g 26 2) Queue.fresh, posted := [], unexpected := [], apertures := [], versions := [],
    pageKey := if prot then key else none, ended := false }

/-- The descriptor and the number of a CTXCRT keep the limits of R342 and R408; its reserved bytes are ignored (R9). -/
def descriptorOk (cmd : BitVec 64) (m : FMap Byte) : Bool :=
  let g := reqField m
  decide (194 ≤ bits cmd.toNat 16 16) && decide (g 192 2 < Config.contexts) && g 0 8 % 65536 == 0 && decide (g 10 2 < 4096) && decide (g 12 1 < 4) &&
  decide (g 13 1 < 2) && g 16 8 % 64 == 0 && decide (g 24 2 ≤ 4096) && decide (1 ≤ g 26 2) && decide (g 26 2 ≤ 64) && g 32 8 % 192 == 0 &&
  g 40 8 % 192 == 0 && g 48 8 % 192 == 0 && g 56 8 % 192 == 0 && decide (g 64 4 ≤ 2 ^ 20) &&
  (List.range 30).all fun i => bits (g (72 + 4 * i) 4) 18 13 == 0

/-- A function owns the partitions of a set (R400, R408); the hypervisor's function acts for every partition (R368; DEDUCED, log 36). -/
def ownsParts (fn parts : Nat) : Bool := fn == 0 || (setBits parts 8).all fun k => k + 1 == fn

/-- CTXCRT (R342, R345, R368, R371, R408): the queues' control blocks are read. -/
def execCtxcrt (fn : Nat) (s : State) : Host.Outcome State Fault Refusal :=
  mailbox fn (· == 0x0010) false false (fun cmd m s =>
    let c := contextFrom m fn (some s.drawn)
    let cn := reqField m 192 2
    let key := c.vmid * 65536 + c.asid
    if !descriptorOk cmd m then s.no 3
    else if !ownsParts fn c.parts || (c.vmid == 0 && fn != 0) then s.no 7
    else if (match s.ctx? cn with | some o => !o.ended | none => false) then s.no 2
    else if c.vmid ≠ 0 ∧ (FMap.get? s.s2roots c.vmid).isNone then s.no 2
    else if (FMap.get? s.asids key).isSome then s.no 5
    else
      let s1 := { s with ctxs := FMap.set s.ctxs cn c, asids := FMap.set s.asids key fn, drawn := if c.prot then s.drawn + 1 else s.drawn }
      .done cn [] ((List.range c.queues.length).foldl (fun t q => t.readQcb cn q) s1)) s

/-- A context that a function owns and that has not ended, or the status of R409. -/
def State.ownCtx (s : State) (fn cn : Nat) : Except Nat Context :=
  match s.ctx? cn with
  | none => .error 1
  | some c => if c.ended then .error 1 else if c.owner ≠ fn then .error 7 else .ok c

/-- A context ends (R357, R408): its queues stop, its launches are killed with what they hold. -/
def State.endContext (s : State) (cn : Nat) : State :=
  let s1 := s.modCtx cn fun c => { c with queues := c.queues.map fun q => { q with qcb := none } }
  let s2 := (s1.nodes.filter fun n => n.2.ctx == cn).foldl (fun t n => t.killLaunch n.1 2) s1
  let s3 := s2.dropReqs fun r => match r.kind with | .take c _ => c == cn | _ => false
  s3.modCtx cn fun c => { c with ended := true, accept := [], posted := [], unexpected := [] }

/-- CTXEND (R357, R371, R408). -/
def execCtxend (fn ctx : Nat) (s : State) : Host.Outcome State Fault Refusal :=
  mailbox fn (· == 0x0011) false false (fun _ _ s =>
    match s.ownCtx fn ctx with
    | .error e => s.no e
    | .ok _ => s.yes (s.endContext ctx)) s

/-- ASIDRT (R252, R371): once the context has ended. -/
def execAsidrt (fn vmid asid : Nat) (s : State) : Host.Outcome State Fault Refusal :=
  mailbox fn (· == 0x0012) false false (fun _ _ s =>
    match FMap.get? s.asids (vmid * 65536 + asid) with
    | none => s.no 1
    | some o =>
      if 4096 ≤ vmid ∨ 65536 ≤ asid then s.no 3
      else if o ≠ fn then s.no 7
      else if s.ctxs.any fun c => !c.2.ended && c.2.vmid == vmid && c.2.asid == asid then s.no 2
      else
        let t := s.dropTlb (tinvDrops 5 vmid asid 0 0)
        s.yes { t with asids := FMap.erase t.asids (vmid * 65536 + asid) }) s

/-- S2ROOT (R365, R368). -/
def execS2root (fn vmid root : Nat) (s : State) : Host.Outcome State Fault Refusal :=
  mailbox fn (· == 0x0013) true false (fun _ _ s =>
    if vmid = 0 ∨ 4096 ≤ vmid ∨ root % 65536 ≠ 0 then s.no 3 else s.yes { s with s2roots := FMap.set s.s2roots vmid root }) s

/-- The page that a level-3 entry maps, as a physical address. -/
def State.leafPage (s : State) (c : Context) (leaf : Nat) : Option Nat :=
  match decodeEntry (leNat (s.homeRead leaf 8)) 3 with
  | .page out _ _ _ => s.tableAddr c out
  | _ => none

/-- PAGEOUT (R252, R415): the page is sealed to host memory under its next version, its leaf is cleared and its translations are dropped. -/
def execPageout (fn ctx va addr : Nat) (s : State) : Host.Outcome State Fault Refusal :=
  mailbox fn (· == 0x0014) false false (fun _ _ s =>
    match s.ownCtx fn ctx with
    | .error e => s.no e
    | .ok c =>
      let page := va / pageBytes
      if va % pageBytes ≠ 0 ∨ 2 ^ 56 ≤ va ∨ !s.hostRange addr (49152 + 64) then s.no 3
      else
        match c.pageKey, (s.leafAt c va).bind fun l => (s.leafPage c l).map fun p => (l, p) with
        | some key, some (leaf, pa) =>
          let version := FMap.getD c.versions page 0 + 1
          let (cipher, tag) := Config.gcmSeal (Config.keygen s.bootCount key) (pageAad ctx page version) (s.homeRead pa 49152)
          let s1 := s.modCtx ctx fun c => { c with versions := FMap.set c.versions page version }
          let s2 := s1.hostPut addr (fitBytes 49152 cipher ++ fitBytes 16 tag ++ leBytes 8 version ++ List.replicate 40 0)
          let s3 := s2.homeWrite leaf (leBytes 8 (leNat (s.homeRead leaf 8) / 2 * 2))
          s.yes (s3.dropTlb (tinvDrops 3 c.vmid c.asid va pageBytes))
        | _, _ => s.no 2) s

/-! ### Partitions, host runs, the address map (R400 to R403) -/

/-- PARTSET (R400): partitions are disjoint sets of compute dies. -/
def execPartset (fn : Nat) (parts : List (List Nat)) (s : State) : Host.Outcome State Fault Refusal :=
  mailbox fn (· == 0x0020) true false (fun _ _ s =>
    let ds := parts.flatMap id
    if 8 < parts.length || ds.any (fun d => decide (24 ≤ d)) || (dedup ds).length != ds.length then s.no 3
    else s.yes { s with parts := parts ++ List.replicate (8 - parts.length) [] }) s

/-- No two of a list of ranges of a kind meet. -/
def apart {α : Type} (clash : α → α → Bool) : List α → Bool
  | [] => true
  | x :: t => !(t.any (clash x)) && apart clash t

/-- A run keeps the limits of R401. -/
def hostRunOk (r : HostRun) : Bool :=
  r.db % 49152 == 0 && r.len % 49152 == 0 && r.hb % 4096 == 0 && decide (r.link < 2) && decide (r.db + r.len ≤ 2 ^ 48)
/-- Two runs overlap on the device's side. -/
def runsMeet (a b : HostRun) : Bool := meets a.db a.len b.db b.len

/-- HRUN (R401): the whole table. -/
def execHrun (fn : Nat) (runs : List HostRun) (s : State) : Host.Outcome State Fault Refusal :=
  mailbox fn (· == 0x0021) true false (fun _ _ s =>
    if 64 < runs.length || !(runs.all hostRunOk) || !apart runsMeet runs then s.no 3 else s.yes { s with runs := runs }) s

/-- The granule of a range (R402). -/
def pamtGranule (r : PamtRange) : Nat := 192 * 2 ^ r.gran
/-- The bytes of each channel that a range takes (R403). -/
def pamtPerChannel (r : PamtRange) : Nat :=
  ceilDiv (ceilDiv (r.size / (pamtGranule r)) (setBits r.smask.toNat 24).length) (setBits r.cmask.toNat 32).length * (pamtGranule r)

/-- A range by itself passes R402. -/
def pamtRangeOk (r : PamtRange) : Bool :=
  !r.v ||
  (r.smask != 0 && r.cmask != 0 && decide (r.gran ≤ 8) && r.size % 49152 == 0 && r.size % (pamtGranule r) == 0 && r.base % 49152 == 0 &&
   r.base % (pamtGranule r) == 0 && decide (r.base + r.size ≤ 2 ^ 52) && (r.host || decide (3072 * r.cbase + pamtPerChannel r ≤ 3 * 2 ^ 29)))
/-- The bytes that a range takes of the channel at place `q` of its mask, on the stack at place `p` of its mask (R403). -/
def pamtShare (r : PamtRange) (p q : Nat) : Nat :=
  let n := (setBits r.smask.toNat 24).length
  let m := (setBits r.cmask.toNat 32).length
  ((r.size / pamtGranule r + n - 1 - p) / n + m - 1 - q) / m * pamtGranule r

/-- Two valid ranges overlap in address, or in the channel space of a stack (R402): in a channel that both use there. -/
def pamtMeet (a b : PamtRange) : Bool :=
  let places := fun (v n : Nat) => (setBits v n).zipIdx
  a.v && b.v &&
  (meets a.base a.size b.base b.size ||
   (!a.host && !b.host && (places a.smask.toNat 24).any fun x => (places b.smask.toNat 24).any fun y => x.1 == y.1 &&
     (places a.cmask.toNat 32).any fun u => (places b.cmask.toNat 32).any fun w => u.1 == w.1 &&
       decide (0 < pamtShare a x.2 u.2) && decide (0 < pamtShare b y.2 w.2) &&
       meets (3072 * a.cbase) (pamtShare a x.2 u.2) (3072 * b.cbase) (pamtShare b y.2 w.2)))

/-- The physical address of a stage-1 output, whatever the access (R368). -/
def State.outAddr (s : State) (c : Context) (a : Nat) : Option Nat :=
  if c.vmid = 0 then some a
  else ([Acc.engRead, Acc.engWrite, Acc.fetch] : List Acc).findSome? fun k =>
    match stage2 s ⟨[], []⟩ c.vmid a k with | .ok p => some (p.1.addr a) | .error _ => none

/-- A context maps an address of a range, from one of its stage-1 tables on, `fuel` levels deep (R365, R402). -/
def State.tableMaps (s : State) (c : Context) (base size : Nat) : Nat → Nat → Nat → Bool
  | 0, _, _ => false
  | fuel + 1, lvl, tbl => (List.range (walkEntries lvl)).any fun i =>
    match (s.tableAddr c (tbl + 8 * i)).map fun p => decodeEntry (leNat (s.homeRead p 8)) lvl with
    | some (.table next) => s.tableMaps c base size fuel (lvl + 1) next
    | some (.page out _ _ _) => (List.range (levelBytes lvl / pageBytes)).any fun k =>
        match s.outAddr c (out + pageBytes * k) with | some q => meets q pageBytes base size | none => false
    | _ => false

/-- A living context maps a range of the address-map table (R402). -/
def State.rangeMapped (s : State) (r : PamtRange) : Bool := s.ctxs.any fun c => !c.2.ended && s.tableMaps c.2 r.base r.size 4 0 c.2.ptroot

/-- PAMTLD (R402): a valid range is changed only while no context maps it. -/
def execPamtld (fn : Nat) (ranges : List PamtRange) (s : State) : Host.Outcome State Fault Refusal :=
  mailbox fn (· == 0x0022) true false (fun _ _ s =>
    if 16 < ranges.length || !(ranges.all pamtRangeOk) || !apart pamtMeet ranges then s.no 3
    else if s.pamt.any fun r => r.v && !ranges.contains r && s.rangeMapped r then s.no 2
    else s.yes { s with pamt := ranges ++ List.replicate (16 - ranges.length) pamtInvalid }) s

/-! ### Apertures and windows (R396 to R398) -/

/-- APERT (R396). -/
def execApert (fn ctx idx : Nat) (desc : Aperture) (s : State) : Host.Outcome State Fault Refusal :=
  mailbox fn (· == 0x0023) false false (fun _ _ s =>
    match s.ownCtx fn ctx with
    | .error e => s.no e
    | .ok _ =>
      if 256 ≤ idx ∨ 256 ≤ desc.pkg ∨ 4096 ≤ desc.win then s.no 3
      else s.yes (s.modCtx ctx fun c => { c with apertures := FMap.set c.apertures idx desc })) s

/-- The function to which a window's valid entry belongs (R397). -/
def State.windowOwner (s : State) (w : Nat) : Option Nat :=
  match FMap.get? s.imports w with
  | some e => if e.v then (s.ctx? e.ctx).map Context.owner else none
  | none => none

/-- EXPORT (R397, R398): an entry in use is replaced once the accesses that passed under it are answered. -/
def execExportWin (fn win : Nat) (entry : ImportEntry) (s : State) : Host.Outcome State Fault Refusal :=
  mailbox fn (· == 0x0024) false false (fun _ _ s =>
    match s.ownCtx fn entry.ctx with
    | .error e => s.no e
    | .ok _ =>
      if 4096 ≤ win ∨ 256 ≤ entry.src ∨ entry.len % 192 ≠ 0 ∨ 2 ^ 40 ≤ entry.len ∨ entry.base % 192 ≠ 0 ∨ 2 ^ 56 ≤ entry.base then s.no 3
      else if (match s.windowOwner win with | some o => o != fn | none => false) then s.no 7
      else
        let t := s.endRemoteWaits win
        if t.windowBusy win then .wait t
        else s.yes { t with imports := FMap.set t.imports win entry }) s

/-- REVOKE (R397, R398): the entry is cleared at once; the command completes when every access under it has been answered. -/
def execRevoke (fn win : Nat) (s : State) : Host.Outcome State Fault Refusal :=
  mailbox fn (· == 0x0025) false false (fun _ _ s =>
    if s.revoking.contains (win, fn) then
      if s.windowBusy win then .wait s else s.yes { s with revoking := s.revoking.filter fun r => r != (win, fn) }
    else
      match FMap.get? s.imports win, s.windowOwner win with
      | some e, some o =>
        if o ≠ fn then s.no 7
        else
          let off := { e with v := false }
          let t := { s with imports := FMap.set s.imports win off }.endRemoteWaits win
          if t.windowBusy win then .wait { t with revoking := t.revoking ++ [(win, fn)] } else s.yes t
      | _, _ => s.no 2) s

end Sys2Proof.Machine
end

