-- ==== Sys2Proof/Machine/Firmware.lean ====
section
/-! DEFINITION. Secured sessions, images, manifests and live activation, and the commands for registers and telemetry (spec/25, R419 to R428, R408; spec/26, R432, R435; R332, R404). -/

namespace Sys2Proof.Machine

/-! ### Secured sessions (R419 to R421) -/

/-- The session of a function that has not ended. -/
def State.session? (s : State) (fn : Nat) : Option (Nat × Session) := s.sessions.find? fun x => x.2.fn == fn && !x.2.ended
/-- The state with a session changed. -/
def State.modSession (s : State) (id : Nat) (f : Session → Session) : State :=
  match FMap.get? s.sessions id with | some x => { s with sessions := FMap.set s.sessions id (f x) } | none => s

/-- SOPEN (R419): protected contexts of the function, in no other session; without a heartbeat or grace period 10 s and 60 s apply. -/
def execSopen (fn : Nat) (ctxs : List Nat) (period grace : Option Nat) (verifierKey : List Byte) (s : State) : Host.Outcome State Fault Refusal :=
  let hbt := period.getD 10
  let grc := grace.getD 60
  mailbox fn (· == 0x0030) false false (fun _ _ s =>
    match ctxs.findSome? fun c => match s.ownCtx fn c with | .error e => some e | .ok _ => none with
    | some e => s.no e
    | none =>
      let plain := ctxs.any fun c => match s.ctx? c with | some x => !x.prot | none => true
      let taken := s.sessions.any fun x => !x.2.ended && (x.2.fn == fn || x.2.ctxs.any fun c => ctxs.contains c)
      if hbt = 0 ∨ 600 < hbt ∨ 3600 < grc then s.no 3
      else if plain || taken then s.no 2
      else
        let (id, s1) := s.fresh
        let x : Session := { fn := fn, ctxs := ctxs, hbt := hbt, grc := grc, key := Config.sessionKey verifierKey, counter := 0,
                             due := s.usec + hbt * 10 ^ 6, lapsed := false, ended := false }
        s.yes { s1 with sessions := FMap.set s1.sessions id x }) s

/-- The counter and the tag of a session's message are right (R419, R421). -/
def Session.authentic (x : Session) (counter : BitVec 64) (tag : List Byte) : Bool :=
  counter == x.counter + 1 && tag == Config.sessionTag x.key counter

/-- SBEAT (R419, R421). -/
def execSbeat (fn : Nat) (counter : BitVec 64) (tag : List Byte) (s : State) : Host.Outcome State Fault Refusal :=
  mailbox fn (· == 0x0031) false false (fun _ _ s =>
    match s.session? fn with
    | none => s.no 2
    | some (id, x) =>
      if x.lapsed then s.no 2
      else if !x.authentic counter tag then s.no 4
      else s.yes (s.modSession id fun x => { x with counter := counter, due := s.usec + x.hbt * 10 ^ 6 })) s

/-- The queues of a session's contexts are stopped by its lapse, or return to their state (R420, R421). -/
def State.lapseQueues (s : State) (ctxs : List Nat) (on : Bool) : State :=
  ctxs.foldl (fun t c => t.modCtx c fun x => { x with queues := x.queues.map fun q => { q with lapsed := on } }) s

/-- HEARTBEAT_EXPIRY (R420): the session lapses, and every resident gang of its contexts stops; a gang with nothing under way is
saved at once, the others as PREEMPT_VICTIM goes on with their stop. -/
def execHeartbeatExpiry (session : Nat) (s : State) : Host.Outcome State Fault Refusal :=
  match FMap.get? s.sessions session with
  | none => .next s
  | some x =>
    if x.lapsed || x.ended || decide (s.usec < x.due) then .next s
    else
      let s1 := (s.modSession session fun y => { y with lapsed := true, due := s.usec + y.grc * 10 ^ 6 }).lapseQueues x.ctxs true
      let gangs := dedup ((s1.wgs.filter fun g => x.ctxs.contains g.2.ctx).map fun g => g.2.gang)
      .next (gangs.foldl (fun t g => (((t.residentOf g).foldl (fun u w => (u.freezeWg w.1).modWg w.1 fun x => { x with lapse := true }) t)).evict g) s1)

/-- SRESUME (R421): within the grace period of the lapse. -/
def execSresume (fn : Nat) (counter : BitVec 64) (tag : List Byte) (s : State) : Host.Outcome State Fault Refusal :=
  mailbox fn (· == 0x0032) false false (fun _ _ s =>
    match s.session? fn with
    | none => s.no 2
    | some (id, x) =>
      if !x.lapsed || decide (x.due < s.usec) then s.no 2
      else if !x.authentic counter tag then s.no 4
      else s.yes ((s.modSession id fun x => { x with counter := counter, lapsed := false, due := s.usec + x.hbt * 10 ^ 6 }).lapseQueues x.ctxs false)) s

/-- The pages that a context's tables map: first physical address and length; the entries of one table, then of the tables below (R365, R368). -/
def State.mapped (s : State) (c : Context) : Nat → Nat → Nat → List (Nat × Nat)
  | 0, _, _ => []
  | fuel + 1, lvl, tbl =>
    let n := if lvl = 0 then 8192 else if lvl = 1 then 4096 else if lvl = 2 then 1024 else 64
    (List.range n).flatMap fun i =>
      match (s.tableAddr c (tbl + 8 * i)).map fun pa => decodeEntry (leNat (s.homeRead pa 8)) lvl with
      | some (.table next) => s.mapped c fuel (lvl + 1) next
      | some (.page out _ _ _) =>
        if c.vmid = 0 then [(out, levelBytes lvl)]
        else (List.range (levelBytes lvl / pageBytes)).filterMap fun k => (s.tableAddr c (out + k * pageBytes)).map fun p => (p, pageBytes)
      | _ => []

/-- A session ends (R421): its contexts' device memory, frames and receive buffers are scrubbed, their keys destroyed, and they end. -/
def State.endSession (s : State) (id : Nat) (x : Session) : State :=
  let s1 := x.ctxs.foldl (fun t cn =>
    match t.ctx? cn with
    | none => t
    | some c =>
      let pages := (t.mapped c 4 0 c.ptroot).filter fun p => decide (bits p.1 48 4 < 14)
      let t1 := (t.lapseQueues [cn] false).endContext cn
      let t2 := pages.foldl (fun u p => u.scrubMem p.1 p.2) t1
      let t3 := (t2.scrubMem c.frb c.frs).scrubMem c.rxb (192 * c.rxn)
      let t4 : State := { t3 with dies := t3.dies.map fun (d : Nat × Die) =>
        (d.1, { d.2 with frameKeys := d.2.frameKeys.filter fun k => Config.frameSlotCtx d.1 k.1 != cn }) }
      t4.modCtx cn fun c => { c with pageKey := none, versions := [] }) s
  s1.modSession id fun x => { x with ended := true, key := [] }

/-- SCLOSE (R421). -/
def execSclose (fn : Nat) (s : State) : Host.Outcome State Fault Refusal :=
  mailbox fn (· == 0x0033) false false (fun _ _ s =>
    match s.session? fn with
    | none => s.no 2
    | some (id, x) => s.yes (s.endSession id x)) s

/-- SESSION_GRACE_END (R421). -/
def execSessionGraceEnd (session : Nat) (s : State) : Host.Outcome State Fault Refusal :=
  match FMap.get? s.sessions session with
  | none => .next s
  | some x => if !x.lapsed || x.ended || decide (s.usec < x.due) then .next s else .next (s.endSession session x)

/-! ### Images and manifests (R422 to R424) -/

/-- An image's numbers fit in its header (R422). -/
def imageFits (i : Image) : Bool :=
  decide (i.kind < 2 ^ 8) && decide (i.cmdVersion < 2 ^ 32) && decide (i.version < 2 ^ 32) && decide (i.security < 2 ^ 32) && decide (i.body.length < 2 ^ 32)

/-- STAGE (R422): the inactive slot is written and verified; a failed one leaves it empty. The slot that an activation starts from is not written. -/
def execStage (fn kind idx : Nat) (img : Image) (s : State) : Host.Outcome State Fault Refusal :=
  mailbox fn (· == 0x0040) true true (fun _ _ s =>
    if unitCount kind ≤ idx then s.no 1
    else if (match s.activation with | some a => a.kind == kind && a.idx == idx | none => false) then s.no 2
    else
      let put := fun (x : ImageSlot) => s.modUnit kind idx fun u => u.setSlot (!u.activeB) x
      if img.kind ≠ kind || !imageFits img then .failWith 3 s.freeValue (put ⟨none, false⟩)
      else if !imageSigned img then .failWith 4 s.freeValue (put ⟨none, false⟩)
      else if img.security < s.floorOf kind || !s.named kind img.version then .failWith 6 s.freeValue (put ⟨none, false⟩)
      else s.yes (put ⟨some img, true⟩)) s

/-- MANIFEST (R423): signed, of a higher version, and admitting the mixture that runs. -/
def execManifest (fn : Nat) (m : Manifest) (s : State) : Host.Outcome State Fault Refusal :=
  mailbox fn (· == 0x0042) true true (fun _ _ s =>
    let now := match s.manifest with | some x => some x.version | none => none
    if !Config.mldsaVerify Config.manifestKey (fitBytes 64 (Config.shake256 (manifestImage m))) m.signature then s.no 4
    else if (match now with | some v => decide (m.version ≤ v) | none => false) || !manifestAdmits m s.mixture false then s.no 6
    else s.yes { s with manifest := some m }) s

/-- FLOOR (R424): a floor never falls. -/
def execFloor (fn : Nat) (s : State) : Host.Outcome State Fault Refusal :=
  mailbox fn (· == 0x0043) true false (fun _ _ s =>
    match s.manifest with
    | none => s.no 2
    | some m => s.yes { s with floors := (List.range 5).map fun i => max (s.floors.getD i 0) (m.floors.getD i 0) }) s

/-! ### Activation (R425 to R428, R432) -/

/-- An image may start: verified, and not below the floor (R424). -/
def State.startable (s : State) (kind : Nat) (x : ImageSlot) : Bool :=
  x.ok && match x.img with | some i => decide (s.floorOf kind ≤ i.security) | none => false

/-- The switch of a unit to a staged image is admitted (R425). -/
def State.liveOk (s : State) (kind idx : Nat) (i : Image) : Bool :=
  match s.manifest with
  | none => false
  | some mf =>
    let m := Mixture.put s.mixture kind idx i.version
    manifestAdmits mf m false &&
    mf.entries.any fun e => entryAdmits e m kind idx && e.live && decide (e.liveLo ≤ s.version kind idx) && decide (s.version kind idx ≤ e.liveHi)

/-- The deadline of an activation in µs (R427). -/
def State.deadline (s : State) : Nat := match s.manifest with | some m => (if m.deadline = 0 then 500 else m.deadline) * 1000 | none => 500000

/-- Every queue's control block is read by the scheduler's new image (R345). -/
def State.readAllQcbs (s : State) : State :=
  s.ctxs.foldl (fun t c => if c.2.ended then t else (List.range c.2.queues.length).foldl (fun u q => u.readQcb c.1 q) t) s

/-- A unit's controller, or core 47, restarts (R425, R427): the image reads the record in force; a die's firmware stands at its entry, and the
scheduler's image reads the control blocks again. For the other kinds no rule gives a restart another effect on the machine. -/
def State.restartUnit (s : State) (kind idx : Nat) : State :=
  let t := if kind = 1 then s.startFirmware idx else if kind = 3 then s.readAllQcbs else s
  t.modUnit kind idx fun u => { u with resumed := u.inForce }

/-- A unit restarts in a switch; the die whose firmware it is is held (R425, R428). -/
def State.holdUnit (s : State) (kind idx : Nat) : State :=
  let t := s.restartUnit kind idx
  if kind = 1 then t.modDie idx fun d => { d with fwHeld := true } else t

/-- It serves again (R428), unless its wave has trapped meanwhile (R441). -/
def State.freeUnit (s : State) (kind idx : Nat) : State :=
  if kind = 1 && !s.firmwareTrapped idx then s.modDie idx fun d => { d with fwHeld := false } else s

/-- The firmware of a die performs something it has issued (R425); an IDLE, which waits for events, is nothing of the kind. -/
def State.firmwareBusy (s : State) (die : Nat) : Bool :=
  s.ops.any fun o => o.2.wave == firmwareKey die && !o.2.done && (match o.2.instr with | .idle .. => false | _ => true)

/-- Steps 1 and 2 of a switch (R425, R426): the old image commits its record, and the new one starts; the watchdog runs from here (R427). -/
def State.beginSwitch (s : State) (kind idx fn : Nat) : State :=
  let toV := imageVersion kind ((s.unit kind idx).slot (!(s.unit kind idx).activeB)).img
  { ((s.modUnit kind idx fun u => u.handOver true (s.handCopy kind idx (s.version kind idx) toV)).holdUnit kind idx) with
    activation := some { kind := kind, idx := idx, fn := fn, deadline := s.usec + s.deadline, begun := true } }

/-- ACTIVATE_LIVE (R425, R426, R428, R432): the old image finishes what it performs, commits its record, and the new one starts; the command's status
waits for its report. A die's firmware that has something under way issues nothing more until that is over. -/
def execActivateLive (fn kind idx : Nat) (s : State) : Host.Outcome State Fault Refusal :=
  mailbox fn (· == 0x0041) true false (fun _ _ s =>
    if unitCount kind ≤ idx then s.no 1
    else
      match s.activation with
      | some a =>
        -- its own command waits; another's is turned away
        if a.fn ≠ fn then s.no 2
        else if a.begun then .wait s
        -- a firmware whose wave has trapped commits no record: it stays stopped until the next start (R441)
        else if s.firmwareTrapped a.idx then .failWith 2 s.freeValue { s with activation := none }
        else .wait (if s.firmwareBusy a.idx then s else s.beginSwitch a.kind a.idx fn)
      | none =>
        let slot := (s.unit kind idx).slot (!(s.unit kind idx).activeB)
        match slot.img with
        | none => s.no 2
        | some i =>
          if !slot.ok || (kind == 1 && s.firmwareTrapped idx) then s.no 2
          else if !s.startable kind slot || !s.liveOk kind idx i then s.no 6
          else if kind == 1 && s.firmwareBusy idx then
            .wait { (s.modWave (firmwareKey idx) fun w => if w.stop = .running then { w.suspend with stop := .agent } else w) with
              activation := some { kind := kind, idx := idx, fn := fn, deadline := 0, begun := false } }
          else .wait (s.beginSwitch kind idx fn)) s

/-- ACTIVATE_NEXT_RESET (R408, R430, R432). -/
def execActivateNextReset (fn kind idx : Nat) (s : State) : Host.Outcome State Fault Refusal :=
  mailbox fn (· == 0x0041) true true (fun _ _ s =>
    if unitCount kind ≤ idx then s.no 1
    else if s.activation.isSome then (if s.activation.any fun a => a.fn == fn then .wait s else s.no 2)
    else
      let b := !(s.unit kind idx).activeB
      if !((s.unit kind idx).slot b).ok then s.no 2 else s.yes (s.modUnit kind idx fun u => { u with next := some b })) s

/-- An activation is over (R425, R427, R428): what was held is served, and the command ends. -/
def State.endActivation (s : State) (a : Activation) (status value : Nat) : State :=
  let s0 := ({ s with activation := none, heldBells := [], heldFlits := [] }).freeUnit a.kind a.idx
  let s1 := s.heldFlits.foldl (fun (t : State) (f : Nat × List Byte) => t.takeFlit f.1 f.2) s0
  let s2 := s.heldBells.foldl (fun (t : State) (b : Nat × Nat × Nat × BitVec 64) => t.ringBell b.1 b.2.1 b.2.2.1 b.2.2.2.toNat) s1
  s2.mbEnd a.fn status value []

/-- IMAGE_REPORTS_READY (R425, R426): within the deadline; the staged slot becomes active. -/
def execImageReportsReady (s : State) : Host.Outcome State Fault Refusal :=
  match s.activation with
  | none => .next s
  | some a =>
    if !a.begun || a.deadline < s.usec || (a.kind == 1 && s.firmwareTrapped a.idx) then .next s
    else
      let v := fun (u : Unit) => imageVersion a.kind (u.slot (!u.activeB)).img
      let s1 := s.modUnit a.kind a.idx fun u =>
        { u.handOver true (s.handCopy a.kind a.idx (s.version a.kind a.idx) (v u)) with activeB := !u.activeB, rom := false, failed := false }
      .next (s1.endActivation a 0 s.freeValue)

/-- ACTIVATION_WATCHDOG (R424, R427): the unit is reset, and the previous image starts again, or below the floor the ROM image; it reads the copy in
force. The new image may have written its copy of the record, and has not committed it (R428). -/
def execActivationWatchdog (s : State) : Host.Outcome State Fault Refusal :=
  match s.activation with
  | none => .next s
  | some a =>
    if !a.begun || s.usec < a.deadline then .next s
    else
      let u := s.unit a.kind a.idx
      let s0 := if Config.freeChoice s.tick % 2 = 0 then s else
        s.modUnit a.kind a.idx fun u =>
          u.handOver false (s.handCopy a.kind a.idx (s.version a.kind a.idx) (imageVersion a.kind (u.slot (!u.activeB)).img))
      let s1 := s0.restartUnit a.kind a.idx
      if u.rom || s.startable a.kind (u.slot u.activeB) then .next (s1.endActivation a 6 1)
      else .next ((s1.modUnit a.kind a.idx fun u => { u with rom := true }).endActivation a 6 2)

/-! ### System registers, the test drop, thresholds (R242, R332, R404, R408) -/

/-- The RW registers of R242 that SREG reaches. -/
def sregNums : List Nat := [0x0001, 0x0110, 0x0112, 0x0113, 0x0130, 0x0132]

/-- A value is within a register's limits (R242). -/
def Die.sregOk (d : Die) (num v : Nat) : Bool :=
  match num with
  | 0x0001 => decide (v < 2 ^ 32)
  | 0x0110 => decide (1 ≤ v) && decide (v ≤ 4096)
  | 0x0112 => d.ovcUsed == 0 && v % 49152 == 0
  | 0x0113 => d.ovcUsed == 0 && decide (v ≤ 2 ^ 20)
  | 0x0130 => decide (v < 2 ^ 32)
  | _ => true

/-- `GENDROP` summed over a die's cores, saturating at the register's width (R408). -/
def State.gendropSum (s : State) (die : Nat) : Nat := ((List.range 48).map fun c => (s.core (die * 48 + c)).gendrop).foldl (· + ·) 0

/-- SREG (R242, R408): performed by the die's firmware; a read's value is the response (log 37). One that waits for a held firmware raises no
`EVPEND.MBX` (DESIGN CHOICE, log 141). -/
def execSreg (fn die : Nat) (write : Bool) (num : Nat) (value : BitVec 64) (s : State) : Host.Outcome State Fault Refusal :=
  mailbox fn (· == 0x0050) false false (fun _ _ s =>
    let core := die * 48 + Config.firmwareCore
    if 24 ≤ die then s.no 1
    else if (sregInfo num).isNone then s.no 3
    else if !sregNums.contains num || (fn != 0 && !(num == 0x0110 && (s.parts.getD (fn - 1) []).contains die)) then s.no 7
    else if (s.die die).fwHeld then .wait s
    else if write then
      if !(s.die die).sregOk num value.toNat then s.no 3
      else if num = 0x0001 then s.yes ((List.range 48).foldl (fun t c => t.writeSysReg (die * 48 + c) 1 value.toNat) s)
      else s.yes (s.writeSysReg core num value.toNat)
    else
      let v := if num = 0x0001 then min (2 ^ 32 - 1) (s.gendropSum die) else s.sysReg core num
      .done s.freeValue (leBytes 8 v) s) s

/-- The bits of `LOSSDROP` that a write sets (R332). -/
def lossdropMask : BitVec 128 := 0xFFFFFFFFFFFFFFFF8003FFFF00003FFF

/-- LOSSDROP (R332). -/
def execLossdrop (fn : Nat) (value : BitVec 128) (s : State) : Host.Outcome State Fault Refusal :=
  mailbox fn (· == 0x0051) true false (fun _ _ s => s.yes { s with lossdrop := value &&& lossdropMask }) s

/-- HRTSET (R404, R408). -/
def execHrtset (fn : Nat) (stack : Option Nat) (value : Nat) (s : State) : Host.Outcome State Fault Refusal :=
  mailbox fn (· == 0x0053) true false (fun _ _ s =>
    if value < 512 ∨ 65536 < value then s.no 3
    else
      match stack with
      | some k => if 24 ≤ k then s.no 1 else s.yes { s with hrt := modAt s.hrt k fun _ => value }
      | none => s.yes { s with hrt := s.hrt.map fun _ => value }) s

/-! ### Telemetry (R431, R434, R435) -/

/-- How many values a counter has, and whose index each is: 0 a die or its stack, 1 a function, 2 a context, 3 nobody's but the
hypervisor's; and how many values an index has. -/
def telemShape (id : Nat) : Option (Nat × Nat × Nat) :=
  match id with
  | 0x0001 => some (24, 0, 1) | 0x0002 => some (24, 0, 1) | 0x0003 => some (24, 0, 1) | 0x0004 => some (24, 0, 1) | 0x0005 => some (24, 0, 1)
  | 0x0006 => some (24, 0, 1) | 0x0007 => some (9, 1, 1) | 0x0008 => some (9, 1, 1) | 0x0009 => some (9, 1, 1) | 0x000A => some (1024, 2, 1)
  | 0x000B => some (48, 3, 1) | 0x000C => some (4, 3, 1) | 0x0010 => some (24, 0, 1) | 0x0011 => some (48, 3, 1) | 0x0012 => some (24, 0, 1)
  | 0x0013 => some (24, 0, 1) | 0x0014 => some (24, 0, 1) | 0x0015 => some (24, 0, 1) | 0x0016 => some (24, 0, 1) | 0x0020 => some (48, 0, 2)
  | 0x0100 => some (8, 3, 8) | 0x0102 => some (72, 0, 3)
  | _ => none

/-- The soft errors that the environment has given a die since are counted before a counter of them is sampled: how many is free (R435, log 94). -/
def State.softErrors (s : State) (id : Nat) (ps : List Nat) : State :=
  if id = 0x0015 ∨ id = 0x0016 then ps.foldl (fun t p => t.countBy id p (Config.softErrors s.tick id p)) s else s

/-- One value of a counter, by its position (R431, R434, R435). -/
def State.telemValue (s : State) (id pos : Nat) : Nat :=
  match id with
  | 0x0001 => (s.die pos).prsUsed
  | 0x0002 => (s.die pos).ovcUsed
  | 0x0005 => min (2 ^ 64 - 1) (s.gendropSum pos)
  | 0x0020 => let g := Config.powerGauge s.tick (pos / 2); if pos % 2 = 0 then g.1 else g.2
  | 0x0100 => bits s.bootRecord.toNat (64 * pos) 64
  | 0x0102 => let m := (s.die (pos / 3)).margin; if pos % 3 = 0 then m.1 else if pos % 3 = 1 then m.2.1 else m.2.2
  | _ => FMap.getD s.telem (id * 4096 + pos) 0

/-- A function sees an index of a counter (R435). -/
def State.telemSees (s : State) (fn whose idx : Nat) : Bool :=
  fn == 0 ||
  match whose with
  | 0 => (s.parts.getD (fn - 1) []).contains idx
  | 1 => idx == fn
  | 2 => (match s.ctx? idx with | some c => c.owner == fn | none => false)
  | _ => false

/-- TELEM (R435). -/
def execTelem (fn : Nat) (s : State) : Host.Outcome State Fault Refusal :=
  mailbox fn (· == 0x0052) false true (fun cmd m s =>
    let id := reqField m 0 2
    let first := reqField m 2 2
    let n := reqField m 4 2
    match telemShape id with
    | none => s.no 3
    | some (total, whose, k) =>
      if bits cmd.toNat 16 16 < 8 ∨ n = 0 ∨ 512 < n ∨ reqField m 6 2 ≠ 0 ∨ total < first + n then s.no 3
      else
        let ps := (List.range n).map (first + ·)
        if !(ps.all fun p => s.telemSees fn whose (p / k)) then s.no 7
        else let t := s.softErrors id ps
             .done n (ps.flatMap fun p => leBytes 8 (t.telemValue id p)) t) s

end Sys2Proof.Machine
end

