-- ==== Sys2Proof/Machine/Operation.lean ====
section
/-! DEFINITION. Starts, the boot-failure record, clocks, margins and temperature (spec/26, R429 to R436; R25, R412, R416). -/

namespace Sys2Proof.Machine

/-! ### What a start clears (R8, R429, R435) -/

/-- The state without what a loss of power or a reset clears: the image store, the fuses, the non-volatile records, the package's
position, memory and what has already left the package stay; the counters of telemetry, `GENDROP` of each core among them, and the thresholds fall
at a cold reset only (R404, R435). -/
def State.cleared (s : State) (cold : Bool) : State :=
  { State.reset with
    tick := s.tick, agenda := s.agenda, nextId := s.nextId, mem := if cold then [] else s.mem, hostMem := s.hostMem, irqs := s.irqs, pkg := s.pkg,
    ports := s.ports.map (fun p => { Port.reset with sealPolicy := p.sealPolicy }), flitsOut := s.flitsOut,
    telem := if cold then [] else s.telem, units := s.units, manifest := s.manifest, floors := s.floors, bootCount := s.bootCount,
    fails := s.fails, bootRecord := s.bootRecord, hrt := if cold then State.reset.hrt else s.hrt, usec := s.usec,
    cores := if cold then [] else s.cores.map fun c => (c.1, { Core.reset with gendrop := c.2.gendrop }) }

/-! ### Starting (R429, R430) -/

/-- The unit runs the image of a slot, or its ROM image where that slot cannot start (R406, R424). -/
def State.runSlot (s : State) (kind : Nat) (u : Unit) (b : Bool) : Unit :=
  { u with activeB := b, rom := !s.startable kind (u.slot b), next := none, failed := false }

/-- A unit at a start (R408, R429): the slot chosen for the next reset; of one that failed, the other slot, if it holds a verified
image that the rest admits under `BOOT`. -/
def State.chooseSlot (s : State) (kind idx : Nat) : State :=
  let u := s.unit kind idx
  match u.next with
  | some b => s.modUnit kind idx fun u => s.runSlot kind u b
  | none =>
    if u.failed then
      let b := !u.activeB
      let m := Mixture.put s.mixture kind idx (imageVersion kind (u.slot b).img)
      if s.startable kind (u.slot b) && s.admitted m true then s.modUnit kind idx fun u => s.runSlot kind u b
      else s.modUnit kind idx fun u => s.runSlot kind u u.activeB
    else s.modUnit kind idx fun u => s.runSlot kind u u.activeB

/-- The margins that a start's re-planning finds (R434): an offset within the die's limit, and only at the limit a cap lower than 1.75 GHz, in steps
of 25 MHz and not below 1.0 GHz. -/
def startMargins (tick die : Nat) : Nat × Nat × Nat :=
  let m := Config.startMargin tick die
  (m.1, min m.2.1 (Config.offsetLimit die), if Config.offsetLimit die ≤ m.2.1 then 1750 - 25 * min 30 m.2.2 else 1750)

/-- The speed in GT/s and the width that a CXL link trains to (R399): 64, 32 or 16, x16 or x8, or it does not train. -/
def cxlTrained (tick link : Nat) : Nat × Nat :=
  let m := Config.cxlTrain tick link
  match m.1 % 4 with
  | 0 => (64, if m.2 % 2 = 0 then 16 else 8) | 1 => (32, if m.2 % 2 = 0 then 16 else 8) | 2 => (16, if m.2 % 2 = 0 then 16 else 8) | _ => (0, 0)

/-- The keys that a start deals (R405, R412): one per die-to-die link and memory interface, from the key generator, with epoch 1. A compute die has
them wrapped under its own key; the ends of the IO dies and of the base dies receive theirs as next keys. -/
def State.dealKeys (s : State) : State :=
  let key := fun (n : Nat) => Config.keygen s.bootCount (s.drawn + n)
  let wrap := fun (die n : Nat) => wrapOf die 1 (key n)
  let ends := dieLinks.zipIdx.flatMap fun l => ([l.1.1, l.1.2] : List Nat).map fun d => (d, ((linksOf d).findIdx? (· == l.1)).getD 0, l.2)
  let near := (ends.filter fun e => e.1 < 24).map fun e => (e.1 * 128 + e.2.1, wrap e.1 e.2.2)
  let mem := (List.range 24).map fun d => (d * 128 + 64, wrap d (dieLinks.length + d))
  let io := (ends.filter fun e => 24 ≤ e.1).map fun e => (e.1 * 128 + e.2.1, KeySlot.empty.load (1, key e.2.2))
  let s1 : State := { s with keyWraps := (near ++ mem).foldl (fun m k => FMap.set m k.1 k.2) [], ioKeys := io.foldl (fun m k => FMap.set m k.1 k.2) [],
                             baseKeys := (List.range 24).map fun d => (d, KeySlot.empty.load (1, key (dieLinks.length + d))),
                             drawn := s.drawn + dieLinks.length + 24 }
  (List.range 24).foldl (fun (t : State) d => t.modDie d fun x => { x with mbxWaits := true }.settle) s1

/-- What runs after a start (R239, R405, R412): the keys are dealt, and the firmware of every die stands at its entry. -/
def State.bringUp (s : State) : State := (List.range 24).foldl State.startFirmware s.dealKeys

/-- START (R399, R416, R429, R430, R434, R436): slots are chosen, and the CXL links train; after the third failure in a row, minimal mode, which
counts as a success and has link 0 only. After a loss of power it is a cold start, and an ordinary one. -/
def execStart (cold : Bool) (s : State) : Host.Outcome State Fault Refusal :=
  let s0 := s.cleared (cold || s.powerOff)
  let ports := (s0.ports.take 48).zipIdx.map fun p => { p.1 with sealPolicy := Config.portSeal (s0.bootCount + 1) p.2 }
  let s1 := { s0 with ports := ports, bootCount := (s0.bootCount + 1) % 2 ^ 32, boot := .starting, startDue := s.usec + 30 * 10 ^ 6,
                      replanDue := s.usec + 720 * 3600 * 10 ^ 6, cxlLinks := [cxlTrained s.tick 0, cxlTrained s.tick 1] }
  if 3 ≤ s.fails && !s.powerOff then
    let s2 := allUnits.foldl (fun t u => t.modUnit u.1 u.2 fun x => { x with rom := true, next := none, failed := false }) s1
    let s3 := (List.range 24).foldl (fun (t : State) k => t.modDie k fun d => { d with margin := (0, 0, 1000) }) s2
    .next { s3.bringUp with minimal := true, fails := 0, boot := .ready, cxlLinks := [cxlTrained s.tick 0, (0, 0)] }
  else
    -- the units that did not fail first: the others are admitted together with the rest
    let (bad, good) := allUnits.partition fun u => (s1.unit u.1 u.2).failed && (s1.unit u.1 u.2).next.isNone
    let s2 := (good ++ bad).foldl (fun t u => t.chooseSlot u.1 u.2) s1
    .next ((List.range 24).foldl (fun (t : State) k => t.modDie k fun d => { d with margin := startMargins s.tick k }) s2).bringUp

/-- START_SUCCEEDS (R416, R429): every certificate verifies, every unit runs an admitted image, within 30 s. -/
def execStartSucceeds (s : State) : Host.Outcome State Fault Refusal :=
  if s.boot = .starting ∧ s.usec ≤ s.startDue ∧ s.admitted s.mixture true = true ∧ (List.range 52).all Config.certOk = true then
    .next { s with boot := .ready, fails := 0 }
  else .next s

/-- A boot-failure record (R431): its fields placed. -/
def bootRecordOf (boot reason kind idx slot version fails : Nat) : BitVec 512 :=
  BitVec.ofNat 512 (boot % 2 ^ 32 * 2 ^ 480 + reason % 256 * 2 ^ 472 + kind % 256 * 2 ^ 464 + idx % 256 * 2 ^ 456 + slot % 2 * 2 ^ 455 +
    version % 2 ^ 32 * 2 ^ 416 + fails % 256 * 2 ^ 408)

/-- The reason of a failure may hold (R416, R429, R431): a unit neither of whose slots is verified, or that is not ready in time; a bad certificate; a
mixture that is not admitted; a CXL link 0 that has not trained; what befalls the stacks and the supply is the environment's. -/
def State.failReason (s : State) (reason kind idx : Nat) : Bool :=
  decide (1 ≤ reason) && decide (reason ≤ 7) &&
  (match reason with
    | 1 => decide (idx < unitCount kind) && !(s.unit kind idx).slotA.ok && !(s.unit kind idx).slotB.ok
    | 2 => decide (idx < unitCount kind) && decide (s.startDue < s.usec)
    | 3 => !((List.range 52).all Config.certOk)
    | 4 => !s.admitted s.mixture true
    | 6 => s.cxlLinks.getD 0 (0, 0) == (0, 0)
    | _ => true)

/-- START_FAIL (R429, R431): the count rises, the record is written of one unit, and every unit that failed, `failed.more` among them, is remembered for the
next start. -/
def execStartFail (reason kind : Nat) (failed : FailedUnits) (s : State) : Host.Outcome State Fault Refusal :=
  let idx := failed.idx
  if s.boot ≠ .starting || !s.failReason reason kind idx then .next s
  else
    let isUnit := decide (idx < unitCount kind)
    let k := if isUnit then kind else 0
    let u := s.unit kind idx
    let fails := min 3 (s.fails + 1)
    let slot := if isUnit then (if u.activeB then 1 else 0) else (Config.freeWord s.tick).toNat
    let version := if isUnit then s.version kind idx else (Config.freeOf 0x0100 s.tick).toNat
    let s1 := { s with boot := .off, fails := fails, bootRecord := bootRecordOf s.bootCount reason k idx slot version fails }
    .next ((((kind, idx) :: failed.more).filter fun x => x.2 < unitCount x.1).foldl (fun t x => t.modUnit x.1 x.2 fun u => { u with failed := true }) s1)

/-! ### Clocks, margins, power and temperature (R25, R433, R434, R436) -/

/-- A die's clock changed, if there is such a die. -/
def State.clock (s : State) (die : Nat) (f : Die → Die) : State := if die < 24 then s.modDie die f else s

/-- THERMAL_THROTTLE (R436). -/
def execThermalThrottle (die : Nat) (s : State) : Host.Outcome State Fault Refusal := .next (s.clock die fun d => { d with throttled := true })
/-- THERMAL_THROTTLE_END (R436). -/
def execThermalThrottleEnd (die : Nat) (s : State) : Host.Outcome State Fault Refusal := .next (s.clock die fun d => { d with throttled := false })
/-- POWER_SHARE_REACHED (R25). -/
def execPowerShareReached (die : Nat) (s : State) : Host.Outcome State Fault Refusal := .next (s.clock die fun d => { d with shareLow := true })

/-- THERMAL_SHUTDOWN (R431, R436): power is removed, and the record is written; what the record's unit fields hold is not stated. -/
def execThermalShutdown (chiplet : Nat) (s : State) : Host.Outcome State Fault Refusal :=
  if 52 ≤ chiplet || s.powerOff then .next s
  else
    let v := (Config.freeWord s.tick).toNat
    .next { s.cleared true with powerOff := true, telem := s.telem, hrt := s.hrt,
                                bootRecord := bootRecordOf s.bootCount 7 (bits v 0 8 % 6) (bits v 8 8) (bits v 16 1) (bits v 17 32) 0 }

/-- DROOP_DETECT (R433, R435). -/
def execDroopDetect (die : Nat) (s : State) : Host.Outcome State Fault Refusal :=
  if 24 ≤ die || (s.die die).stretched then .next s else .next ((s.clock die fun d => { d with stretched := true }).count 0x13 die)
/-- DROOP_RECOVER (R433). -/
def execDroopRecover (die : Nat) (s : State) : Host.Outcome State Fault Refusal := .next (s.clock die fun d => { d with stretched := false })

/-- A step of a re-plan of one die (R434): its offset rises by at most 5 mV, to its limit at most; its cap falls, by 25 MHz and not below 1.0 GHz, only
where the offset stands at the limit. -/
def stepOk (die : Nat) (old new : Nat × Nat × Nat) : Bool :=
  decide (old.2.1 ≤ new.2.1) && decide (new.2.1 ≤ old.2.1 + 5) && (new.2.1 == old.2.1 || decide (new.2.1 ≤ Config.offsetLimit die)) &&
  (new.2.2 == old.2.2 || (new.2.2 + 25 == old.2.2 && decide (1000 ≤ new.2.2) && decide (Config.offsetLimit die ≤ old.2.1)))

/-- A step of a re-plan of every die. -/
def State.planOk (s : State) (plan : List (Nat × Nat × Nat)) : Bool :=
  plan.length == 24 && plan.zipIdx.all fun p => stepOk p.2 (s.die p.2).margin p.1

/-- MARGIN_REPLAN (R430, R434, R436): a step of a re-plan, which falls due every 720 hours; its steps are at least 1 ms apart; not in minimal mode,
without power, or while the management controller is switched. -/
def execMarginReplan (plan : MarginStep) (s : State) : Host.Outcome State Fault Refusal :=
  let early := match s.replanStep with | some t => decide (s.usec < t + 1000) | none => decide (s.usec < s.replanDue)
  if s.minimal || s.powerOff || s.mbHeld || early || !s.planOk plan.margins then .next s
  else
    let s1 := plan.margins.zipIdx.foldl (fun (t : State) p => t.modDie p.2 fun d => { d with margin := p.1 }) s
    .next (if plan.last then { s1 with replanDue := s.usec + 720 * 3600 * 10 ^ 6, replanStep := none } else { s1 with replanStep := some s.usec })

end Sys2Proof.Machine
end

