-- ==== Sys2Proof/Machine/Return.lean ====
section
/-! DEFINITION. The return of variable-latency results (R38 to R41, R49): what is performed after its issue is performed here. -/

namespace Sys2Proof.Machine

/-- A privileged instruction of the MEM pipe (R250 to R253, R256): it is not performed while an earlier phase of its wave is pending (R182). -/
def memSystem : Instr → Bool
  | .dbgrd .. => true | .dbgwr .. => true | .ctxsv .. => true | .ctxld .. => true | .tinv .. => true | .prsrs .. => true | .scrub .. => true
  | _ => false

/-- An operation that acts on more than its wave's memory is performed as far as it can be, in its wave's name. -/
def State.performOp (s : State) (id : Nat) (o : Op) : State :=
  if o.done || (memSystem o.instr && s.phasePending o.wave id) then s
  else
    match o.instr with
    | .claim .. => s.performClaim id o
    | .tret .. => s.performTret id o
    | .schrd .. => s.performSchrd id o
    | .schwr .. => s.performSchwr id o
    | .schcm .. => s.performSchcm id o
    | .spawn .. => s.performSpawn id o
    | .postr .. => s.performPostr id o
    | .canrv .. => s.performCanrv id o
    | .probe .. => s.performProbe id o
    | .qpop _ _ q => s.performPop id o (Queue.num q) true
    | .qtry _ _ q => s.performPop id o (Queue.num q) false
    | .qlvl _ _ q => s.performLevel id o (Queue.num q)
    | .merr .. => s.performMerr id o
    | .mred _ bf init _ _ _ _ => s.performMred id o bf init []
    | .mrsc _ bf _ _ _ => s.performMrsc id o bf
    | .ctxsv .. => s.performCtxsv id o
    | .ctxld .. => s.performCtxld id o
    | .tinv .. => s.performTinv id o
    | .prsrs _ act _ _ => s.performPrsrs id o act
    | .halt .. => s.performHalt id o
    | .rte _ act _ _ => s.performRte id o act
    | .idle .. => s.performIdle id o
    | .fwsig .. => s.performFwsig id o
    | .keyld .. => s.performKeyld id o
    | .tckt _ clr _ _ _ => s.performTckt id o clr
    | .scrub _ tgt _ _ _ => s.performScrub id o tgt
    | .dbgrd .. => s.performDbgrd id o
    | .dbgwr .. => s.performDbgwr id o
    | _ => s

/-- VARIABLE_RESULT_RETURN (R41, R49): the operation's wave performs what is older and may be performed, then the operation; when
it has been performed its result returns. The operations of a saved wave are not performed, but what is performed returns to the
frame (R383). -/
def execVariableResultReturn (op : Nat) (s : State) : Host.Outcome State Fault Refusal :=
  match FMap.get? s.ops op with
  | none => .next s
  | some o =>
    if o.done then .next (if returns o.instr then s.returnOp op else s.reap op)
    else
      match s.wave? o.wave with
      | none => .next s
      | some _ =>
        let s1 := s.pump o.wave op
        match FMap.get? s1.ops op with
        | none => .next s1
        | some o1 =>
          let s2 := s1.performOp op o1
          .next (if returns o1.instr then s2.returnOp op else s2.reap op)

end Sys2Proof.Machine
end

