-- ==== Sys2Proof/Machine/Dispatch.lean ====
section
/-! DEFINITION. The meaning of every instruction and event: one arm per constructor, each a direct call. -/

namespace Sys2Proof.Machine

/-- The meaning of an instruction of the wave `cur`, or of an event. -/
def exec (i : Instr) (s : State) : Host.Outcome State Fault Refusal :=
  match i with
  | .hdr n pipes wait setA setB => Sys2Proof.Machine.execHdr n pipes wait setA setB s
  | .nop c => Sys2Proof.Machine.execNop c s
  | .bra c hint off => Sys2Proof.Machine.execBra c hint off s
  | .jmp c off => Sys2Proof.Machine.execJmp c off s
  | .jmpi c a => Sys2Proof.Machine.execJmpi c a s
  | .call c d off => Sys2Proof.Machine.execCall c d off s
  | .calli c d a => Sys2Proof.Machine.execCalli c d a s
  | .ret c a => Sys2Proof.Machine.execRet c a s
  | .exit c => Sys2Proof.Machine.execExit c s
  | .waitf c mask => Sys2Proof.Machine.execWaitf c mask s
  | .yieldI c => Sys2Proof.Machine.execYieldI c s
  | .bar c sel => Sys2Proof.Machine.execBar c sel s
  | .bara c sel => Sys2Proof.Machine.execBara c sel s
  | .barw c sel => Sys2Proof.Machine.execBarw c sel s
  | .swait c cmp dbl d m => Sys2Proof.Machine.execSwait c cmp dbl d m s
  | .swake c m => Sys2Proof.Machine.execSwake c m s
  | .cvset c cv a => Sys2Proof.Machine.execCvset c cv a s
  | .cvsign c cv => Sys2Proof.Machine.execCvsign c cv s
  | .getid c w d xs => Sys2Proof.Machine.execGetid c w d xs s
  | .getenv c w d xs => Sys2Proof.Machine.execGetenv c w d xs s
  | .claim c d => Sys2Proof.Machine.execClaim c d s
  | .tret c abn a => Sys2Proof.Machine.execTret c abn a s
  | .schrd c sh d n => Sys2Proof.Machine.execSchrd c sh d n s
  | .schwr c n a => Sys2Proof.Machine.execSchwr c n a s
  | .schcm c d => Sys2Proof.Machine.execSchcm c d s
  | .spawn c d a b => Sys2Proof.Machine.execSpawn c d a b s
  | .brk c imm => Sys2Proof.Machine.execBrk c imm s
  | .trap c imm => Sys2Proof.Machine.execTrap c imm s
  | .errrd c d xs => Sys2Proof.Machine.execErrrd c d xs s
  | .iadd c t d a b => Sys2Proof.Machine.execIadd c t d a b s
  | .isub c t d a b => Sys2Proof.Machine.execIsub c t d a b s
  | .isum c t d a b r => Sys2Proof.Machine.execIsum c t d a b r s
  | .iadds c sub t d a b => Sys2Proof.Machine.execIadds c sub t d a b s
  | .imul c t d a b => Sys2Proof.Machine.execImul c t d a b s
  | .imulh c t d a b => Sys2Proof.Machine.execImulh c t d a b s
  | .imad c t d a b r => Sys2Proof.Machine.execImad c t d a b r s
  | .imadw c t d a b r => Sys2Proof.Machine.execImadw c t d a b r s
  | .iadd64 c x d a b => Sys2Proof.Machine.execIadd64 c x d a b s
  | .isub64 c x d a b => Sys2Proof.Machine.execIsub64 c x d a b s
  | .imin c t d a b => Sys2Proof.Machine.execImin c t d a b s
  | .imax c t d a b => Sys2Proof.Machine.execImax c t d a b s
  | .iabs c sat t d a => Sys2Proof.Machine.execIabs c sat t d a s
  | .ineg c sat t d a => Sys2Proof.Machine.execIneg c sat t d a s
  | .idiv c t d a b => Sys2Proof.Machine.execIdiv c t d a b s
  | .irem c t d a b => Sys2Proof.Machine.execIrem c t d a b s
  | .and c d a b => Sys2Proof.Machine.execAnd c d a b s
  | .or c d a b => Sys2Proof.Machine.execOr c d a b s
  | .xor c d a b => Sys2Proof.Machine.execXor c d a b s
  | .andn c d a b => Sys2Proof.Machine.execAndn c d a b s
  | .blut c lut d a b r => Sys2Proof.Machine.execBlut c lut d a b r s
  | .shl c d a b => Sys2Proof.Machine.execShl c d a b s
  | .shr c d a b => Sys2Proof.Machine.execShr c d a b s
  | .sar c d a b => Sys2Proof.Machine.execSar c d a b s
  | .rot c right d a b => Sys2Proof.Machine.execRot c right d a b s
  | .fshf c left d a b r => Sys2Proof.Machine.execFshf c left d a b r s
  | .bfx c signed d a b => Sys2Proof.Machine.execBfx c signed d a b s
  | .bfi c d a b r => Sys2Proof.Machine.execBfi c d a b r s
  | .popc c d a => Sys2Proof.Machine.execPopc c d a s
  | .clz c d a => Sys2Proof.Machine.execClz c d a s
  | .ctz c d a => Sys2Proof.Machine.execCtz c d a s
  | .brev c d a => Sys2Proof.Machine.execBrev c d a s
  | .icmp c t cmp comb bit d a b => Sys2Proof.Machine.execIcmp c t cmp comb bit d a b s
  | .sel c bit d a b r => Sys2Proof.Machine.execSel c bit d a b r s
  | .lea c x3 z xs d a b => Sys2Proof.Machine.execLea c x3 z xs d a b s
  | .mov c d xs => Sys2Proof.Machine.execMov c d xs s
  | .movi c d imm => Sys2Proof.Machine.execMovi c d imm s
  | .pset c z comb bit d a b => Sys2Proof.Machine.execPset c z comb bit d a b s
  | .bmsk c d a b => Sys2Proof.Machine.execBmsk c d a b s
  | .fadd c m d a b => Sys2Proof.Machine.execFadd c m d a b s
  | .fsub c m d a b => Sys2Proof.Machine.execFsub c m d a b s
  | .fmul c m d a b => Sys2Proof.Machine.execFmul c m d a b s
  | .ffma c m d a b r => Sys2Proof.Machine.execFfma c m d a b r s
  | .fmin c d a b => Sys2Proof.Machine.execFmin c d a b s
  | .fmax c d a b => Sys2Proof.Machine.execFmax c d a b s
  | .fcmp c cmp comb bit d a b => Sys2Proof.Machine.execFcmp c cmp comb bit d a b s
  | .fclass c comb bit d a b => Sys2Proof.Machine.execFclass c comb bit d a b s
  | .frnd c m d a b => Sys2Proof.Machine.execFrnd c m d a b s
  | .fscalb c m d a b => Sys2Proof.Machine.execFscalb c m d a b s
  | .fclamp c d a b r => Sys2Proof.Machine.execFclamp c d a b r s
  | .frcp c m d a => Sys2Proof.Machine.execFrcp c m d a s
  | .frsq c m d a => Sys2Proof.Machine.execFrsq c m d a s
  | .fsqrt c m d a => Sys2Proof.Machine.execFsqrt c m d a s
  | .fdiv c m d a b => Sys2Proof.Machine.execFdiv c m d a b s
  | .fex2 c d a => Sys2Proof.Machine.execFex2 c d a s
  | .flg2 c d a => Sys2Proof.Machine.execFlg2 c d a s
  | .fsin c d a => Sys2Proof.Machine.execFsin c d a s
  | .fcos c d a => Sys2Proof.Machine.execFcos c d a s
  | .ftanh c d a => Sys2Proof.Machine.execFtanh c d a s
  | .fsigm c d a => Sys2Proof.Machine.execFsigm c d a s
  | .hadd2 c bf m d a b => Sys2Proof.Machine.execHadd2 c bf m d a b s
  | .hmul2 c bf m d a b => Sys2Proof.Machine.execHmul2 c bf m d a b s
  | .hfma2 c bf m d a b r => Sys2Proof.Machine.execHfma2 c bf m d a b r s
  | .hmnmx2 c max bf d a b => Sys2Proof.Machine.execHmnmx2 c max bf d a b s
  | .hcmp2 c bf cmp comb bit d a b => Sys2Proof.Machine.execHcmp2 c bf cmp comb bit d a b s
  | .dadd c m d a b => Sys2Proof.Machine.execDadd c m d a b s
  | .dmul c m d a b => Sys2Proof.Machine.execDmul c m d a b s
  | .dfma c m d a b r => Sys2Proof.Machine.execDfma c m d a b r s
  | .dmnmx c max d a b => Sys2Proof.Machine.execDmnmx c max d a b s
  | .dcmp c cmp comb bit d a b => Sys2Proof.Machine.execDcmp c cmp comb bit d a b s
  | .drnd c m d a => Sys2Proof.Machine.execDrnd c m d a s
  | .fcvt c dst src sat m dsel ssel d a => Sys2Proof.Machine.execFcvt c dst src sat m dsel ssel d a s
  | .f2i c it ft m ssel d a => Sys2Proof.Machine.execF2i c it ft m ssel d a s
  | .i2f c ft it sat m dsel d a => Sys2Proof.Machine.execI2f c ft it sat m dsel d a s
  | .dot2 c bf m d a b r => Sys2Proof.Machine.execDot2 c bf m d a b r s
  | .dot4 c ae5 be5 m d a b r => Sys2Proof.Machine.execDot4 c ae5 be5 m d a b r s
  | .shfl c mode w d a b => Sys2Proof.Machine.execShfl c mode w d a b s
  | .vote c mode bit d a => Sys2Proof.Machine.execVote c mode bit d a s
  | .bcast c w d a b => Sys2Proof.Machine.execBcast c w d a b s
  | .lred c op xs m d a => Sys2Proof.Machine.execLred c op xs m d a s
  | .lscan c op exc xs m d a => Sys2Proof.Machine.execLscan c op exc xs m d a s
  | .matchL c dbl d a => Sys2Proof.Machine.execMatchL c dbl d a s
  | .actm c d => Sys2Proof.Machine.execActm c d s
  | .ldg c size na d m => Sys2Proof.Machine.execLdg c size na d m s
  | .stg c size d m => Sys2Proof.Machine.execStg c size d m s
  | .lds c size d m => Sys2Proof.Machine.execLds c size d m s
  | .sts c size d m => Sys2Proof.Machine.execSts c size d m s
  | .ldr c size d m => Sys2Proof.Machine.execLdr c size d m s
  | .str c size d m => Sys2Proof.Machine.execStr c size d m s
  | .atomg c op dbl scope ntf d a b n => Sys2Proof.Machine.execAtomg c op dbl scope ntf d a b n s
  | .redg c op dbl scope ntf a b => Sys2Proof.Machine.execRedg c op dbl scope ntf a b s
  | .atoms c op dbl d a b n => Sys2Proof.Machine.execAtoms c op dbl d a b n s
  | .phase c opt scope => Sys2Proof.Machine.execPhase c opt scope s
  | .cmaint c op lvl a b => Sys2Proof.Machine.execCmaint c op lvl a b s
  | .pref c l2 m => Sys2Proof.Machine.execPref c l2 m s
  | .waycfg c d b => Sys2Proof.Machine.execWaycfg c d b s
  | .spmark c st a b => Sys2Proof.Machine.execSpmark c st a b s
  | .sptest c d b => Sys2Proof.Machine.execSptest c d b s
  | .accld c a b r => Sys2Proof.Machine.execAccld c a b r s
  | .accst c a b r => Sys2Proof.Machine.execAccst c a b r s
  | .accz c a => Sys2Proof.Machine.execAccz c a s
  | .acccp c a b => Sys2Proof.Machine.execAcccp c a b s
  | .acccv c fmt sat m a b r => Sys2Proof.Machine.execAcccv c fmt sat m a b r s
  | .mmaf c cv a b => Sys2Proof.Machine.execMmaf c cv a b s
  | .mmab c cv a b => Sys2Proof.Machine.execMmab c cv a b s
  | .mmah c cv a b => Sys2Proof.Machine.execMmah c cv a b s
  | .mmae4 c sc cv ba bb a b r d => Sys2Proof.Machine.execMmae4 c sc cv ba bb a b r d s
  | .mmae5 c sc cv ba bb a b r d => Sys2Proof.Machine.execMmae5 c sc cv ba bb a b r d s
  | .mman c ka kb cv ba bb a b r d => Sys2Proof.Machine.execMman c ka kb cv ba bb a b r d s
  | .merr c d => Sys2Proof.Machine.execMerr c d s
  | .plpack c p d a => Sys2Proof.Machine.execPlpack c p d a s
  | .plunpk c k val d a stride chunk => Sys2Proof.Machine.execPlunpk c k val d a stride chunk s
  | .bscale c tgt d a => Sys2Proof.Machine.execBscale c tgt d a s
  | .sccv c tgt sat m dby sby d a b => Sys2Proof.Machine.execSccv c tgt sat m dby sby d a b s
  | .mred c bf init d a b r => Sys2Proof.Machine.execMred c bf init d a b r s
  | .mrsc c bf a b r => Sys2Proof.Machine.execMrsc c bf a b r s
  | .qpush c q a => Sys2Proof.Machine.execQpush c q a s
  | .qpop c d q => Sys2Proof.Machine.execQpop c d q s
  | .qtry c d q => Sys2Proof.Machine.execQtry c d q s
  | .qlvl c d q => Sys2Proof.Machine.execQlvl c d q s
  | .cpyt c st a b r d => Sys2Proof.Machine.execCpyt c st a b r d s
  | .cpyl c dir a b r d => Sys2Proof.Machine.execCpyl c dir a b r d s
  | .cpyh c put a b r => Sys2Proof.Machine.execCpyh c put a b r s
  | .gath c l2 a b => Sys2Proof.Machine.execGath c l2 a b s
  | .scat c a b => Sys2Proof.Machine.execScat c a b s
  | .layx c a b => Sys2Proof.Machine.execLayx c a b s
  | .waitc c cls n => Sys2Proof.Machine.execWaitc c cls n s
  | .send c g a b => Sys2Proof.Machine.execSend c g a b s
  | .sendl c g a b => Sys2Proof.Machine.execSendl c g a b s
  | .postr c d a => Sys2Proof.Machine.execPostr c d a s
  | .canrv c d a => Sys2Proof.Machine.execCanrv c d a s
  | .probe c d a => Sys2Proof.Machine.execProbe c d a s
  | .mfsr c w d num => Sys2Proof.Machine.execMfsr c w d num s
  | .mtsr c w num a => Sys2Proof.Machine.execMtsr c w num a s
  | .rte c act d a => Sys2Proof.Machine.execRte c act d a s
  | .ctxsv c d a b => Sys2Proof.Machine.execCtxsv c d a b s
  | .ctxld c d a b => Sys2Proof.Machine.execCtxld c d a b s
  | .tinv c d a => Sys2Proof.Machine.execTinv c d a s
  | .prsrs c act d a => Sys2Proof.Machine.execPrsrs c act d a s
  | .halt c d a => Sys2Proof.Machine.execHalt c d a s
  | .idle c d => Sys2Proof.Machine.execIdle c d s
  | .fwsig c d a => Sys2Proof.Machine.execFwsig c d a s
  | .keyld c d a b => Sys2Proof.Machine.execKeyld c d a b s
  | .tckt c clr d a b => Sys2Proof.Machine.execTckt c clr d a b s
  | .scrub c tgt d a b => Sys2Proof.Machine.execScrub c tgt d a b s
  | .dbgrd c d a b => Sys2Proof.Machine.execDbgrd c d a b s
  | .dbgwr c d a b r => Sys2Proof.Machine.execDbgwr c d a b r s
  | .variableResultReturn op => Sys2Proof.Machine.execVariableResultReturn op s
  | .engineOperandRelease cmd => Sys2Proof.Machine.execEngineOperandRelease cmd s
  | .matrixOperandRead mop core q => Sys2Proof.Machine.execMatrixOperandRead mop core q s
  | .matrixComplete mop errs => Sys2Proof.Machine.execMatrixComplete mop errs s
  | .waycfgComplete op => Sys2Proof.Machine.execWaycfgComplete op s
  | .engineTake cmd => Sys2Proof.Machine.execEngineTake cmd s
  | .engineComplete cmd => Sys2Proof.Machine.execEngineComplete cmd s
  | .mergeTableFullRetry die => Sys2Proof.Machine.execMergeTableFullRetry die s
  | .faultRecordWrite die => Sys2Proof.Machine.execFaultRecordWrite die s
  | .overflowMoveIn die => Sys2Proof.Machine.execOverflowMoveIn die s
  | .ingressHeldEnterRing die => Sys2Proof.Machine.execIngressHeldEnterRing die s
  | .resolveReplay fn die w => Sys2Proof.Machine.execResolveReplay fn die w s
  | .resolvePoison fn die w => Sys2Proof.Machine.execResolvePoison fn die w s
  | .resolveKill fn die w => Sys2Proof.Machine.execResolveKill fn die w s
  | .resolutionDiscard fn die w => Sys2Proof.Machine.execResolutionDiscard fn die w s
  | .faultQueueTailWrite fn die w => Sys2Proof.Machine.execFaultQueueTailWrite fn die w s
  | .requesterReplay die entry => Sys2Proof.Machine.execRequesterReplay die entry s
  | .sealedPageImport die req => Sys2Proof.Machine.execSealedPageImport die req s
  | .swaitTableFullRecheck die wave lane => Sys2Proof.Machine.execSwaitTableFullRecheck die wave lane s
  | .swappedRecheck wg wave lane => Sys2Proof.Machine.execSwappedRecheck wg wave lane s
  | .swapOut node => Sys2Proof.Machine.execSwapOut node s
  | .swapRestore node die cores => Sys2Proof.Machine.execSwapRestore node die cores s
  | .doorbellWrite fn ctx q count => Sys2Proof.Machine.execDoorbellWrite fn ctx q count s
  | .commandTake ctx q => Sys2Proof.Machine.execCommandTake ctx q s
  | .semaphoreRecheck node => Sys2Proof.Machine.execSemaphoreRecheck node s
  | .nodeEligible node => Sys2Proof.Machine.execNodeEligible node s
  | .dispatch => Sys2Proof.Machine.execDispatch s
  | .workgroupPlace node die cores => Sys2Proof.Machine.execWorkgroupPlace node die cores s
  | .threadStart gang => Sys2Proof.Machine.execThreadStart gang s
  | .workgroupRetire wg => Sys2Proof.Machine.execWorkgroupRetire wg s
  | .preemptVictim node => Sys2Proof.Machine.execPreemptVictim node s
  | .graceExpiry node => Sys2Proof.Machine.execGraceExpiry node s
  | .preclaimRefill die node => Sys2Proof.Machine.execPreclaimRefill die node s
  | .headerArrival msg => Sys2Proof.Machine.execHeaderArrival msg s
  | .headerAccept msg => Sys2Proof.Machine.execHeaderAccept msg s
  | .headerRefuse msg => Sys2Proof.Machine.execHeaderRefuse msg s
  | .headerRetry msg => Sys2Proof.Machine.execHeaderRetry msg s
  | .payloadBlockArrival msg block => Sys2Proof.Machine.execPayloadBlockArrival msg block s
  | .endMarkerArrival msg => Sys2Proof.Machine.execEndMarkerArrival msg s
  | .endAcknowledgement msg => Sys2Proof.Machine.execEndAcknowledgement msg s
  | .receiveCompletionRelease wave => Sys2Proof.Machine.execReceiveCompletionRelease wave s
  | .wcbDrain core idx => Sys2Proof.Machine.execWcbDrain core idx s
  | .fabricAccessArrival acc => Sys2Proof.Machine.execFabricAccessArrival acc s
  | .flitReceive port flit => Sys2Proof.Machine.execFlitReceive port flit s
  | .nackReceive port cls seq => Sys2Proof.Machine.execNackReceive port cls seq s
  | .replayTimeout port cls => Sys2Proof.Machine.execReplayTimeout port cls s
  | .ackInterval port cls => Sys2Proof.Machine.execAckInterval port cls s
  | .portFail port cause => Sys2Proof.Machine.execPortFail port cause s
  | .linkTraining port trained peer report share sig => Sys2Proof.Machine.execLinkTraining port trained peer report share sig s
  | .keyEpochSwitch die kind slot => Sys2Proof.Machine.execKeyEpochSwitch die kind slot s
  | .eviction xat sector => Sys2Proof.Machine.execEviction xat sector s
  | .hostCxlAccess write target data => Sys2Proof.Machine.execHostCxlAccess write target data s
  | .trbTailWrite die v => Sys2Proof.Machine.execTrbTailWrite die v s
  | .evpendWrite die v => Sys2Proof.Machine.execEvpendWrite die v s
  | .timerExpiry die => Sys2Proof.Machine.execTimerExpiry die s
  | .registerWrite fn r v => Sys2Proof.Machine.execRegisterWrite fn r v s
  | .ident fn => Sys2Proof.Machine.execIdent fn s
  | .attest fn nonce addr => Sys2Proof.Machine.execAttest fn nonce addr s
  | .ctxcrt fn => Sys2Proof.Machine.execCtxcrt fn s
  | .ctxend fn ctx => Sys2Proof.Machine.execCtxend fn ctx s
  | .asidrt fn vmid asid => Sys2Proof.Machine.execAsidrt fn vmid asid s
  | .s2root fn vmid root => Sys2Proof.Machine.execS2root fn vmid root s
  | .pageout fn ctx va addr => Sys2Proof.Machine.execPageout fn ctx va addr s
  | .partset fn parts => Sys2Proof.Machine.execPartset fn parts s
  | .hrun fn runs => Sys2Proof.Machine.execHrun fn runs s
  | .pamtld fn ranges => Sys2Proof.Machine.execPamtld fn ranges s
  | .apert fn ctx idx desc => Sys2Proof.Machine.execApert fn ctx idx desc s
  | .exportWin fn win entry => Sys2Proof.Machine.execExportWin fn win entry s
  | .revoke fn win => Sys2Proof.Machine.execRevoke fn win s
  | .sopen fn ctxs hbt grc verifierKey => Sys2Proof.Machine.execSopen fn ctxs hbt grc verifierKey s
  | .sbeat fn counter tag => Sys2Proof.Machine.execSbeat fn counter tag s
  | .sresume fn counter tag => Sys2Proof.Machine.execSresume fn counter tag s
  | .sclose fn => Sys2Proof.Machine.execSclose fn s
  | .stage fn kind idx img => Sys2Proof.Machine.execStage fn kind idx img s
  | .activateLive fn kind idx => Sys2Proof.Machine.execActivateLive fn kind idx s
  | .activateNextReset fn kind idx => Sys2Proof.Machine.execActivateNextReset fn kind idx s
  | .manifest fn m => Sys2Proof.Machine.execManifest fn m s
  | .floor fn => Sys2Proof.Machine.execFloor fn s
  | .sreg fn die write num value => Sys2Proof.Machine.execSreg fn die write num value s
  | .lossdrop fn value => Sys2Proof.Machine.execLossdrop fn value s
  | .telem fn => Sys2Proof.Machine.execTelem fn s
  | .hrtset fn stack value => Sys2Proof.Machine.execHrtset fn stack value s
  | .mailboxUnknownCommand fn => Sys2Proof.Machine.execMailboxUnknownCommand fn s
  | .activationWatchdog => Sys2Proof.Machine.execActivationWatchdog s
  | .heartbeatExpiry session => Sys2Proof.Machine.execHeartbeatExpiry session s
  | .sessionGraceEnd session => Sys2Proof.Machine.execSessionGraceEnd session s
  | .start cold => Sys2Proof.Machine.execStart cold s
  | .startFail reason kind failed => Sys2Proof.Machine.execStartFail reason kind failed s
  | .thermalThrottle die => Sys2Proof.Machine.execThermalThrottle die s
  | .thermalShutdown chiplet => Sys2Proof.Machine.execThermalShutdown chiplet s
  | .droopDetect die => Sys2Proof.Machine.execDroopDetect die s
  | .droopRecover die => Sys2Proof.Machine.execDroopRecover die s
  | .marginReplan plan => Sys2Proof.Machine.execMarginReplan plan s
  | .hotRowThrottle stack row => Sys2Proof.Machine.execHotRowThrottle stack row s
  | .targetedRefresh stack row => Sys2Proof.Machine.execTargetedRefresh stack row s
  | .throttleInterval stack row => Sys2Proof.Machine.execThrottleInterval stack row s
  | .phaseComplete op => Sys2Proof.Machine.execPhaseComplete op s
  | .cmaintComplete op => Sys2Proof.Machine.execCmaintComplete op s
  | .accumulatorComplete op => Sys2Proof.Machine.execAccumulatorComplete op s
  | .cxlCacheSnoop die sector update => Sys2Proof.Machine.execCxlCacheSnoop die sector update s
  | .startSucceeds => Sys2Proof.Machine.execStartSucceeds s
  | .imageReportsReady => Sys2Proof.Machine.execImageReportsReady s
  | .thermalThrottleEnd die => Sys2Proof.Machine.execThermalThrottleEnd die s
  | .powerShareReached die => Sys2Proof.Machine.execPowerShareReached die s

end Sys2Proof.Machine
end

