-- ==== Sys2Proof/Machine/Schedule.lean ====
section
/-! DEFINITION. What moves next: the turns of waves and events, the device's own order where the tape names none, the passing of time, and a word placed for the next step (R7, R22, R29, R36, R433; log 2). -/

namespace Sys2Proof.Machine

/-! ### Time (R7, R22, R433, R435) -/

/-- The clk that pass on a die during a step. -/
def State.clkOf (s : State) (die : Nat) : Nat := 1 + Config.clkAdvance s.tick die

/-- Time passes: every die's cycle counter, the controller's clock, and the clk run with a stretched period (R22, R435). -/
def State.advance1 (s : State) : State :=
  let s1 := (List.range Config.dies).foldl (fun (t : State) d => t.modDie d fun x => { x with cycle := x.cycle + BitVec.ofNat 64 (s.clkOf d) }) s
  let s2 := (List.range Config.dies).foldl (fun (t : State) d =>
    if (t.die d).stretched then
      { t with telem := FMap.set t.telem (0x14 * 4096 + d) (min (2 ^ 64 - 1) (FMap.getD t.telem (0x14 * 4096 + d) 0 + s.clkOf d)) }
    else t) s1
  { s2 with tick := s.tick + 1, usec := s.usec + Config.clkAdvance s.tick Config.dies }

/-- An outcome with time passed. -/
def afterTime (o : Host.Outcome State Fault Refusal) : Host.Outcome State Fault Refusal :=
  match o with
  | .next t => .next t.advance1
  | .fault f => .fault f
  | .refused r => .refused r

/-! ### A wave's turn (R29, R34, R36) -/

/-- The constructor is an event, not an instruction of a wave. -/
def isEvent (i : Instr) : Bool := match i with | .hdr _ _ _ _ _ => false | _ => (Instr.facts? i).isNone

/-- The slot in progress holds a word that no clause check passes: it traps as at the check (R36). -/
def State.badSlot (s : State) (k : Nat) (cl : Clause) : State :=
  s.takeTrap k true 1 (cl.slot + 1) (List.getD cl.words cl.slot 0) cl.run cl.cla 0

/-- The wave `k` issues: the next slot of its clause, or the header of its next one; a word that is no header traps (R36). A wave that waits
in IDLE issues nothing (R245). -/
def issueNow (k : Nat) (s : State) : Host.Outcome State Fault Refusal :=
  match s.wave? k with
  | none => .next s
  | some w =>
    match w.clause with
    | none =>
      match s.beginClause k with
      | .no t => .next t
      | .yes _ cla run line t =>
        match decode (lineWord line (cla.toNat * 16 % 192)) with
        | .ok (.hdr n p f a b) => exec (.hdr n p f a b) { s with cur := k }
        | _ => .next (t.takeTrap k true 1 0 (lineWord line (cla.toNat * 16 % 192)) run cla 0)
    | some cl =>
      if w.stop ≠ .running || s.idling k then .next s
      else
        let t := s.fillActive k
        match t.wave? k with
        | none => .next t
        | some w1 =>
          if !w1.active then .next t
          else
            match decode (List.getD cl.words cl.slot 0) with
            | .ok i => if isEvent i then .next (t.badSlot k cl) else exec i { t with cur := k }
            | .error _ => .next (t.badSlot k cl)

/-- How far a wave has come: another slot, another clause, or another stop. -/
def Wave.progress (w : Wave) : Option Nat × Stop := (w.clause.map Clause.slot, w.stop)

/-- The wave `k` can issue now (R29): it would get on. -/
def State.canIssue (s : State) (k : Nat) : Bool :=
  match issueNow k s with
  | .next t => (t.wave? k).map Wave.progress != (s.wave? k).map Wave.progress
  | _ => true

/-- The turn of the wave `k` (R29): it issues, unless an active wave of its quarter that can issue has issued less recently. -/
def issueTurn (k : Nat) (s : State) : Host.Outcome State Fault Refusal :=
  match s.wave? k with
  | none => .next s
  | some w =>
    if (s.quarterWaves k).any fun p => p.1 != k && p.2.active && decide (p.2.lastIssue < w.lastIssue) && s.canIssue p.1 then .next s
    else issueNow k s

/-! ### The order where the tape names none (R29; log 2) -/

/-- The active sets of every quarter brought up to date. -/
def State.fillAll (s : State) : State := (dedup (s.waves.map fun p => p.1 / 16)).foldl (fun t q => t.fillActive (q * 16)) s

/-- The active waves that could go on, the one that issued least recently first (R29). -/
def State.issueOrder (s : State) : List Nat :=
  (sortBy (fun (a b : Nat × Wave) => decide (a.2.lastIssue ≤ b.2.lastIssue)) (s.waves.filter fun p => p.2.active && s.couldStart p.1 p.2)).map Prod.fst

/-- A move of the device. -/
abbrev Move := State → Host.Outcome State Fault Refusal

/-- The first move of a list that changes the state. -/
def firstMove (s : State) : List Move → Host.Outcome State Fault Refusal
  | [] => .next s
  | m :: l =>
    match m s with
    | .next t => if t = s then firstMove s l else .next t
    | x => x

/-- A unit of a node is placed, or one of its saved gangs restored, on the lowest cores that take it. -/
def placeMove (id : Nat) (s : State) : Host.Outcome State Fault Refusal :=
  match s.node? id with
  | none => .next s
  | some n =>
    match n.kernel with
    | none => .next s
    | some k =>
      let s0 := s.freeGone
      firstMove s
        (((List.range (max 1 n.parts.length)).filterMap fun j => (s0.canPlace id n k j).map fun c => execWorkgroupPlace id c.2.1 c.2.2) ++
         ((s0.readyGangs id).flatMap fun g => (s0.partDies n (s0.gangPart n k g)).filterMap fun d =>
            (s0.returnOn id n k g d).map fun c => execSwapRestore id d c))

/-- The events of the device that could happen, in a fixed order. -/
def State.deviceMoves (s : State) : List Move :=
  ((s.ops.map Prod.fst).flatMap fun o =>
    [execVariableResultReturn o, execPhaseComplete o, execCmaintComplete o, execAccumulatorComplete o, execWaycfgComplete o]) ++
  (s.mops.flatMap fun m => (m.2.members.map fun x => execMatrixOperandRead m.1 (x.1 / 4) (x.1 % 4)) ++ [execMatrixComplete m.1 []]) ++
  ((s.cmds.map Prod.fst).flatMap fun c => [execEngineTake c, execEngineComplete c]) ++
  (s.msgs.flatMap fun m => [execHeaderArrival m.1, execHeaderAccept m.1, execHeaderRefuse m.1, execHeaderRetry m.1] ++
    (m.2.sent.map fun b => execPayloadBlockArrival m.1 b.1) ++ [execEndMarkerArrival m.1, execEndAcknowledgement m.1]) ++
  ((s.waves.map Prod.fst).map fun k => execReceiveCompletionRelease k) ++
  ((s.fabricReqs.filter fun r => r.2.pkg == s.pkg && !r.2.sent).map fun r => execFabricAccessArrival r.2.acc) ++
  (s.dies.flatMap fun d => (d.2.reqs.map fun r => execRequesterReplay d.1 r.1) ++
    [execMergeTableFullRetry d.1, execFaultRecordWrite d.1, execOverflowMoveIn d.1, execIngressHeldEnterRing d.1]) ++
  ((s.wgs.map Prod.fst).map fun g => execWorkgroupRetire g) ++ ((s.gangs.map Prod.fst).map fun g => execThreadStart g) ++
  (s.ctxs.flatMap fun c => (List.range c.2.queues.length).map fun q => execCommandTake c.1 q) ++
  (s.nodes.map fun n => execNodeEligible n.1) ++ [execDispatch] ++ (s.nodes.map fun n => placeMove n.1) ++
  (s.nodes.flatMap fun n => [execSemaphoreRecheck n.1, execSwapOut n.1, execPreemptVictim n.1, execGraceExpiry n.1]) ++
  (s.frames.flatMap fun f => f.2.waves.zipIdx.flatMap fun w => w.1.wave.waits.map fun l => execSwappedRecheck f.2.id w.2 l.1) ++
  (s.dies.flatMap fun d => ((d.2.waiters.filter fun x => !x.entered).map fun x => execSwaitTableFullRecheck d.1 x.wave x.lane) ++
    (if d.2.remoteWaits.any fun x => !x.entered then [execSwaitTableFullRecheck d.1 freedKey 0] else []))

/-- The device's own move. -/
def deviceMove (s : State) : Host.Outcome State Fault Refusal := firstMove s s.deviceMoves

/-- The least recently issued wave that can issue issues; where none can, the device moves. -/
def waveFirst (s : State) : Host.Outcome State Fault Refusal :=
  match s.issueOrder.find? fun k => s.canIssue k with
  | some k => issueNow k s
  | none => deviceMove s

/-- With nothing on the tape: the waves go first, but every eighth turn is the device's. -/
def defaultTurn (s : State) : Host.Outcome State Fault Refusal :=
  let s0 := s.fillAll
  if s.tick % 8 = 7 then
    match deviceMove s0 with
    | .next t => if t = s0 then waveFirst s0 else .next t
    | x => x
  else waveFirst s0

/-- One turn. -/
def turn (s : State) : Host.Outcome State Fault Refusal :=
  match s.agenda with
  | [] => defaultTurn s
  | .issue k :: t => issueTurn k { s with agenda := t }
  | .event i :: t => if isEvent i then exec i { s with agenda := t } else .next { s with agenda := t }

/-! ### A word placed for the next step -/

/-- A firmware wave at its first clause, at physical address 0, that issues next (R239, R258). -/
def fetchWave : Wave := firmwareWave 0 0

/-- A range of device memory at physical address 0. -/
def fetchRange : PamtRange := { cmask := 1, cbase := 0, smask := 1, v := true, host := false, gran := 0, size := 49152, base := 0 }

/-- The word as the instruction that the next step runs: a header in memory, where the firmware of die 0 is about to start a clause;
any other word as the one slot of the clause in which it stands. -/
def State.placeWord (s : State) (word : BitVec 80) : State :=
  let k := firmwareKey 0
  if word.extractLsb' 72 8 = 0 then
    { s with waves := FMap.set s.waves k fetchWave, agenda := .issue k :: s.agenda, pamt := modAt s.pamt 0 fun _ => fetchRange,
             mem := Memory.write s.mem 0 (leBytes 10 word.toNat ++ List.replicate 182 0) }
  else
    let cl : Clause := { cla := 0, n := 1, setA := 0, setB := 1, slot := 0, run := LaneMask.all, words := [word], log := [], fp := [] }
    let w := { fetchWave with clause := some cl }
    { s with waves := FMap.set s.waves k w, agenda := .issue k :: s.agenda }

end Sys2Proof.Machine
end

