-- ==== Sys2Proof/Machine/Step.lean ====
section
/-! DEFINITION. The step of the package: one turn, and the time it takes. -/

namespace Sys2Proof.Machine

/-- One step: the next turn of the tape, or the device's own order, and then time passes. -/
def step (s : State) : Host.Outcome State Fault Refusal := afterTime (turn s)

/-- The state in which the next step fetches and runs the word `w` of `nbits` bits; the bits above are zero. -/
def State.withFetchWord (s : State) (nbits w : Nat) : State := s.placeWord (BitVec.ofNat 80 (w % 2 ^ nbits))

end Sys2Proof.Machine
end

