-- ==== Sys2Proof/Safety.lean ====
section
/-! DEFINITION. The terms in which claims are made: when an instruction issues, what it leaves, what every step keeps, and what a safe run is. -/

namespace Sys2Proof.Machine

/-! ### An instruction at its issue -/

/-- The issue of an instruction with the common fields `c` by the wave `w` with key `k` in the clause `cl` (R34, R41, R80): the
registers of the consumed flag are accepted, then the predicate narrows the run. -/
def issueOf (c : Ctl) (k : Nat) (w : Wave) (cl : Clause) : Issue :=
  let w1 := if c.cf.toNat < 12 then w.acceptFlag c.cf.toNat else w
  let cl1 := w1.clause.getD cl
  ⟨k, w1, cl1, c.pd.toNat, activeLanes w1 cl1 c⟩

/-- The wave `cur` issues an instruction with the common fields `c` and the destination registers `ds` as `x` (R34, R40, R41, R43):
it is in a clause, the consumed flag is clear, and with an active lane its destinations may be written. -/
def Issues (c : Ctl) (ds : List Nat) (s : State) (x : Issue) : Prop :=
  ∃ w cl, s.wave? s.cur = some w ∧ w.clause = some cl ∧ (c.cf.toNat < 12 → w.busy c.cf.toNat = false) ∧
    x = issueOf c s.cur w cl ∧ (x.act ≠ 0 → x.w.dstReady ds = true)

/-- As `Issues`, with room in the hold file for the destinations once an active lane needs it (R42). -/
def IssuesLater (c : Ctl) (ds : List Nat) (s : State) (x : Issue) : Prop :=
  Issues c ds s x ∧ (x.act ≠ 0 → x.w.roomReady ds = true)

/-! ### What an instruction leaves of its wave -/

/-- The value of register `r` in lane `L` that the fixed-latency writes of the clause so far leave (R39). -/
def Wave.value (w : Wave) (r L : Nat) : Word := Row.lane (w.latest r) L

/-- `WSTAT` with the flags that the fixed-latency instructions of the clause so far have raised (R60). -/
def Wave.statusSoFar (w : Wave) : BitVec 12 :=
  match w.clause with
  | some cl => cl.fp.foldl (fun acc p => acc ||| p.2) w.wstat
  | none => w.wstat

/-- The slot of an instruction has ended in the wave `w` (R33, R34): the clause goes on at the next slot, or it is over and every
thread of the run stands at the fall-through. -/
def SlotOver (x : Issue) (w : Wave) : Prop :=
  if x.cl.slot + 1 < x.cl.n then
    w.pct = x.w.pct ∧ ∃ cl, w.clause = some cl ∧ cl = { x.cl with slot := x.cl.slot + 1, log := cl.log, fp := cl.fp }
  else
    w.clause = none ∧
      w.pct = (laneNums.zip x.w.pct).map fun p =>
        if x.cl.run.has p.1 then { p.2 with cla := fallThrough x.cl.cla x.cl.n, slot := 0 } else p.2

/-- The registers that an instruction with a group of `n` destination registers writes; `vz` takes no write (R44). -/
def dstRegs (d : Reg) (n : Nat) : List Nat := (dstGroup d n).filter fun r => decide (r < 255)

/-- The wave after the holds of the registers it is about to write were accepted (R41). -/
def Issue.taken (x : Issue) (ds : List Nat) : Wave := if x.act = 0 then x.w else x.w.acceptAll ds

/-- The flags of the active lanes together. -/
def Issue.flags (x : Issue) (fl : Nat → BitVec 12) : BitVec 12 := (LaneMask.lanes x.act).foldl (fun acc L => acc ||| fl L) 0

/-- What a fixed-latency instruction leaves (R38, R39, R41, R60): nothing but its wave changes; in the active lanes register `d + k`
holds `f k L`, every other register and lane is as it was, held destinations being accepted; the flags are added; the slot is over. -/
def FixedDone (s : State) (x : Issue) (d : Reg) (n : Nat) (f : Nat → Nat → Word) (fl : Nat → BitVec 12) (t : State) : Prop :=
  ∃ w : Wave,
    t = { s with waves := FMap.set s.waves s.cur w } ∧
    w = { x.w with regs := w.regs, wstat := w.wstat, clause := w.clause, pct := w.pct, holds := (x.taken (dstRegs d n)).holds,
                   lastIssue := s.tick } ∧
    (∀ k L, k < n → d ≠ 255 → d.toNat + k < 255 → x.act.getLsbD L = true → w.value (d.toNat + k) L = f k L) ∧
    (∀ r L, L < 32 → ¬(r ∈ dstRegs d n ∧ x.act.getLsbD L = true) → w.value r L = (x.taken (dstRegs d n)).value r L) ∧
    w.statusSoFar = (x.taken (dstRegs d n)).statusSoFar ||| x.flags fl ∧
    SlotOver x w

/-- What an instruction that outlives its issue leaves (R40, R41, R42): without an active lane its slot ends and nothing else; else
it is listed with its captured sources, its flag is taken, its destinations are held, and its slot ends. -/
def Listed (s : State) (x : Issue) (c : Ctl) (i : Instr) (ds : List Nat) (srcs vals : List Row) (raised : BitVec 12) (aux : Nat)
    (done : Bool) (t : State) : Prop :=
  if x.act = 0 then t = x.done s x.w else t = (x.addOp s c i ds srcs vals raised aux done).2

/-- `i` completes at its issue with fixed latency, whatever the state (R38): in the active lanes its `n` registers from `d` hold `f`,
its flags are `fl`, and nothing else changes but its slot's end. -/
def Fixed (i : Instr) (c : Ctl) (d : Reg) (n : Nat) (f : State → Issue → Nat → Nat → Word) (fl : State → Issue → Nat → BitVec 12) : Prop :=
  ∀ s x, Issues c (dstGroup d n) s x → ∃ t, exec i s = .next t ∧ FixedDone s x d n (f s x) (fl s x) t

/-- An instruction that raises no flag. -/
def noFlags : State → Issue → Nat → BitVec 12 := fun _ _ _ => 0

/-- A value of one register. -/
def word1 (f : Issue → Nat → Word) : State → Issue → Nat → Nat → Word := fun _ x _ L => f x L

/-- A value of a register pair, low word first. -/
def pair2 (f : Issue → Nat → Nat) : State → Issue → Nat → Nat → Word := fun _ x k L => BitVec.ofNat 32 (f x L / 2 ^ (32 * k))

/-- `i` completes its issue with variable latency, whatever the state (R38, R41): it is listed with its results and its flags. -/
def Variable (i : Instr) (c : Ctl) (d : Reg) (n : Nat) (rows : State → Issue → List Row) (raised : Issue → BitVec 12) : Prop :=
  ∀ s x, IssuesLater c (dstGroup d n) s x →
    ∃ t, exec i s = .next t ∧ Listed s x c i (dstGroup d n) [] (rows s x) (raised x) 0 true t

/-- `i` completes its issue and is performed later, whatever the state, unless a check of the instruction stops it (R41, R51): it is
listed with its captured sources. -/
def Later (i : Instr) (c : Ctl) (ds : List Nat) (srcs : State → Issue → List Row) (check : State → Issue → Option (Nat × Nat)) : Prop :=
  ∀ s x, IssuesLater c ds s x → (x.act ≠ 0 → check s x = none) →
    ∃ t, exec i s = .next t ∧ Listed s x c i ds (srcs s x) (List.replicate ds.length Row.zero) 0 0 false t

/-- `i` completes its issue without a register result and is performed as far as it can be at once, whatever the state, unless a check
of the instruction stops it (R174, R176); the operation takes the flag that `k` names. -/
def PerformsWith (i : Instr) (c k : Ctl) (srcs : State → Issue → List Row) (aux : Issue → Nat) (check : State → Issue → Option (Nat × Nat)) : Prop :=
  ∀ s x, IssuesLater c [] s x → (x.act ≠ 0 → check s x = none) →
    exec i s = .next (if x.act = 0 then x.done s x.w
      else (x.addOp s k i [] (srcs s x) [] 0 (aux x) false).2.pump s.cur s.nextId)

/-- The same of an instruction that takes no flag beyond its issue (R100). -/
def Performs (i : Instr) (c : Ctl) (srcs : State → Issue → List Row) (aux : Issue → Nat) (check : State → Issue → Option (Nat × Nat)) : Prop :=
  PerformsWith i c { c with al := 0 } srcs aux check

/-- `i` stops at its issue with the trap that a check names, and nothing of it is performed (R50, R51). -/
def Traps (i : Instr) (c : Ctl) (ds : List Nat) (check : State → Issue → Option (Nat × Nat)) : Prop :=
  ∀ s x cls detail, Issues c ds s x → x.act ≠ 0 → check s x = some (cls, detail) → exec i s = .next (x.trap s cls detail)

/-- A wave leaves its clause for targets `tgt` of the active lanes (R32, R33, R103): the rest of the run falls through, a link pair
`d` receives the fall-through address, the status `raised` is added, and nothing else changes. -/
def LeftFor (s : State) (x : Issue) (d : Reg) (raised : BitVec 12) (tgt : Nat → BitVec 52) (t : State) : Prop :=
  ∃ w : Wave,
    t = { s with waves := FMap.set s.waves s.cur w } ∧
    w = { x.w with regs := w.regs, wstat := w.wstat, clause := none, pct := w.pct, holds := (x.taken (dstRegs d 2)).holds,
                   lastIssue := s.tick } ∧
    (∀ L e, L < 32 → x.w.pct[L]? = some e → w.pct[L]? =
      some (if x.cl.run.getLsbD L then { e with cla := if x.act.getLsbD L then tgt L else x.fall, slot := 0 } else e)) ∧
    (∀ k L, k < 2 → d ≠ 255 → d.toNat + k < 255 → x.act.getLsbD L = true →
      w.value (d.toNat + k) L = BitVec.ofNat 32 (x.fall.toNat * 16 / 2 ^ (32 * k))) ∧
    (∀ r L, L < 32 → ¬(r ∈ dstRegs d 2 ∧ x.act.getLsbD L = true) → w.value r L = (x.taken (dstRegs d 2)).value r L) ∧
    w.statusSoFar = (x.taken (dstRegs d 2)).statusSoFar ||| raised

/-- A command of an engine pushed at its issue (R213, R217, R219): without an active lane the slot ends; a check may trap; with no
room, or no token left, nothing changes; else the command is listed with its captured words, it stands last on its queue, its operand
registers and scratchpad lines are held, `more` among them, and the slot ends. -/
def Pushes (i : Instr) (c : Ctl) (regs : List Reg) (args : Issue → List Word) (check : State → Issue → Option (Nat × Nat))
    (held : Issue → List (Nat × Nat)) (more : State → Nat → Issue → List LineLock := fun _ _ _ => []) : Prop :=
  ∀ (s : State) (x : Issue), Issues c [] s x →
    let q := engQueue i
    let full := 8 ≤ (x.w.pushed q).length ∨ 63 ≤ (x.w.counter (engClass i)).length ∨
      (State.tokensDue.owesToken i = true ∧ 64 ≤ s.tokensDue x.key x.w)
    (x.act = 0 → exec i s = .next (x.done s x.w)) ∧
    (∀ cls detail, x.act ≠ 0 → check s x = some (cls, detail) → exec i s = .next (x.trap s cls detail)) ∧
    (x.act ≠ 0 → check s x = none → full → exec i s = .next s) ∧
    (x.act ≠ 0 → check s x = none → ¬full →
      ∃ (t : State) (w : Wave) (cmd : Cmd) (ci : Nat), exec i s = .next t ∧
        t = { s with waves := FMap.set s.waves s.cur w, nextId := s.nextId + 1, cmds := FMap.set s.cmds s.nextId cmd,
                     locks := s.locks ++ (((held x).filter fun p => p.2 != 0).map fun p =>
                       ⟨s.nextId, x.w.wg, ci, p.1 / 128, ceilDiv (p.1 + p.2) 128, false⟩) ++ more s s.nextId x } ∧
        w = { x.w with regs := w.regs, wstat := w.wstat, clause := w.clause, pct := w.pct, lastIssue := s.tick, flags := w.flags,
                       counters := w.counters, push := w.push,
                       locks := FMap.set x.w.locks s.nextId ((regs.filter fun r => r != 255).map BitVec.toNat) } ∧
        (∀ r L, L < 32 → w.value r L = x.w.value r L) ∧ w.statusSoFar = x.w.statusSoFar ∧ SlotOver x w ∧
        (engClass i < x.w.counters.length → w.counter (engClass i) = x.w.counter (engClass i) ++ [⟨s.nextId, q, false⟩]) ∧
        (q < x.w.push.length → w.pushed q = x.w.pushed q ++ [.cmd s.nextId]) ∧
        cmd.wave = s.cur ∧ cmd.gen = x.w.gen ∧ cmd.instr = i ∧ cmd.args = args x ∧ cmd.stage = .pushed ∧ cmd.flag = x.cl.flagOf c.al)

/-- The operation `id` is the only one listed: `o`, of the instruction `i`, not yet performed, and its wave is resident. -/
def Sole (s : State) (id : Nat) (o : Op) (i : Instr) : Prop :=
  s.ops = [(id, o)] ∧ o.instr = i ∧ o.done = false ∧ ∃ w, s.wave? o.wave = some w ∧ w.gen = o.gen

/-- The operation `id` of `s` is performed and leaves `u`, and its words `ws` return to every lane (R41). -/
def Answers (s : State) (id : Nat) (u : State) (ws : List Word) : Prop :=
  exec (.variableResultReturn id) s = .next ((u.modOp id fun o => o.finishAll ws 0).returnOp id)

/-- The command in flight at a function's mailbox is `cmd`, of the code `code`, with the request `req`; the management controller is
running it, out of minimal mode, and its length and reserved bits are in order (R407). -/
def Asked (s : State) (fn code : Nat) (cmd : BitVec 64) (req : FMap Byte) : Prop :=
  (s.fn fn).taken = some (cmd, req) ∧ s.boot = .ready ∧ s.mbHeld = false ∧ s.minimal = false ∧ cmd.toNat % 2 ^ 16 = code ∧ cmdOk cmd = true

/-- `e` ends the command of a function with a status and a response, and leaves `u` otherwise. -/
def Replies (e : Instr) (s : State) (fn status : Nat) (u : State) (rsp : List Byte) : Prop :=
  ∃ value, exec e s = .next (u.mbEnd fn status value rsp)

/-- The L1 of a core takes the sectors `keys` without an eviction (R19, R281, R282): in the set of each, the ways in use and the lines
to come are no more than its ways. -/
def State.l1Takes (s : State) (core : Nat) (keys : List Nat) : Prop :=
  ∀ k ∈ keys,
    (dedup (((s.core core).l1.filter fun p => keySet p.1 == keySet k).map fun p => p.2.way)).length +
      (dedup ((keys.filter fun q => keySet q == keySet k && !((s.core core).l1.any fun p => keyLine p.1 == keyLine q)).map keyLine)).length ≤
    (s.l1Ways core).length

/-! ### What every step keeps -/

/-- Device memory and host memory are in canonical form (R4). -/
def State.memCanonical (s : State) : Prop := Memory.wf s.mem = true ∧ Memory.wf s.hostMem = true

/-- No security floor of the five kinds is lower in `t` than in `s` (R424). -/
def FloorsRise (s t : State) : Prop := ∀ i, i < 5 → s.floors.getD i 0 ≤ t.floors.getD i 0

/-- The reserved bits of LOSSDROP read zero (R332). -/
def State.lossdropOk (s : State) : Prop := s.lossdrop &&& ~~~lossdropMask = 0

/-! ### Safe runs -/

/-- An outcome is safe: the machine goes on. -/
def Safe (o : Host.Outcome State Fault Refusal) : Prop := ∃ t, o = .next t

/-- A machine runs `n` steps from `s` without a stop. -/
def SafeRun : Nat → State → Prop
  | 0, _ => True
  | n + 1, s => ∃ t, step s = .next t ∧ SafeRun n t

end Sys2Proof.Machine
end

