-- ==== Sys2Proof/Certificates/Slice0/Obligations.lean ====
section
/-! DEFINITION. The statements for the provers: what the instructions and the machine do, rule by rule of spec/. -/

open Sys2Proof Sys2Proof.Machine

/-! ### Fixed-latency arithmetic -/

/-- R126: IADD, ISUB, ISUM, IMIN, IMAX, IADDS, IABS and INEG complete with the result of their row in every active lane, and change
nothing else. At 32 bits the sum of the two signednesses is the same word, and INEG.SAT of an unsigned type is 0 or its source 0. -/
def Obligations.IntegerSums : Prop :=
  (∀ (c : Ctl) (t : ITy) (d a : Reg) (b : SrcB),
    Fixed (.iadd c t d a b) c d 1 (word1 fun x L => res (opnd (x.v a L) t + opnd (x.b b immS L) t) t) noFlags ∧
    Fixed (.isub c t d a b) c d 1 (word1 fun x L => res (opnd (x.v a L) t - opnd (x.b b immS L) t) t) noFlags ∧
    Fixed (.imin c t d a b) c d 1 (word1 fun x L => res (min (opnd (x.v a L) t) (opnd (x.b b immS L) t)) t) noFlags ∧
    Fixed (.imax c t d a b) c d 1 (word1 fun x L => res (max (opnd (x.v a L) t) (opnd (x.b b immS L) t)) t) noFlags) ∧
  (∀ (c : Ctl) (t : ITy) (d a : Reg) (b : SrcB) (r : Reg),
    Fixed (.isum c t d a b r) c d 1
      (word1 fun x L => res (opnd (x.v a L) t + opnd (x.b b immS L) t + opnd (x.v r L) t) t) noFlags) ∧
  (∀ (c : Ctl) (sub : Bool) (t : ITy) (d a : Reg) (b : SrcB),
    Fixed (.iadds c sub t d a b) c d 1 (word1 fun x L =>
      let u := opnd (x.v a L) t
      let v := opnd (x.b b immS L) t
      res (satI (if sub then u - v else u + v) (ityWidth t) t.isSigned) t) noFlags) ∧
  (∀ (c : Ctl) (sat : Bool) (t : ITy) (d a : Reg),
    Fixed (.iabs c sat t d a) c d 1 (word1 fun x L =>
      res (if sat then satI |opnd (x.v a L) t| (ityWidth t) true else |opnd (x.v a L) t|) t) noFlags ∧
    Fixed (.ineg c sat t d a) c d 1 (word1 fun x L =>
      res (if sat then satI (-opnd (x.v a L) t) (ityWidth t) t.isSigned else -opnd (x.v a L) t) t) noFlags) ∧
  (∀ (t : ITy) (u v : Word), t.isWord = true → res (opnd u t + opnd v t) t = u + v ∧ res (opnd u t - opnd v t) t = u - v) ∧
  ∀ (t : ITy) (u : Word), t.isSigned = false → res (satI (-opnd u t) (ityWidth t) t.isSigned) t = 0

/-- R129: IMUL, IMULH, IMAD and IMADW complete with exact products wrapped once; IMUL.S32 and IMUL.Z32 give the same bits. -/
def Obligations.IntegerProducts : Prop :=
  (∀ (c : Ctl) (t : ITy) (d a : Reg) (b : SrcB),
    Fixed (.imul c t d a b) c d 1 (word1 fun x L => res (opnd (x.v a L) t * opnd (x.b b immS L) t) t) noFlags ∧
    Fixed (.imulh c t d a b) c d 1
      (word1 fun x L => BitVec.ofInt 32 (opnd (x.v a L) t * opnd (x.b b immS L) t / 2 ^ 32)) noFlags) ∧
  (∀ (c : Ctl) (t : ITy) (d a : Reg) (b : SrcB) (r : Reg),
    Fixed (.imad c t d a b r) c d 1
      (word1 fun x L => res (opnd (x.v a L) t * opnd (x.b b immS L) t + opnd (x.v r L) t) t) noFlags ∧
    Fixed (.imadw c t d a b r) c d 2
      (pair2 fun x L => wrapN (opnd (x.v a L) t * opnd (x.b b immS L) t + (x.vd r L : Nat)) 64) noFlags) ∧
  ∀ u v : Word, res (opnd u .s32 * opnd v .s32) .s32 = u * v ∧ res (opnd u .z32 * opnd v .z32) .z32 = u * v

/-- R127, R140: the 64-bit sums and LEA complete with their pair wrapped at 64 bits. -/
def Obligations.WideSums : Prop :=
  (∀ (c : Ctl) (e : Ext64) (d a : Reg) (b : SrcB),
    let b64 := fun (x : Issue) (L : Nat) => match b with
      | .imm v => v.toInt
      | .reg r => match e with
        | .pair => ((x.vd r L : Nat) : Int)
        | .bs => (x.v r L).toInt
        | .bz => ((x.v r L).toNat : Int)
    Fixed (.iadd64 c e d a b) c d 2 (pair2 fun x L => wrapN ((x.vd a L : Nat) + b64 x L) 64) noFlags ∧
    Fixed (.isub64 c e d a b) c d 2 (pair2 fun x L => wrapN ((x.vd a L : Nat) - b64 x L) 64) noFlags) ∧
  ∀ (c : Ctl) (x3 z : Bool) (sh : BitVec 3) (d a : Reg) (b : SrcB),
    Fixed (.lea c x3 z sh d a b) c d 2 (pair2 fun x L =>
      let i : Int := if z then ((x.b b immS L).toNat : Int) else (x.b b immS L).toInt
      wrapN ((x.vd a L : Nat) + i * (if x3 then 3 else 1) * 2 ^ sh.toNat) 64) noFlags

/-- R132, R133, R137: the bitwise instructions and the counts complete with the word that their row gives. -/
def Obligations.BitLogic : Prop :=
  (∀ (c : Ctl) (d a : Reg) (b : SrcB),
    Fixed (.and c d a b) c d 1 (word1 fun x L => x.v a L &&& x.b b immZ L) noFlags ∧
    Fixed (.or c d a b) c d 1 (word1 fun x L => x.v a L ||| x.b b immZ L) noFlags ∧
    Fixed (.xor c d a b) c d 1 (word1 fun x L => x.v a L ^^^ x.b b immZ L) noFlags ∧
    Fixed (.andn c d a b) c d 1 (word1 fun x L => x.v a L &&& ~~~x.b b immZ L) noFlags) ∧
  (∀ (c : Ctl) (lut : BitVec 8) (d a b r : Reg),
    ∃ f : Issue → Nat → Word, Fixed (.blut c lut d a b r) c d 1 (word1 f) noFlags ∧
      ∀ x L i, i < 32 → (f x L).getLsbD i =
        lut.getLsbD (((x.v a L).getLsbD i).toNat + 2 * ((x.v b L).getLsbD i).toNat + 4 * ((x.v r L).getLsbD i).toNat)) ∧
  (∀ (c : Ctl) (d a : Reg),
    Fixed (.popc c d a) c d 1
      (word1 fun x L => BitVec.ofNat 32 ((List.range 32).countP fun i => (x.v a L).getLsbD i)) noFlags ∧
    Fixed (.clz c d a) c d 1 (word1 fun x L => BitVec.ofNat 32 (32 - Nat.size (x.v a L).toNat)) noFlags ∧
    Fixed (.ctz c d a) c d 1
      (word1 fun x L => BitVec.ofNat 32 ((List.range 32).findIdx fun i => (x.v a L).getLsbD i)) noFlags ∧
    ∃ f : Issue → Nat → Word, Fixed (.brev c d a) c d 1 (word1 f) noFlags ∧
      ∀ x L i, i < 32 → (f x L).getLsbD i = (x.v a L).getLsbD (31 - i))

/-- R134, R135, R136: shifts, rotates, funnel shifts and bit fields complete with the word that their row gives, at every amount. -/
def Obligations.ShiftsAndFields : Prop :=
  (∀ (c : Ctl) (d a : Reg) (b : SrcB),
    Fixed (.shl c d a b) c d 1 (word1 fun x L =>
      let n := (x.b b immZ L).toNat
      if n < 32 then BitVec.ofNat 32 ((x.v a L).toNat * 2 ^ n) else 0) noFlags ∧
    Fixed (.shr c d a b) c d 1 (word1 fun x L =>
      let n := (x.b b immZ L).toNat
      if n < 32 then BitVec.ofNat 32 ((x.v a L).toNat / 2 ^ n) else 0) noFlags ∧
    Fixed (.sar c d a b) c d 1
      (word1 fun x L => BitVec.ofInt 32 ((x.v a L).toInt / 2 ^ min (x.b b immZ L).toNat 31)) noFlags ∧
    Fixed (.rot c false d a b) c d 1 (word1 fun x L => (x.v a L).rotateLeft ((x.b b immZ L).toNat % 32)) noFlags ∧
    Fixed (.rot c true d a b) c d 1 (word1 fun x L => (x.v a L).rotateRight ((x.b b immZ L).toNat % 32)) noFlags ∧
    Fixed (.bmsk c d a b) c d 1 (word1 fun x L =>
      let p := min (x.v a L).toNat 32
      let n := min (x.b b immZ L).toNat 32
      BitVec.ofNat 32 ((2 ^ n - 1) * 2 ^ p)) noFlags) ∧
  (∀ (c : Ctl) (d a : Reg) (b : SrcB) (r : Reg),
    Fixed (.fshf c true d a b r) c d 1 (word1 fun x L =>
      let u := (x.v r L).toNat * 2 ^ 32 + (x.v a L).toNat
      BitVec.ofNat 32 (u * 2 ^ min (x.b b immZ L).toNat 32 / 2 ^ 32)) noFlags ∧
    Fixed (.fshf c false d a b r) c d 1 (word1 fun x L =>
      let u := (x.v r L).toNat * 2 ^ 32 + (x.v a L).toNat
      BitVec.ofNat 32 (u / 2 ^ min (x.b b immZ L).toNat 32)) noFlags ∧
    Fixed (.bfi c d a b r) c d 1 (word1 fun x L =>
      let v := (x.b b immZ L).toNat
      let p := min (v % 256) 32
      let n := min (v / 256 % 256) 32
      let mask : Word := BitVec.ofNat 32 ((2 ^ n - 1) * 2 ^ p)
      (x.v r L &&& ~~~mask) ||| (BitVec.ofNat 32 ((x.v a L).toNat * 2 ^ p) &&& mask)) noFlags) ∧
  ∀ (c : Ctl) (signed : Bool) (d a : Reg) (b : SrcB),
    Fixed (.bfx c signed d a b) c d 1 (word1 fun x L =>
      let v := (x.b b immZ L).toNat
      let p := min (v % 256) 32
      let n := min (v / 256 % 256) 32
      let u : Int := if signed then (x.v a L).toInt else ((x.v a L).toNat : Int)
      let f : Nat := (u / 2 ^ p % 2 ^ n).toNat
      if n = 0 then 0 else BitVec.ofInt 32 (if signed then sext f n else f)) noFlags

/-- R138, R139, R141, R142: compares and tests change one predicate bit and keep the other 31; SEL, MOV and MOVI complete with
their source. -/
def Obligations.PredicatesAndMoves : Prop :=
  (∀ (c : Ctl) (t : ITy) (cmp : ICmp) (comb : Comb) (bit : BitVec 5) (d a : Reg) (b : SrcB),
    ∃ f : Issue → Nat → Word, Fixed (.icmp c t cmp comb bit d a b) c d 1 (word1 f) noFlags ∧
      ∀ x L i, i < 32 → (f x L).getLsbD i =
        let old := (x.v d L).getLsbD i
        let u := opnd (x.v a L) t
        let v := opnd (x.b b immS L) t
        let hit := match cmp with
          | .eq => decide (u = v) | .ne => decide (u ≠ v) | .lt => decide (u < v)
          | .le => decide (u ≤ v) | .gt => decide (u > v) | .ge => decide (u ≥ v)
        if i = bit.toNat then (match comb with | .none => hit | .and => old && hit | .or => old || hit) else old) ∧
  (∀ (c : Ctl) (z : Bool) (comb : Comb) (bit : BitVec 5) (d a : Reg) (b : SrcB),
    ∃ f : Issue → Nat → Word, Fixed (.pset c z comb bit d a b) c d 1 (word1 f) noFlags ∧
      ∀ x L i, i < 32 → (f x L).getLsbD i =
        let old := (x.v d L).getLsbD i
        let hit := if z then decide (x.v a L &&& x.b b immZ L = 0) else decide (x.v a L &&& x.b b immZ L ≠ 0)
        if i = bit.toNat then (match comb with | .none => hit | .and => old && hit | .or => old || hit) else old) ∧
  (∀ (c : Ctl) (bit : BitVec 5) (d a : Reg) (b : SrcB) (r : Reg),
    Fixed (.sel c bit d a b r) c d 1
      (word1 fun x L => if (x.v r L).getLsbD bit.toNat then x.v a L else x.b b immS L) noFlags) ∧
  (∀ (c : Ctl) (d a : Reg),
    Fixed (.mov c d (.reg a)) c d 1 (word1 fun x L => x.v a L) noFlags ∧
    Fixed (.mov c d (.pair a)) c d 2 (pair2 fun x L => x.vd a L) noFlags) ∧
  (∀ (c : Ctl) (d : Reg) (v : BitVec 16), Fixed (.mov c d (.imm v)) c d 1 (word1 fun _ _ => v.signExtend 32) noFlags) ∧
  ∀ (c : CtlL) (d : Reg) (imm : BitVec 32), Fixed (.movi c d imm) (CtlL.full c) d 1 (word1 fun _ _ => imm) noFlags

/-! ### Floating point and conversion -/

/-- R144, R146, R148 to R152: the single-precision instructions complete with one rounding of the exact result of their row, and with
the flags of R55 and R57; source B of class F is the pattern that R77 gives. -/
def Obligations.SinglePrecision : Prop :=
  (∀ (c : Ctl) (m : RMode) (d a : Reg) (b : SrcB),
    let g := fun (op : Nat → Nat → Nat × BitVec 12) (i : Instr) =>
      Fixed i c d 1 (word1 fun x L => BitVec.ofNat 32 (op (x.v a L).toNat (x.b b immF L).toNat).1)
        fun _ x L => (op (x.v a L).toNat (x.b b immF L).toNat).2
    g (fun u v => ((roundFmt (xsumM m [dec .f32 u, dec .f32 v]).1 .f32 m false).1,
        (roundFmt (xsumM m [dec .f32 u, dec .f32 v]).1 .f32 m false).2 |||
        flagIf (xsumM m [dec .f32 u, dec .f32 v]).2 fNV ||| flagIf (isSnan .f32 u || isSnan .f32 v) fNV)) (.fadd c m d a b) ∧
    g (fun u v => ((roundFmt (xsumM m [dec .f32 u, (dec .f32 v).negate]).1 .f32 m false).1,
        (roundFmt (xsumM m [dec .f32 u, (dec .f32 v).negate]).1 .f32 m false).2 |||
        flagIf (xsumM m [dec .f32 u, (dec .f32 v).negate]).2 fNV ||| flagIf (isSnan .f32 u || isSnan .f32 v) fNV)) (.fsub c m d a b) ∧
    g (fun u v => ((roundFmt ((dec .f32 u).mul (dec .f32 v)).1 .f32 m false).1,
        (roundFmt ((dec .f32 u).mul (dec .f32 v)).1 .f32 m false).2 |||
        flagIf ((dec .f32 u).mul (dec .f32 v)).2 fNV ||| flagIf (isSnan .f32 u || isSnan .f32 v) fNV)) (.fmul c m d a b) ∧
    g (fpRnd .f32 m) (.frnd c m d a b) ∧ g (fpScalb m) (.fscalb c m d a b)) ∧
  (∀ (c : Ctl) (d a : Reg) (b : SrcB),
    let g := fun (mx : Bool) (i : Instr) =>
      Fixed i c d 1 (word1 fun x L => BitVec.ofNat 32 (fpMinMax .f32 mx (x.v a L).toNat (x.b b immF L).toNat))
        fun _ x L => flagIf (isSnan .f32 (x.v a L).toNat || isSnan .f32 (x.b b immF L).toNat) fNV
    g false (.fmin c d a b) ∧ g true (.fmax c d a b)) ∧
  (∀ (c : Ctl) (m : RMode) (d a : Reg) (b : SrcB) (r : Reg),
    let y := fun (x : Issue) L => fpFma .f32 m (x.v a L).toNat (x.b b immF L).toNat (x.v r L).toNat
    Fixed (.ffma c m d a b r) c d 1 (word1 fun x L => BitVec.ofNat 32 (y x L).1) fun _ x L => (y x L).2) ∧
  (∀ (c : Ctl) (d a : Reg) (b : SrcB) (r : Reg),
    Fixed (.fclamp c d a b r) c d 1
      (word1 fun x L => BitVec.ofNat 32 (if (dec .f32 (x.v a L).toNat).isNan then cnan .f32
        else fpMinMax .f32 false (fpMinMax .f32 true (x.v a L).toNat (x.b b immF L).toNat) (x.v r L).toNat))
      fun _ x L => flagIf ([(x.v a L).toNat, (x.b b immF L).toNat, (x.v r L).toNat].any fun u => isSnan .f32 u) fNV) ∧
  (∀ (c : Ctl) (cmp : FCmp) (comb : Comb) (bit : BitVec 5) (d a : Reg) (b : SrcB),
    Fixed (.fcmp c cmp comb bit d a b) c d 1
      (word1 fun x L => setPred comb bit (x.v d L) (fpCmp .f32 cmp (x.v a L).toNat (x.b b immF L).toNat).1)
      fun _ x L => (fpCmp .f32 cmp (x.v a L).toNat (x.b b immF L).toNat).2) ∧
  ∀ (c : Ctl) (comb : Comb) (bit : BitVec 5) (d a : Reg) (b : SrcB),
    Fixed (.fclass c comb bit d a b) c d 1
      (word1 fun x L => setPred comb bit (x.v d L) ((x.b b immF L).getLsbD (16 + fpClass .f32 (x.v a L).toNat))) noFlags

/-- R157 to R161, R166: the packed and double-precision instructions and the dot products complete with each element rounded on its
own and the flags of the elements together. -/
def Obligations.PackedAndDouble : Prop :=
  (∀ (c : Ctl) (bf : Bool) (m : RMode) (d a b r : Reg),
    let f := if bf then FFmt.bf16 else FFmt.f16
    let e := fun (x : Issue) (q : Reg) L (k : Nat) => (x.v q L).toNat / 2 ^ (16 * k) % 2 ^ 16
    let g := fun (op : (Nat → Nat) → (Nat → Nat) → (Nat → Nat) → Nat → Nat × BitVec 12) (i : Instr) =>
      Fixed i c d 1
        (word1 fun x L => BitVec.ofNat 32 ((op (e x a L) (e x b L) (e x r L) 0).1 + 2 ^ 16 * (op (e x a L) (e x b L) (e x r L) 1).1))
        fun _ x L => (op (e x a L) (e x b L) (e x r L) 0).2 ||| (op (e x a L) (e x b L) (e x r L) 1).2
    g (fun u v _ k => fpAdd f m (u k) (v k)) (.hadd2 c bf m d a b) ∧ g (fun u v _ k => fpMul f m (u k) (v k)) (.hmul2 c bf m d a b) ∧
    g (fun u v w k => fpFma f m (u k) (v k) (w k)) (.hfma2 c bf m d a b r) ∧
    (∀ mx : Bool, g (fun u v _ k => (fpMinMax f mx (u k) (v k), flagIf (isSnan f (u k) || isSnan f (v k)) fNV)) (.hmnmx2 c mx bf d a b)) ∧
    let y := fun x L => fpDot f f m [e x a L 0, e x a L 1] [e x b L 0, e x b L 1] (x.v r L).toNat
    Fixed (.dot2 c bf m d a b r) c d 1 (word1 fun x L => BitVec.ofNat 32 (y x L).1) fun _ x L => (y x L).2) ∧
  (∀ (c : Ctl) (bf : Bool) (cmp : FCmp) (comb : Comb) (bit : BitVec 5) (d a b : Reg),
    let f := if bf then FFmt.bf16 else FFmt.f16
    let r := fun (x : Issue) L (k : Nat) =>
      fpCmp f cmp ((x.v a L).toNat / 2 ^ (16 * k) % 2 ^ 16) ((x.v b L).toNat / 2 ^ (16 * k) % 2 ^ 16)
    Fixed (.hcmp2 c bf cmp comb bit d a b) c d 1
      (word1 fun x L => setPred comb (bit + 1) (setPred comb bit (x.v d L) (r x L 0).1) (r x L 1).1)
      fun _ x L => (r x L 0).2 ||| (r x L 1).2) ∧
  (∀ (c : Ctl) (m : RMode) (d a b r : Reg),
    let g := fun (op : Nat → Nat → Nat → Nat × BitVec 12) (i : Instr) =>
      Fixed i c d 2 (pair2 fun x L => (op (x.vd a L) (x.vd b L) (x.vd r L)).1) fun _ x L => (op (x.vd a L) (x.vd b L) (x.vd r L)).2
    g (fun u v _ => fpAdd .f64 m u v) (.dadd c m d a b) ∧ g (fun u v _ => fpMul .f64 m u v) (.dmul c m d a b) ∧
    g (fpFma .f64 m) (.dfma c m d a b r) ∧ g (fun u _ _ => fpRint .f64 m u) (.drnd c m d a) ∧
    ∀ mx : Bool, g (fun u v _ => (fpMinMax .f64 mx u v, flagIf (isSnan .f64 u || isSnan .f64 v) fNV)) (.dmnmx c mx d a b)) ∧
  (∀ (c : Ctl) (cmp : FCmp) (comb : Comb) (bit : BitVec 5) (d a b : Reg),
    Fixed (.dcmp c cmp comb bit d a b) c d 1
      (word1 fun x L => setPred comb bit (x.v d L) (fpCmp .f64 cmp (x.vd a L) (x.vd b L)).1)
      fun _ x L => (fpCmp .f64 cmp (x.vd a L) (x.vd b L)).2) ∧
  ∀ (c : Ctl) (ae5 be5 : Bool) (m : RMode) (d a b r : Reg),
    let e := fun (x : Issue) (q : Reg) L => [0, 1, 2, 3].map fun k => (x.v q L).toNat / 2 ^ (8 * k) % 2 ^ 8
    let y := fun x L => fpDot (if ae5 then .f8e5 else .f8e4) (if be5 then .f8e5 else .f8e4) m (e x a L) (e x b L) (x.v r L).toNat
    Fixed (.dot4 c ae5 be5 m d a b r) c d 1 (word1 fun x L => BitVec.ofNat 32 (y x L).1) fun _ x L => (y x L).2

/-- R162 to R165: FCVT, F2I and I2F complete with one rounding of the element selected; a narrow result is put in its place in the
old register and the rest of it stays, a 64-bit result takes the pair. -/
def Obligations.Conversions : Prop :=
  let elem := fun (f : FFmt) (sel : BitVec 2) (x : Issue) (a : Reg) (L : Nat) =>
    if f = .f64 then x.vd a L else (x.v a L).toNat / 2 ^ (FFmt.bits f * sel.toNat) % 2 ^ FFmt.bits f
  let put := fun (f : FFmt) (sel : BitVec 2) (old v : Nat) =>
    if FFmt.bits f = 32 then v
    else old - old / 2 ^ (FFmt.bits f * sel.toNat) % 2 ^ FFmt.bits f * 2 ^ (FFmt.bits f * sel.toNat) + v * 2 ^ (FFmt.bits f * sel.toNat)
  let place := fun (i : Instr) (c : Ctl) (f : FFmt) (sel : BitVec 2) (d : Reg) (y : Issue → Nat → Nat × BitVec 12) =>
    if f = .f64 then Fixed i c d 2 (pair2 fun x L => (y x L).1) fun _ x L => (y x L).2
    else Fixed i c d 1 (word1 fun x L => BitVec.ofNat 32 (put f sel (x.v d L).toNat (y x L).1)) fun _ x L => (y x L).2
  (∀ (c : Ctl) (dst src : FFmt) (sat : Bool) (m : RMode) (dsel ssel : BitVec 2) (d a : Reg), FFmt.selOk src ssel = true →
    place (.fcvt c dst src sat m dsel ssel d a) c dst dsel d fun x L =>
      ((roundFmt (dec src (elem src ssel x a L)) dst m sat).1,
       (roundFmt (dec src (elem src ssel x a L)) dst m sat).2 ||| flagIf (isSnan src (elem src ssel x a L)) fNV)) ∧
  (∀ (c : Ctl) (it : IFmt) (ft : FFmt) (m : RMode) (ssel : BitVec 2) (d a : Reg), FFmt.selOk ft ssel = true →
    let y := fun x L => toInt (dec ft (elem ft ssel x a L)) (ifmtWidth it) (ifmtSigned it) m
    Fixed (.f2i c it ft m ssel d a) c d (if ifmtWidth it = 64 then 2 else 1) (pair2 fun x L => wrapN (y x L).1 64) fun _ x L => (y x L).2) ∧
  ∀ (c : Ctl) (ft : FFmt) (it : IFmt) (sat : Bool) (m : RMode) (dsel : BitVec 2) (d a : Reg),
    place (.i2f c ft it sat m dsel d a) c ft dsel d fun x L =>
      let v := if ifmtWidth it = 64 then x.vd a L else (x.v a L).toNat
      roundFmt (XR.ofInt (if ifmtSigned it then sext v (ifmtWidth it) else (v % 2 ^ ifmtWidth it : Nat))) ft m sat

/-! ### Lanes and identity -/

/-- R168 to R171: the cross-lane instructions complete; the lanes that take part are the active ones, and an inactive lane is written
by none of them. That BCAST.W always sees the other wave's latest fixed-latency write is the model's choice (log 106). -/
def Obligations.CrossLane : Prop :=
  (∀ (c : Ctl) (w : BitVec 3) (d a : Reg) (b : SrcB),
    let n := fun (x : Issue) L => (x.b b immZ L).toNat
    let z := 32 / 2 ^ w.toNat
    Fixed (.shfl c .idx w d a b) c d 1 (word1 fun x L => x.v a (L - L % z + n x L % z)) noFlags ∧
    Fixed (.shfl c .up w d a b) c d 1 (word1 fun x L => x.v a (if L - L % z + n x L ≤ L then L - n x L else L)) noFlags ∧
    Fixed (.shfl c .down w d a b) c d 1 (word1 fun x L => x.v a (if L + n x L < L - L % z + z then L + n x L else L)) noFlags ∧
    Fixed (.shfl c .xor w d a b) c d 1 (word1 fun x L => x.v a (L ^^^ (n x L % z))) noFlags) ∧
  (∀ (c : Ctl) (bit : BitVec 5) (d a : Reg),
    let set := fun (x : Issue) => (LaneMask.lanes x.act).filter fun K => (x.v a K).getLsbD bit.toNat
    (∃ f : Issue → Word, Fixed (.vote c .bal bit d a) c d 1 (word1 fun x _ => f x) noFlags ∧
      ∀ x K, K < 32 → (f x).getLsbD K = (x.act.getLsbD K && (x.v a K).getLsbD bit.toNat)) ∧
    Fixed (.vote c .all bit d a) c d 1 (word1 fun x _ => if set x = LaneMask.lanes x.act then 1 else 0) noFlags ∧
    Fixed (.vote c .any bit d a) c d 1 (word1 fun x _ => if set x = [] then 0 else 1) noFlags ∧
    Fixed (.vote c .eq bit d a) c d 1 (word1 fun x _ => if set x = LaneMask.lanes x.act ∨ set x = [] then 1 else 0) noFlags) ∧
  (∀ (c : Ctl) (dbl : Bool) (d a : Reg),
    ∃ f : Issue → Nat → Word, Fixed (.matchL c dbl d a) c d 1 (word1 f) noFlags ∧
      ∀ x L K, K < 32 → (f x L).getLsbD K =
        (x.act.getLsbD K && decide (x.v a K = x.v a L) && (!dbl || decide (x.v (nextReg a 1) K = x.v (nextReg a 1) L)))) ∧
  (∀ (c : Ctl) (d : Reg), Fixed (.actm c d) c d 1 (word1 fun x _ => x.act) noFlags) ∧
  (∀ (c : Ctl) (op : RedOp) (sg : Bool) (m : RMode) (d a : Reg),
    Fixed (.lred c op sg m d a) c d 1
      (word1 fun x _ => (redCombine op sg m ((LaneMask.lanes x.act).map fun K => x.v a K)).1)
      fun _ x _ => (redCombine op sg m ((LaneMask.lanes x.act).map fun K => x.v a K)).2) ∧
  (∀ (c : Ctl) (op : RedOp) (exc sg : Bool) (m : RMode) (d a : Reg),
    let part := fun (x : Issue) L => ((LaneMask.lanes x.act).filter fun K => K < L || (!exc && K == L)).map fun K => x.v a K
    Fixed (.lscan c op exc sg m d a) c d 1 (word1 fun x L => (redCombine op sg m (part x L)).1)
      fun _ x L => (redCombine op sg m (part x L)).2) ∧
  (∀ (l : List Word) (v : Word), (redCombine .add false .rn (l ++ [v])).1 = (redCombine .add false .rn l).1 + v ∧
    (redCombine .xor false .rn (l ++ [v])).1 = (redCombine .xor false .rn l).1 ^^^ v) ∧
  ∀ (c : Ctl) (d a : Reg) (b : SrcB),
    Fixed (.bcast c false d a b) c d 1 (word1 fun x _ => x.v a ((x.b b immZ x.low).toNat % 32)) noFlags ∧
    ∃ f fl, Fixed (.bcast c true d a b) c d 1 f fl ∧ ∀ s x k L,
      let n := (x.b b immZ x.low).toNat
      ((∀ o, s.seated? (x.key - waveSlot x.key + n / 256 % 16) = some o → ¬(o.wg = x.w.wg ∧ o.priv = x.w.priv)) → f s x k L = 0 ∧ fl s x L = wGRD) ∧
      ∀ o, s.seated? (x.key - waveSlot x.key + n / 256 % 16) = some o → o.wg = x.w.wg → o.priv = x.w.priv →
        waveSlot x.key ≠ n / 256 % 16 → f s x k L = Row.lane (o.outside a.toNat) (n % 32) ∧ fl s x L = 0

/-- R114: GETID and GETENV complete; of a wave of a workgroup they give the identifier, its thread and level fields, the lane, the
wave, the position and the core; of any wave the kind of core, die, core, quarter, slot and cycle counter. -/
def Obligations.Identity : Prop :=
  (∀ (c : Ctl) (w : Bool) (d : Reg) (sel : SrcSel),
    ∃ f, Fixed (.getid c w d sel) c d (dblRegs w) f noFlags ∧
      ∀ s x k L g kn, s.wg? x.w.wg = some g → s.kernelOf g = some kn →
        let n := x.selector sel L
        let id := g.ident + (x.w.index * 32 + L)
        let v := fun (y : Nat) => f s x k L = BitVec.ofNat 32 (y / 2 ^ (32 * k))
        (n = 0x10 → v id) ∧ (n = 0x12 → v (id % 2 ^ threadBits kn)) ∧ (n = 0x13 → v (id / 2 ^ threadBits kn)) ∧ (n = 0x15 → v L) ∧
        (n = 0x16 → v x.w.index) ∧ (n = 0x17 → v g.pos) ∧ (n = 0x18 → v (g.coreIdx (waveCore x.key))) ∧
        ∀ wd, n < 6 → kn.widths[n]? = some wd → v (id / 2 ^ levelBits kn n % 2 ^ wd)) ∧
  ∀ (c : Ctl) (w : Bool) (d : Reg) (sel : SrcSel),
    ∃ f, Fixed (.getenv c w d sel) c d (dblRegs w) f noFlags ∧
      ∀ s x k L,
        let n := x.selector sel L
        let v := fun (y : Nat) => f s x k L = BitVec.ofNat 32 (y / 2 ^ (32 * k))
        (n = 0 → v (if 40 ≤ waveCoreIn x.key then 1 else 0)) ∧ (n = 1 → v (waveDie x.key)) ∧ (n = 2 → v (waveCoreIn x.key)) ∧
        (n = 3 → v (waveQtr x.key)) ∧ (n = 4 → v (waveSlot x.key)) ∧ (n = 8 → v (s.die (waveDie x.key)).cycle.toNat) ∧
        (n = 0x0C → v s.pkg) ∧
        ∀ g, s.wg? x.w.wg = some g → (n = 5 → v (g.size (g.coreIdx (waveCore x.key)))) ∧ (n = 6 → v g.acc0) ∧ (n = 7 → v g.accN)

/-! ### Variable latency -/

/-- R130, R131, R153 to R156, R206 to R209: the variable-latency arithmetic completes its issue: it is listed with the results of its row, which
return later. Division truncates, and a divisor of zero gives the largest value and the dividend. What the transcendental functions give where the
interval evaluation does not settle the rounding is the model's free constant (log 15); PLUNPK is stated for its legal codes. -/
def Obligations.VariableArithmetic : Prop :=
  let row := fun (x : Issue) (f : Nat → Nat) => [Row.ofLanes fun L => if x.act.getLsbD L then BitVec.ofNat 32 (f L) else 0]
  let flags := fun (x : Issue) (f : Nat → BitVec 12) => (LaneMask.lanes x.act).foldl (fun acc L => acc ||| f L) 0
  (∀ (c : Ctl) (t : ITy) (d a : Reg) (b : SrcB),
    let u := fun (x : Issue) L => opnd (x.v a L) t
    let v := fun (x : Issue) L => opnd (x.b b immS L) t
    let top : Int := 2 ^ (ityWidth t - 1)
    Variable (.idiv c t d a b) c d 1 (fun _ x => row x fun L =>
      (res (if v x L = 0 then (if t.isSigned then (if 0 ≤ u x L then top - 1 else -top) else 2 ^ ityWidth t - 1)
        else Int.tdiv (u x L) (v x L)) t).toNat) (fun _ => 0) ∧
    Variable (.irem c t d a b) c d 1 (fun _ x => row x fun L =>
      (res (if v x L = 0 then u x L else Int.tmod (u x L) (v x L)) t).toNat) (fun _ => 0)) ∧
  (∀ (c : Ctl) (m : RMode) (d a b : Reg),
    let g := fun (i : Instr) (f : Nat → Nat → Nat × BitVec 12) =>
      Variable i c d 1 (fun _ x => row x fun L => (f (x.v a L).toNat (x.v b L).toNat).1)
        fun x => flags x fun L => (f (x.v a L).toNat (x.v b L).toNat).2
    g (.frcp c m d a) (fun u _ => fpRcp m u) ∧ g (.frsq c m d a) (fun u _ => fpRsq m u) ∧ g (.fsqrt c m d a) (fun u _ => fpSqrt m u) ∧
    g (.fdiv c m d a b) (fpDiv m) ∧ g (.fex2 c d a) (fun u _ => fpSfu 0x5C u) ∧ g (.flg2 c d a) (fun u _ => fpSfu 0x5D u) ∧
    g (.fsin c d a) (fun u _ => fpSfu 0x5E u) ∧ g (.fcos c d a) (fun u _ => fpSfu 0x5F u) ∧
    g (.ftanh c d a) (fun u _ => fpSfu 0x60 u) ∧ g (.fsigm c d a) (fun u _ => fpSfu 0x61 u)) ∧
  (∀ (c : Ctl) (p : BitVec 3) (d a : Reg), ∃ rows : State → Issue → List Row,
    Variable (.plpack c p d a) c d 1 rows (fun _ => 0) ∧ ∀ s x L k, L < 32 → k < 32 →
      let e := 32 * L + k
      (Row.lane ((rows s x).getD 0 []) L).getLsbD k =
        ((x.v (nextReg a (e / 128)) (e % 128 / 4)).toNat / 2 ^ (8 * (e % 4))).testBit (7 - p.toNat)) ∧
  (∀ (c : Ctl) (k : BitVec 3) (val : Bool) (d a : Reg) (stride : BitVec 8) (chunk : BitVec 3), k.toNat ≤ 6 →
    ∃ rows : State → Issue → List Row,
    Variable (.plunpk c k val d a stride chunk) c d 1 rows (fun _ => 0) ∧ ∀ s x L y, L < 32 → y < 4 →
      let e := 128 * chunk.toNat + 4 * L + y
      let bit := fun p =>
        let r := a.toNat + p * stride.toNat
        if r ≤ 254 ∧ r < allocated x.w.nregs then (x.v (BitVec.ofNat 8 r) (e / 32)).getLsbD (e % 32) else false
      let m := ((List.range (k.toNat + 2)).map fun p => if 0 < p ∧ bit p = true then 2 ^ (7 - p) else 0).foldl (· + ·) 0
      (Row.lane ((rows s x).getD 0 []) L).toNat / 2 ^ (8 * y) % 2 ^ 8 =
        if val then wrapN (nestedVal (bit 0) m (k.toNat + 2)) 8 else (if bit 0 = true then 128 else 0) + m) ∧
  (∀ (c : Ctl) (tgt : ScaleTgt) (d a : Reg),
    Variable (.bscale c tgt d a) c d 1 (fun _ x => [Row.ofLanes fun L => BitVec.ofNat 32 (bscaleCode tgt (x.v a L).toNat)]) fun _ => 0) ∧
  ∀ (c : Ctl) (tgt : ScaleTgt) (sat : Bool) (m : RMode) (dby sby : BitVec 2) (d a b : Reg), ∃ rows : State → Issue → List Row,
    let y := fun (x : Issue) L => sccvByte tgt sat m (x.v a L).toNat ((x.v b L).toNat / 2 ^ (8 * sby.toNat) % 2 ^ 8)
    Variable (.sccv c tgt sat m dby sby d a b) c d 1 rows (fun x => flags x fun L => (y x L).2) ∧
    ∀ s x L, L < 32 → (y x L).1 < 256 →
      let v := (Row.lane ((rows s x).getD 0 []) L).toNat
      v / 2 ^ (8 * dby.toNat) % 2 ^ 8 = (y x L).1 ∧
      ∀ k, k < 4 → k ≠ dby.toNat → v / 2 ^ (8 * k) % 2 ^ 8 = (x.v d L).toNat / 2 ^ (8 * k) % 2 ^ 8

/-- R41, R49, R60: the result of a performed operation returns to the wave it was issued for: every hold of the operation has its
result, its flag is released, and registers, clause and PC table are unchanged. A result for another allocation of the slot is
dropped, and GENDROP counts it up to its limit. That the WSTAT bits of an operation that no hold is left of reach WSTAT at its return is the
model's choice (log 7). -/
def Obligations.ResultReturn : Prop :=
  (∀ (s : State) (id : Nat) (o : Op) (w : Wave), FMap.get? s.ops id = some o → o.done = true → returns o.instr = true →
    s.wave? o.wave = some w → w.gen = o.gen →
    ∃ w' : Wave, exec (.variableResultReturn id) s =
        .next { s with ops := FMap.erase s.ops id, waves := FMap.set s.waves o.wave w' } ∧
      w' = { w with holds := w'.holds, flags := w'.flags, wstat := w'.wstat } ∧
      w'.holds.map Hold.reg = w.holds.map Hold.reg ∧
      (∀ (k : Nat) (h h' : Hold), w.holds[k]? = some h → w'.holds[k]? = some h' →
        h'.pre = h.pre ∧ h'.lanes = h.lanes ∧ h'.flag = h.flag ∧ h'.op = h.op ∧ (h.op ≠ id → h' = h) ∧
        (h.op = id → ∀ j, o.dsts.findIdx? (· == h.reg) = some j → h'.result = some (o.vals.getD j Row.zero))) ∧
      (∀ f, f < w.flags.length → List.getD w'.flags f 0 = if o.flag = some f then List.getD w.flags f 0 - 1 else List.getD w.flags f 0) ∧
      w'.wstat = if w.holds.any (fun h => h.op == id) then w.wstat else w.wstat ||| o.raised) ∧
  ∀ (s : State) (id : Nat) (o : Op) (w : Wave), FMap.get? s.ops id = some o → o.done = true → returns o.instr = true →
    s.wave? o.wave = some w → w.gen ≠ o.gen →
    ∃ t, exec (.variableResultReturn id) s = .next t ∧ t.waves = s.waves ∧ t.ops = FMap.erase s.ops id ∧
      (t.core o.core).gendrop = min (2 ^ 32 - 1) ((s.core o.core).gendrop + 1)

/-! ### Control -/

/-- R31, R103: the six transfers complete. Each active lane goes to its own target, the rest of the run falls through, the calls write
the fall-through address to their link pair, and a UNIFORM branch whose run disagrees sets UNIV. A misaligned register target traps with
class 4 and the target of the lowest such lane. -/
def Obligations.Transfers : Prop :=
  (∀ (c : Ctl) (hint : Hint) (off : BitVec 16) (s : State) (x : Issue), Issues c [] s x →
    ∃ t, exec (.bra c hint off) s = .next t ∧
      LeftFor s x 255 (if hint = .uniform ∧ x.act ≠ 0 ∧ x.act ≠ x.cl.run then wUNIV else 0) (fun _ => x.cl.cla + off.signExtend 52) t) ∧
  (∀ (c : CtlL) (off : BitVec 32) (s : State) (x : Issue), Issues (CtlL.full c) [] s x →
    ∃ t, exec (.jmp c off) s = .next t ∧ LeftFor s x 255 0 (fun _ => x.cl.cla + off.signExtend 52) t) ∧
  (∀ (c : CtlL) (d : Reg) (off : BitVec 32) (s : State) (x : Issue), Issues (CtlL.full c) (dstGroup d 2) s x →
    ∃ t, exec (.call c d off) s = .next t ∧ LeftFor s x d 0 (fun _ => x.cl.cla + off.signExtend 52) t) ∧
  (∀ (c : Ctl) (a : Reg) (s : State) (x : Issue) (L : Nat), x.act.getLsbD L = true → x.vd a L % 16 ≠ 0 →
    (∀ K, K < L → x.act.getLsbD K = true → x.vd a K % 16 = 0) →
    (Issues c [] s x → exec (.jmpi c a) s = .next (x.trap s 4 (x.vd a L)) ∧ exec (.ret c a) s = .next (x.trap s 4 (x.vd a L))) ∧
    ∀ d : Reg, Issues c (dstGroup d 2) s x → exec (.calli c d a) s = .next (x.trap s 4 (x.vd a L))) ∧
  ∀ (c : Ctl) (a : Reg) (s : State) (x : Issue), (∀ L, x.act.getLsbD L = true → x.vd a L % 16 = 0) →
    (Issues c [] s x →
      (∃ t, exec (.jmpi c a) s = .next t ∧ LeftFor s x 255 0 (fun L => BitVec.ofNat 52 (x.vd a L / 16)) t) ∧
      ∃ t, exec (.ret c a) s = .next t ∧ LeftFor s x 255 0 (fun L => BitVec.ofNat 52 (x.vd a L / 16)) t) ∧
    ∀ d : Reg, Issues c (dstGroup d 2) s x →
      ∃ t, exec (.calli c d a) s = .next t ∧ LeftFor s x d 0 (fun L => BitVec.ofNat 52 (x.vd a L / 16)) t

/-- R102, R104 to R106: NOP only ends its slot; WAITF whose flags are clear accepts their registers and ends its slot, and while one
is busy nothing changes; YIELD and EXIT end the clause at the fall-through, and EXIT marks the active threads exited. -/
def Obligations.SlotControl : Prop :=
  (∀ (c : Ctl) (s : State) (x : Issue), Issues c [] s x →
    (∃ t, exec (.nop c) s = .next t ∧ FixedDone s x 255 1 (fun _ _ => 0) (fun _ => 0) t) ∧
    (∀ mask : BitVec 12, (∀ f, f < 12 → mask.getLsbD f = true → x.w.busy f = false) →
      ∃ t, exec (.waitf c mask) s = .next t ∧
        let y : Issue := { x with w := x.w.acceptMask mask }
        ∃ w : Wave, t = { s with waves := FMap.set s.waves s.cur w } ∧ SlotOver y w ∧
          (∀ r L, L < 32 → w.value r L = y.w.value r L) ∧ w.holds = y.w.holds ∧ w.statusSoFar = y.w.statusSoFar) ∧
    (∀ mask : BitVec 12, (∃ f, f < 12 ∧ mask.getLsbD f = true ∧ x.w.busy f = true) → exec (.waitf c mask) s = .next s)) ∧
  (∀ (c : Ctl) (s : State) (x : Issue), Issues c [] s x →
    ∃ t, LeftFor s x 255 0 (fun _ => x.fall) t ∧
      exec (.yieldI c) s = .next (if x.act ≠ 0 ∧ s.anyCould s.cur = true then t.leaveActive s.cur else t)) ∧
  ∀ (c : Ctl) (s : State) (x : Issue), Issues c [] s x → x.w.pct.length = 32 →
    ∃ t, LeftFor s x 255 0 (fun _ => x.fall) t ∧
      (x.act = 0 → exec (.exit c) s = .next t) ∧
      (x.act ≠ 0 → ∃ (u : State) (w v : Wave), exec (.exit c) s = .next (u.afterExit x.w.wg) ∧ t.wave? s.cur = some w ∧ u = t.setWave s.cur v ∧
        v = { w with pct := v.pct } ∧
        ∀ (L : Nat) (e : PcEntry), w.pct[L]? = some e → v.pct[L]? = some { e with x := e.x || x.act.getLsbD L })

/-- R108, R109, R121, R182, R248: an arrival is recorded, a second one at a level only raises BOV, at its issue also where it is performed later; an
instance completes when every thread of its group is recorded, and its wave not stopped, or has exited, and not before (that a wave stopped by a
trap counts as one stopped by a HALT is log 118). BAR, BARA and BARW complete: performed at once where nothing older has to be waited for, else
listed to be performed later. -/
def Obligations.Barriers : Prop :=
  (∀ (c : Ctl) (sel : BarSel) (s : State) (x : Issue) (g : Workgroup) (k : Kernel), Issues c [] s x → x.act ≠ 0 →
    s.wg? x.w.wg = some g → s.kernelOf g = some k →
    let level := x.level k sel
    let sc := barScope k g x.w.index x.act level
    let ls := LaneMask.lanes x.act
    let arrive := fun (t : State) =>
      let u := ls.foldl (fun t L => t.arriveOne s.cur level L g.ticket) (t.publish (waveCore s.cur) sc)
      if level = 7 then u.checkGangBar g.gang
      else (dedup (ls.map fun L => groupOf k level (x.w.index * 32 + L))).foldl (fun t q => t.checkBar x.w.wg level q) u
    let wait := fun (t : State) => ls.foldl (fun t L => t.waitOne s.cur level sc L) t
    let second := ∃ L, x.act.getLsbD L = true ∧ ((FMap.get? x.w.pend (L * 8 + level)).isSome = true ∨ ∃ p ∈ s.ops, p.2.wave = s.cur ∧ p.2.aux = level ∧
      p.2.todo.getLsbD L = true ∧ ∃ c' sel', p.2.instr = .bar c' sel' ∨ p.2.instr = .bara c' sel')
    let later := fun (i : Instr) (u : State) => ∃ o, FMap.get? u.ops s.nextId = some o ∧ o.instr = i ∧ o.lanes = x.act ∧ o.aux = level ∧ o.done = false
    (∃ t, LeftFor s x 255 0 (fun _ => x.fall) t ∧
      (s.barReady s.cur s.nextId x.act sc false = true → exec (.barw c sel) s = .next ((wait t).noteSwappable x.w.wg)) ∧
      (s.barReady s.cur s.nextId x.act sc true = true → exec (.bar c sel) s = .next ((wait (arrive t)).noteSwappable x.w.wg))) ∧
    (s.barReady s.cur s.nextId x.act sc true = true →
      ∃ t, FixedDone s x 255 1 (fun _ _ => 0) (fun _ => 0) t ∧ exec (.bara c sel) s = .next ((arrive t).noteSwappable x.w.wg)) ∧
    (s.barReady s.cur s.nextId x.act sc false = false → ∃ u, exec (.barw c sel) s = .next u ∧ later (.barw c sel) u) ∧
    (s.barReady s.cur s.nextId x.act sc true = false →
      (∃ u, exec (.bar c sel) s = .next u ∧ later (.bar c sel) u) ∧
      ∃ u w, exec (.bara c sel) s = .next u ∧ later (.bara c sel) u ∧ u.wave? s.cur = some w ∧
        (second → w.statusSoFar = x.w.statusSoFar ||| wBOV) ∧ (¬second → w.statusSoFar = x.w.statusSoFar))) ∧
  (∀ (s : State) (key level L : Nat) (ticket : BitVec 64) (w : Wave) (g : Workgroup), s.wave? key = some w → s.wg? w.wg = some g →
    (FMap.get? w.pend (L * 8 + level)).isSome = true → s.arriveOne key level L ticket = s.setWave key (w.raise wBOV)) ∧
  (∀ (s : State) (key level L : Nat) (ticket : BitVec 64) (w : Wave) (g : Workgroup) (k : Kernel), s.wave? key = some w → s.wg? w.wg = some g →
    s.kernelOf g = some k → level < 7 → FMap.get? w.pend (L * 8 + level) = none →
    let t := w.index * 32 + L
    let key2 := level * 2 ^ 14 + groupOf k level t
    let b := FMap.getD g.bars key2 ⟨0, []⟩
    ∃ g', (s.arriveOne key level L ticket).wg? w.wg = some g' ∧ FMap.get? g'.bars key2 = some { b with arrived := b.arrived ++ [t] }) ∧
  ∀ (s : State) (n level q : Nat) (g : Workgroup) (k : Kernel), s.wg? n = some g → s.kernelOf g = some k →
    let b := FMap.getD g.bars (level * 2 ^ 14 + q) ⟨0, []⟩
    let stopped := fun (t : Nat) => s.waveStopped (g.waves.getD (t / 32) 0)
    ((∃ t ∈ groupThreads k g level q, (t ∉ b.arrived ∨ stopped t = true) ∧ s.threadExited g t = false) → s.checkBar n level q = s) ∧
    (b.arrived ≠ [] → (∀ t ∈ groupThreads k g level q, (t ∈ b.arrived ∧ stopped t = false) ∨ s.threadExited g t = true) →
      ∃ g', (s.checkBar n level q).wg? n = some g' ∧ FMap.get? g'.bars (level * 2 ^ 14 + q) = some ⟨b.inst + 1, []⟩)

/-- R110, R111: SWAIT blocks its active threads and looks at each word at once, a wait whose condition holds releases its thread, and another keeps
an entry; behind a phase, or an access that reaches a word and is not under way, it issues too, and its words are looked at when that is over; SWAKE
completes and checks the waiters of its line; misaligned addresses trap. The model's choices: which accesses a check waits for (log 149), that the
check of a word of another package goes there as a request of its own (log 9), and that SWAKE is performed in its step with what of the wave can
follow it (log 5). -/
def Obligations.WordWaits : Prop :=
  (∀ (c : Ctl) (cmp : SwCmp) (dbl : Bool) (d : Reg) (m : MemRef) (s : State) (x : Issue), Issues c [] s x →
    let n := if dbl then 8 else 4
    let ls := LaneMask.lanes x.act
    let cmpd := fun L => BitVec.ofNat 64 (if dbl then x.vd d L else (x.v d L).toNat)
    ((∀ L, x.act.getLsbD L = true → x.eaG m n L % n = 0) →
      (x.act = 0 → ∃ t, exec (.swait c cmp dbl d m) s = .next t ∧ LeftFor s x 255 0 (fun _ => x.fall) t) ∧
      let behind := s.phasePending s.cur s.nextId = true ∨ ∃ L, x.act.getLsbD L = true ∧ s.waitBehind s.cur s.nextId L (x.eaG m n L) n = true
      (x.act ≠ 0 → behind → x.w.pct.length = 32 →
        ∃ (t u : State) (w v : Wave) (o : Op), LeftFor s x 255 0 (fun _ => x.fall) t ∧ t.wave? s.cur = some w ∧ exec (.swait c cmp dbl d m) s = .next u ∧
          u.wave? s.cur = some v ∧ v = { w with pct := v.pct, waits := v.waits } ∧ u.ops = FMap.set s.ops s.nextId o ∧ o.instr = .swait c cmp dbl d m ∧
          o.wave = s.cur ∧ o.lanes = x.act ∧ o.done = false ∧ o.dsts = [] ∧ o.flag = none ∧
          ∀ (L : Nat) (e : PcEntry), w.pct[L]? = some e → x.act.getLsbD L = true →
            v.pct[L]? = some { e with blk := true, skip := 0 } ∧ FMap.get? v.waits L = some (.word (x.eaG m n L) dbl cmp (cmpd L))) ∧
      (x.act ≠ 0 → ¬behind → x.w.pct.length = 32 →
        ∃ (t : State) (w v : Wave), LeftFor s x 255 0 (fun _ => x.fall) t ∧ t.wave? s.cur = some w ∧
          exec (.swait c cmp dbl d m) s = .next (((t.setWave s.cur v).startWaits s.cur ls dbl cmp (x.eaG m n) cmpd).noteSwappable x.w.wg) ∧
          v = { w with pct := v.pct, waits := v.waits } ∧
          ∀ (L : Nat) (e : PcEntry), w.pct[L]? = some e → x.act.getLsbD L = true →
            v.pct[L]? = some { e with blk := true, skip := 0 } ∧ FMap.get? v.waits L = some (.word (x.eaG m n L) dbl cmp (cmpd L)))) ∧
    ∀ L a, x.act.getLsbD L = true → (∀ K, K < L → x.act.getLsbD K = true → x.eaG m n K % n = 0) → x.eaG m n L = a → a % n ≠ 0 →
      exec (.swait c cmp dbl d m) s = .next (x.trap s 4 a)) ∧
  (∀ (s : State) (key L pa : Nat) (dbl : Bool) (cmp : SwCmp) (v : BitVec 64), (∀ i off, s.backing pa ≠ .fabric i off) →
    (swCond cmp dbl (s.waitWord pa dbl) v = true → s.swaitCheck key L pa dbl cmp v = s.unblock key L) ∧
    (swCond cmp dbl (s.waitWord pa dbl) v = false →
      ∃ e, (s.swaitCheck key L pa dbl cmp v) = s.modDie (s.waitDie key pa) fun d => { d with waiters := d.waiters ++ [⟨key, L, pa, e⟩] })) ∧
  (∀ (s : State) (key L pa i off : Nat) (dbl : Bool) (cmp : SwCmp) (v : BitVec 64) (w : Wave) (a : Aperture), s.backing pa = .fabric i off →
    s.wave? key = some w → s.aperture? w.ctx pa = some a → (∀ r ∈ s.fabricReqs, r.2.waiter ≠ some (key, L)) →
    ∃ r : FabricReq, s.swaitCheck key L pa dbl cmp v = s.fabricSend r ∧ r.waiter = some (key, L) ∧ r.pkg = a.pkg ∧ r.acc.window = a.win ∧
      r.acc.offset = off ∧ r.acc.operand = v) ∧
  (∀ (s : State) (key L : Nat) (w : Wave) (e : PcEntry), s.wave? key = some w → w.pct[L]? = some e → L < 32 →
    ∃ w', (s.unblock key L).wave? key = some w' ∧ w'.pct[L]? = some { e with blk := false }) ∧
  ∀ (c : Ctl) (m : MemRef),
    Performs (.swake c m) c (fun _ x => addrRows (x.eaG m 4)) (fun _ => 0) (fun _ x => (x.misaligned 4 (x.eaG m 4)).map fun a => (4, a)) ∧
    Traps (.swake c m) c [] (fun _ x => (x.misaligned 4 (x.eaG m 4)).map fun a => (4, a))

/-- R112, R113, R192: CVSET arms an idle register of the workgroup with a legal mask; CVSIGN and the six MMA sign for their active
lanes as the member of their core and quarter, and complete; anything else raises CVE and changes no register. -/
def Obligations.Convergence : Prop :=
  (∀ (c : Ctl) (cv : BitVec 4) (a : Reg) (s : State) (x : Issue) (g : Workgroup), Issues c [] s x → x.act ≠ 0 → s.wg? x.w.wg = some g →
    let ok := cvMaskOk g (x.u a) = true ∧ (g.cv cv.toNat).armed = none ∧ cv.toNat < g.cvs.length
    (ok → exec (.cvset c cv a) s = .next ((x.done s x.w).modWg x.w.wg fun g => g.modCv cv.toNat fun r =>
      { armed := some (BitVec.ofNat 16 (x.u a)), count := r.count + 1, members := [] })) ∧
    (¬ok → exec (.cvset c cv a) s = .next (x.done s (x.w.raise wCVE)))) ∧
  (∀ (c : Ctl) (ka kb : BitVec 3) (cv : BitVec 4) (ba bb : BitVec 2) (sc : Bool) (a b r d : Reg) (s : State) (x : Issue) (g : Workgroup),
    Issues c [] s x → x.act ≠ 0 → s.wg? x.w.wg = some g → FMap.get? x.w.cvWait cv.toNat = none →
    let n := cv.toNat
    let k := 4 * g.coreIdx (waveCore s.cur) + waveQtr s.cur
    let all := [Instr.cvsign c cv, .mmaf c cv a b, .mmab c cv a b, .mmah c cv a b, .mmae4 c sc cv ba bb a b r d,
      .mmae5 c sc cv ba bb a b r d, .mman c ka kb cv ba bb a b r d]
    ((∀ m, (g.cv n).armed = some m → m.getLsbD k = false) →
      ∀ i ∈ all, exec i s = .next (x.done s (({ x.w with cvWait := FMap.erase x.w.cvWait n } : Wave).raise wCVE))) ∧
    ∀ m, (g.cv n).armed = some m → m.getLsbD k = true → FMap.get? (g.cv n).members k = none → x.w.full 1 = false →
      ∀ j i, all[j]? = some i → ∃ (t : State) (o : Member) (w : Wave), exec i s = .next (t.checkCv x.w.wg n) ∧ o.wave = s.cur ∧ o.lanes = x.act ∧ o.op = s.nextId ∧
        o.mma = (if j = 0 then [] else [i]) ∧ (∃ g', t.wg? x.w.wg = some g' ∧ (n < g.cvs.length → FMap.get? (g'.cv n).members k = some o)) ∧
        t.wave? s.cur = some w ∧ (1 < x.w.counters.length → w.counter 1 = x.w.counter 1 ++ [⟨s.nextId, 0, false⟩]) ∧ SlotOver x w)

/-- R50, R51, R52, R120, R121: BRK and TRAP take their trap with their immediate in DETAIL, unless no lane is active; ERRRD returns
the status and clears the bits of its mask; taking a trap records the run in the PC table, stops the wave and delivers a record. -/
def Obligations.TrapsAndStatus : Prop :=
  (∀ (c : Ctl) (imm : BitVec 16) (s : State) (x : Issue), Issues c [] s x →
    (x.act ≠ 0 → exec (.brk c imm) s = .next (x.trap s 8 imm.toNat) ∧ exec (.trap c imm) s = .next (x.trap s 9 imm.toNat)) ∧
    (x.act = 0 → exec (.brk c imm) s = .next (x.done s x.w) ∧ exec (.trap c imm) s = .next (x.done s x.w))) ∧
  (∀ (c : Ctl) (d : Reg) (sel : SrcSel) (s : State) (x : Issue), IssuesLater c (dstGroup d 1) s x → x.act ≠ 0 → x.pd = 0 →
    let cleared : Wave := { x.w with wstat := x.w.wstat &&& ~~~BitVec.ofNat 12 (x.selector sel x.low) }
    let y : Issue := { x with w := cleared }
    exec (.errrd c d sel) s = .next (y.addOp s c (.errrd c d sel) (dstGroup d 1) []
      ((dstGroup d 1).map fun _ => Row.splat (x.w.wstat.zeroExtend 32)) 0 0 true).2) ∧
  ∀ (s : State) (x : Issue) (cls detail : Nat) (w : Wave), x.w = w → w.pct.length = 32 →
    ∃ (t : State) (v : Wave) (asid vmid : Nat), x.trap s cls detail = t.deliverTrap (waveDie x.key)
        (trapRecord (List.getD x.cl.words x.cl.slot 0) detail (x.cl.cla.toNat * 16 + x.cl.slot) x.cl.run.toNat asid vmid x.key cls) ∧
      t = (if w.priv = true then ({ s with waves := t.waves } : State).modDie (waveDie x.key) fun d => { d with fwHeld := true }
        else { s with waves := t.waves }) ∧ t.wave? x.key = some v ∧ v = { w with pct := v.pct, stop := .trapSlot, active := false } ∧
      (∀ cx, s.ctx? w.ctx = some cx → asid = cx.asid ∧ vmid = cx.vmid) ∧
      ∀ (L : Nat) (e : PcEntry), w.pct[L]? = some e →
        v.pct[L]? = some (if x.cl.run.getLsbD L then { e with cla := x.cl.cla, slot := x.cl.slot } else e)

/-! ### Memory -/

/-- R173, R175, R176, R179 to R181: the global loads, stores and atomics and PREF complete: loads and ATOMG are listed with their
addresses and operands captured, stores and REDG are performed at once as far as they can be, and a misaligned address traps with
class 4. That these are performed in their issue step, with the older accesses that can be, is the model's choice (log 5). -/
def Obligations.GlobalAccesses : Prop :=
  (∀ (c : Ctl) (size : Size) (na : Bool) (d : Reg) (m : MemRef),
    let n := Size.bytes size
    let check := fun (_ : State) (x : Issue) => (x.misaligned n (x.eaG m n)).map fun a => (4, a)
    Later (.ldg c size na d m) c (dstGroup d (sizeRegs size)) (fun _ x => addrRows (x.eaG m n)) check ∧
    Traps (.ldg c size na d m) c (dstGroup d (sizeRegs size)) check ∧
    Performs (.stg c size d m) c (fun _ x => addrRows (x.eaG m n) ++ x.dataRows d (sizeRegs size)) (fun _ => 0) check ∧
    Traps (.stg c size d m) c [] check) ∧
  (∀ (c : Ctl) (op : AtomOp) (dbl : Bool) (scope : Scope) (ntf : Bool) (d a b n : Reg),
    let ea := fun (x : Issue) L => x.vd a L % 2 ^ 56
    let check := fun (_ : State) (x : Issue) => (x.misaligned (if dbl then 8 else 4) (ea x)).map fun a => (4, a)
    Later (.atomg c op dbl scope ntf d a b n) c (dstGroup d (if dbl then 2 else 1)) (fun _ x => x.atomRows (ea x) b n) check ∧
    Traps (.atomg c op dbl scope ntf d a b n) c (dstGroup d (if dbl then 2 else 1)) check ∧
    Performs (.redg c op dbl scope ntf a b) c (fun _ x => x.atomRows (ea x) b 255) (fun _ => 0) check ∧
    Traps (.redg c op dbl scope ntf a b) c [] check) ∧
  (∀ (x : Issue) (n : Nat) (ea : Nat → Nat) (a : Nat), x.misaligned n ea = some a ↔
    ∃ L, x.act.getLsbD L = true ∧ ea L = a ∧ a % n ≠ 0 ∧ ∀ K, K < L → x.act.getLsbD K = true → ea K % n = 0) ∧
  ∀ (c : Ctl) (l2 : Bool) (m : MemRef),
    Performs (.pref c l2 m) c (fun _ x => addrRows (x.eaG m 4)) (fun _ => 0) fun _ _ => none

/-- R173, R175, R177 to R179, R186, R187, R289: the scratchpad and remote-window instructions complete: a load, an atomic and SPTEST are
listed with their sources, SPMARK with its flag, which it keeps until it is performed; a scratchpad access must lie in the workgroup's
scratchpad, a remote access in that of the core it names, or it traps: misalignment with class 4 before range with class 6. That a store or an
SPMARK is performed in its issue step as far as it can be, with what is older, is the model's choice (log 5), and so is the size 0 in the
`DETAIL` of a refused window address (log 119). -/
def Obligations.PadAccesses : Prop :=
  (∀ (c : Ctl) (size : Size) (d : Reg) (m : MemRef),
    let n := Size.bytes size
    let rows := fun (x : Issue) => addrRows fun L => (x.eaS m n L).toNat
    let pad := fun (s : State) (x : Issue) => checkPad s x n (x.eaS m n)
    let win := fun (s : State) (x : Issue) => checkRemote s x n (x.eaS m n)
    Later (.lds c size d m) c (dstGroup d (sizeRegs size)) (fun _ x => rows x) pad ∧
    Traps (.lds c size d m) c (dstGroup d (sizeRegs size)) pad ∧
    Later (.ldr c size d m) c (dstGroup d (sizeRegs size)) (fun _ x => rows x) win ∧
    Traps (.ldr c size d m) c (dstGroup d (sizeRegs size)) win ∧
    Performs (.sts c size d m) c (fun _ x => rows x ++ x.dataRows d (sizeRegs size)) (fun _ => 0) pad ∧ Traps (.sts c size d m) c [] pad ∧
    Performs (.str c size d m) c (fun _ x => rows x ++ x.dataRows d (sizeRegs size)) (fun _ => 0) win ∧ Traps (.str c size d m) c [] win) ∧
  (∀ (c : Ctl) (op : AtomOp) (dbl : Bool) (d a b n : Reg),
    let check := fun (s : State) (x : Issue) => checkPad s x (if dbl then 8 else 4) fun L => ((x.v a L).toNat : Int)
    Later (.atoms c op dbl d a b n) c (dstGroup d (if dbl then 2 else 1)) (fun _ x => x.atomRows (fun L => (x.v a L).toNat) b n) check ∧
    Traps (.atoms c op dbl d a b n) c (dstGroup d (if dbl then 2 else 1)) check) ∧
  (∀ (c : Ctl) (st : LineState) (a : Reg) (b : SrcB),
    let check := fun (s : State) (x : Issue) =>
      if x.u a % 128 ≠ 0 then some (4, x.u a)
      else if 0 < x.ub b x.low ∧ s.padSize x < x.u a + x.ub b x.low * 128 then some (6, x.u a % 2 ^ 32 + s.padSize x % 2 ^ 32 * 2 ^ 32)
      else none
    PerformsWith (.spmark c st a b) c c (fun _ x => addrRows fun _ => x.u a) (fun x => x.ub b x.low) check ∧ Traps (.spmark c st a b) c [] check) ∧
  (∀ (c : Ctl) (d : Reg) (b : SrcB),
    let off : Issue → Nat → Nat := fun x L => match b with | .reg r => (x.v r L).toNat | .imm v => v.toNat * 128
    let check := fun (s : State) (x : Issue) => checkPad s x 1 fun L => (off x L : Int)
    Later (.sptest c d b) c (dstGroup d 1) (fun _ x => addrRows (off x)) check ∧ Traps (.sptest c d b) c (dstGroup d 1) check) ∧
  ∀ (s : State) (x : Issue) (n : Nat) (ea : Nat → Int), 0 < n →
    (checkPad s x n ea = none ↔ ∀ L, x.act.getLsbD L = true → ea L % n = 0 ∧ 0 ≤ ea L ∧ ea L + n ≤ s.padSize x)

/-- R176, R282, R291: what a store leaves of device memory as its core reads it. STG of a wave that addresses physical memory, with nothing of the
wave's under way, no row throttled and room in the caches for its lines (an eviction lets a copy go), completes; then every byte outside the stored
bytes reads as before, on every core that has no access to them, and every stored byte reads as the last active lane wrote it. The stored bytes are
the access size in bytes from each active lane's effective address. That a privileged wave's addresses are physical is the model's choice (log 12);
a user wave's store, which is translated, is not the subject here. -/
def Obligations.StoreBytes : Prop :=
  let seen := fun (s : State) (core a : Nat) => (s.coreRead core a 1 false).1
  (∀ (c : Ctl) (size : Size) (d : Reg) (m : MemRef) (s : State) (x : Issue),
    let n := Size.bytes size
    let pa := fun L => x.eaG m n L % 2 ^ 52
    IssuesLater c [] s x → x.w.priv = true → s.ops = [] → s.fabricReqs = [] → s.hotRows = [] → (∀ p ∈ s.dies, p.2.reqs = []) →
    s.l1Takes (waveCore s.cur) ((LaneMask.lanes x.act).map fun L => pa L / 48) → (∀ e, (s.die e).l2.length + 32 ≤ l2Lines) →
    (∀ k v, FMap.get? (s.core (waveCore s.cur)).l1 k = some v → v.data.length = 48) →
    (∀ e k v, FMap.get? (s.die e).l2 k = some v → v.data.length = 48) →
    (∀ L, x.act.getLsbD L = true → x.eaG m n L % n = 0 ∧ ∃ e, s.backing (pa L) = .dev e) →
    ∃ t, exec (.stg c size d m) s = .next t ∧
      (∀ a, (∀ L, x.act.getLsbD L = true → a < pa L ∨ pa L + n ≤ a) → seen t (waveCore s.cur) a = seen s (waveCore s.cur) a) ∧
      (∀ a core, core ≠ waveCore s.cur → seen t core a = seen s core a) ∧
      ∀ L k, x.act.getLsbD L = true → k < n → (∀ K, L < K → x.act.getLsbD K = true → pa L + k < pa K ∨ pa K + n ≤ pa L + k) →
        seen t (waveCore s.cur) (pa L + k) = [BitVec.ofNat 8 ((x.v (nextReg d (k / 4)) L).toNat / 2 ^ (8 * (k % 4)))]) ∧
  ∀ (s : State) (core pa e : Nat) (bs : List Byte), s.backing pa = .dev e → pa % 48 + bs.length ≤ 48 →
    (∀ k v, FMap.get? (s.core core).l1 k = some v → v.data.length = 48) → (∀ e k v, FMap.get? (s.die e).l2 k = some v → v.data.length = 48) →
    ((s.coreWrite core pa bs).coreRead core pa bs.length false).1 = bs

/-- R180, R181, R283: an atomic at DEV returns the old value as it stands at the home once the core's and its die's copies of the sector have been
written there and the home L2 evicts no line, leaves the new value there, and every other byte of the home as it was; the operations are those of
R180. -/
def Obligations.AtomicValues : Prop :=
  (∀ (s : State) (core pa e w b n : Nat) (op : AtomOp), s.backing pa = .dev e → s.backing (pa / 48 * 48) = .dev e →
    pa < 2 ^ 52 → (w = 32 ∨ w = 64) → pa % (w / 8) = 0 →
    FMap.get? (s.core core).l1 (pa / 48) = none → (core / 48 = e ∨ FMap.get? (s.die (core / 48)).l2 (pa / 48) = none) →
    (∀ c, FMap.get? (s.die e).l2 (pa / 48) = some c → c.data.length = 48) → (s.die e).l2Full (pa / 48) = false →
    let r := s.atomicAt core pa op w .dev b n
    r.1 = leNat (s.homeRead pa (w / 8)) ∧ r.2.homeRead pa (w / 8) = leBytes (w / 8) (atomNew op w r.1 b n) ∧
    ∀ a, a < pa ∨ pa + w / 8 ≤ a → r.2.homeByte a = s.homeByte a) ∧
  (∀ (w : Nat) (old b n : Nat), w = 32 ∨ w = 64 → old < 2 ^ w → b < 2 ^ w → n < 2 ^ w →
    let f := if w = 64 then FFmt.f64 else FFmt.f32
    atomNew .add w old b n = (old + b) % 2 ^ w ∧ atomNew .umin w old b n = (if old ≤ b then old else b) ∧
    atomNew .umax w old b n = (if old ≤ b then b else old) ∧ (atomNew .smin w old b n = if sext old w ≤ sext b w then old else b) ∧
    (atomNew .smax w old b n = if sext b w ≤ sext old w then old else b) ∧ atomNew .and w old b n = old &&& b ∧
    atomNew .or w old b n = old ||| b ∧ atomNew .xor w old b n = old ^^^ b ∧ atomNew .xchg w old b n = b ∧
    (atomNew .cas w old b n = if old = b then n else old) ∧ atomNew .fadd w old b n = roundRn (xsum [dec f old, dec f b]) f ∧
    ∀ op, op ≠ AtomOp.fadd → atomNew op w old b n < 2 ^ w)

/-- R182, R183, R290, R303: PHASE and CMAINT complete their issue. A phase that nothing holds up completes: its publish reaches the
home of its scope, its refresh discards what is nearer, and its flag clears; a CMAINT of a wave that addresses physical memory
completes on every sector of its range. That a privileged wave's addresses are physical is the model's choice (log 12); a user wave's CMAINT, which
translates, is not the subject of that clause. -/
def Obligations.PhasesAndMaintenance : Prop :=
  (∀ (c : Ctl) (opt : PhaseOpt) (scope : Scope), Later (.phase c opt scope) c [] (fun _ _ => []) fun _ _ => none) ∧
  (∀ (c : Ctl) (op : MaintOp) (lvl : MaintLevel) (a b : Reg),
    Later (.cmaint c op lvl a b) c [] (fun _ x => (addrRows fun _ => x.ud a % 2 ^ 56) ++ [Row.splat (BitVec.ofNat 32 (x.u b))])
      fun _ _ => none) ∧
  (∀ (s : State) (id : Nat) (o : Op) (c : Ctl) (opt : PhaseOpt) (sc : Scope), FMap.get? s.ops id = some o → o.instr = .phase c opt sc →
    o.done = false → (∀ p ∈ s.ops, p.1 < id → p.2.wave ≠ o.wave ∧ p.2.core ≠ o.core) → waveCore o.wave = o.core →
    (s.core o.core).wcb = [] → s.fabricReqs = [] → (∀ p ∈ s.dies, p.2.reqs = []) →
    let s3 := if opt = .ref then s else s.publish o.core sc
    let s4 := if opt = .pub then s3 else s3.refresh o.core sc
    exec (.phaseComplete id) s = .next (s4.endOrder id o)) ∧
  (∀ (s : State) (core : Nat) (sc : Scope), Scope.reach sc ≠ 0 → ((s.refresh core sc).core core).l1 = []) ∧
  ∀ (s : State) (id : Nat) (o : Op) (w : Wave) (c : Ctl) (op : MaintOp) (lvl : MaintLevel) (a b : Reg), FMap.get? s.ops id = some o →
    o.instr = .cmaint c op lvl a b → o.done = false → (∀ p ∈ s.ops, p.1 < id → p.2.wave ≠ o.wave ∧ p.2.core ≠ o.core) →
    waveCore o.wave = o.core → (op = .inv ∨ (s.fabricReqs = [] ∧ (s.core o.core).wcb = [])) →
    (∀ p ∈ s.dies, p.2.reqs = []) → s.wave? o.wave = some w → w.priv = true → o.aux = 0 →
    let t := (pagesOf o.maintSpan.1 o.maintSpan.2).foldl
      (fun u p => (u.maintRange o.core w.ctx op lvl (p.1 % 2 ^ 52) p.2).modOp id fun o => { o with aux := o.aux + 1 }) s
    ∃ o', exec (.cmaintComplete id) s = .next ((t.modOp id fun o => { o with todo := 0, done := true }).endOrder id o') ∧
      o'.flag = o.flag ∧ o'.wave = o.wave ∧ o'.gen = o.gen

/-- R185: WAYCFG answers a refusal, and a request for the size there is, at its issue; another is listed, and a smaller size holds from the issue
on, on the issuing core alone. Performed, it sets the split and the size there: new lines are EMPTY, and no line of the L1 stays in a way of the
scratchpad. -/
def Obligations.WaySplit : Prop :=
  (∀ (c : Ctl) (d : Reg) (b : SrcB) (s : State) (x : Issue) (g : Workgroup) (k : Kernel), IssuesLater c (dstGroup d 1) s x →
    s.wg? x.w.wg = some g → s.kernelOf g = some k →
    let core := waveCore x.key
    let n := x.ub b x.low
    let size := s.padSize x
    let refused := k.flg.testBit 2 = false ∨ (if 40 ≤ core % 48 then 30 else 14) < n
    let list := fun (v : List Row) (aux : Nat) (now : Bool) => (x.addOp s c (.waycfg c d b) (dstGroup d 1) [] v 0 aux now).2
    let answer := fun (v : Nat) => (dstGroup d 1).map fun _ => Row.splat (BitVec.ofNat 32 v)
    (x.act = 0 → exec (.waycfg c d b) s = .next (x.done s x.w)) ∧
    (x.act ≠ 0 → s.olderWaycfg core s.nextId = false → s.phasePending x.key s.nextId = false →
      (refused → exec (.waycfg c d b) s = .next (list (answer (size + 2 ^ 31)) (2 ^ 32) true)) ∧
      (¬refused → n * 49152 = size → exec (.waycfg c d b) s = .next ((list (answer size) n true).modWg x.w.wg fun g =>
        g.setSize (g.coreIdx core) (min (g.size (g.coreIdx core)) (n * 49152)))) ∧
      (¬refused → n * 49152 ≠ size → exec (.waycfg c d b) s = .next ((list (answer 0) n false).modWg x.w.wg fun g =>
        g.setSize (g.coreIdx core) (min (g.size (g.coreIdx core)) (n * 49152)))))) ∧
  ∀ (s : State) (id : Nat) (o : Op) (c : Ctl) (d : Reg) (b : SrcB) (g : Workgroup), Sole s id o (.waycfg c d b) → s.wg? o.wg = some g →
    s.fabricReqs = [] → s.locks = [] → s.cmds = [] → o.aux < 2 ^ 32 → g.coreIdx o.core < g.spSizes.length →
    ∃ (t : State) (g' : Workgroup), exec (.waycfgComplete id) s = .next t ∧ (t.core o.core).spWays = o.aux ∧ t.wg? o.wg = some g' ∧
      g'.size (g.coreIdx o.core) = o.aux * 49152 ∧ (∀ k, k ≠ g.coreIdx o.core → g'.size k = g.size k) ∧
      (∀ n, ceilDiv (g.size (g.coreIdx o.core)) 128 ≤ n → n < o.aux * 384 → (g'.line (g.coreIdx o.core) n).st = .empty) ∧
      (∀ p ∈ (t.core o.core).l1, o.aux ≤ p.2.way)

/-- R188, R189, R190: the accumulator instructions complete their issue, with the checks of an area; performed, ACCZ clears the cells of
its window, ACCCP copies them, reading before it writes, ACCLD loads them, and ACCST and ACCCV store them; no other cell changes. -/
def Obligations.AccumulatorStore : Prop :=
  (∀ (c : Ctl) (a b r : Reg),
    let rows := fun (l : List Reg) (x : Issue) => l.map fun q => Row.splat (BitVec.ofNat 32 (x.u q))
    Later (.accld c a b r) c [] (fun _ x => rows [a, b, r] x) (fun s x => checkArea s x a b r 4) ∧
    Traps (.accld c a b r) c [] (fun s x => checkArea s x a b r 4) ∧
    Later (.accst c a b r) c [] (fun _ x => rows [a, b, r] x) (fun s x => checkArea s x a b r 4) ∧
    Traps (.accst c a b r) c [] (fun s x => checkArea s x a b r 4) ∧
    Later (.accz c a) c [] (fun _ x => rows [a] x) (fun _ _ => none) ∧
    Later (.acccp c a b) c [] (fun _ x => rows [a, b] x) (fun _ _ => none) ∧
    ∀ (f : FFmt) (sat : Bool) (m : RMode),
      Later (.acccv c f sat m a b r) c [] (fun _ x => rows [a, b, r] x) (fun s x => checkArea s x a b r (FFmt.bits f / 8)) ∧
      Traps (.acccv c f sat m a b r) c [] (fun s x => checkArea s x a b r (FFmt.bits f / 8))) ∧
  (∀ (s : State) (id : Nat) (o : Op) (i : Instr) (g : Workgroup) (u : State) (bad : Bool), Sole s id o i → s.wg? o.wg = some g →
    s.mops = [] → accEffect s id o g = some (u, bad) →
    let v := u.modOp id fun o => { o with todo := 0, done := true }
    exec (.accumulatorComplete id) s =
      .next (((if bad then v.ownerMod o.wave o.gen fun w => w.raise wEERR else v).reap id).pumpGang o.wg)) ∧
  ∀ (s : State) (id : Nat) (o : Op) (g : Workgroup), s.wg? o.wg = some g →
    let ci := g.coreIdx o.core
    let v := o.scalar 0
    let cells := windowCells g v
    let old := fun rc => FMap.getD (s.core o.core).acc rc 0
    let new := fun (u : State) rc => FMap.getD (u.core o.core).acc rc 0
    let addr := fun (e : Nat) (rc : Nat × Nat) => cellAddr v (o.scalar 1) (o.scalar 2 % 2 ^ 20) e rc
    (∀ c a, o.instr = .accz c a → ∃ u, accEffect s id o g = some (u, false) ∧
      ∀ r q, q < 192 → new u (r * 192 + q) = if (r, q) ∈ cells then 0 else old (r * 192 + q)) ∧
    (∀ c a b, o.instr = .acccp c a b → ∃ u, accEffect s id o g = some (u, false) ∧
      let dst := fun (rc : Nat × Nat) => (o.scalar 1 % 256 + (rc.1 - v % 256), o.scalar 1 / 256 % 256 + (rc.2 - v / 256 % 256))
      (∀ rc ∈ cells, g.acc0 ≤ (dst rc).1 → (dst rc).1 < g.acc0 + g.accN → (dst rc).2 < 192 →
        new u ((dst rc).1 * 192 + (dst rc).2) = old (rc.1 * 192 + rc.2)) ∧
      ∀ r q, q < 192 → (∀ rc ∈ cells, dst rc ≠ (r, q)) → new u (r * 192 + q) = old (r * 192 + q)) ∧
    (∀ c a b r, o.instr = .accld c a b r → (∀ rc ∈ cells, (g.line ci (addr 4 rc / 128)).st = .full) →
      ∃ u, accEffect s id o g = some (u, false) ∧ ∀ r q, q < 192 →
        new u (r * 192 + q) = if (r, q) ∈ cells then BitVec.ofNat 32 (leNat (g.spRead ci (addr 4 (r, q)) 4)) else old (r * 192 + q)) ∧
    ∀ (e : Nat) (conv : Word → Nat),
      ((∃ c a b r, o.instr = .accst c a b r) ∧ e = 4 ∧ conv = BitVec.toNat) ∨
        (∃ c f sat m a b r, o.instr = .acccv c f sat m a b r ∧ e = FFmt.bits f / 8 ∧ 0 < e ∧ conv = accConvert f sat m) →
      s.locks = [] → (∀ n, (g.line ci n).st ≠ .poison ∧ (g.line ci n).data.length = 128) → o.scalar 1 % 16 = 0 →
      o.scalar 2 % 16 = 0 → e * (v / 2 ^ 24 % 256 + 1) ≤ o.scalar 2 % 2 ^ 20 →
      ∃ (u : State) (g' : Workgroup), accEffect s id o g = some (u, false) ∧ u.wg? o.wg = some g' ∧ u.cores = s.cores ∧
        ∀ rc ∈ cells, g'.spRead ci (addr e rc) e = leBytes e (conv (old (rc.1 * 192 + rc.2)))

/-! ### Queues and engines -/

/-- R213 to R218: QPUSH puts a marker last on its queue and waits while there is no room; the pops take the oldest entry, or the empty
indication; QLVL reads the levels; a QPOP with nothing expected traps with class 7; WAITC waits for its counter. -/
def Obligations.QueueOperations : Prop :=
  (∀ (c : Ctl) (q : Sys2Proof.Queue) (a : Reg) (s : State) (x : Issue), Issues c [] s x →
    let k := Queue.num q
    let room := (x.w.pushed k).length < 8 ∧ x.w.markers k < 8
    (x.act = 0 → exec (.qpush c q a) s = .next (x.done s x.w)) ∧
    (x.act ≠ 0 → ¬room → exec (.qpush c q a) s = .next s) ∧
    (x.act ≠ 0 → room → k < x.w.push.length → k < x.w.pop.length →
      ∃ (t : State) (w : Wave), exec (.qpush c q a) s = .next t ∧
        t = { s with waves := FMap.set s.waves s.cur w, nextId := s.nextId + 1 } ∧ SlotOver x w ∧ w.holds = x.w.holds ∧
        (∀ r L, L < 32 → w.value r L = x.w.value r L) ∧
        (x.w.pushed k = [] → x.w.markerDue k s.nextId = true →
          w.pushed k = [] ∧ w.present k = x.w.present k ++ [[BitVec.ofNat 32 (x.u a)]]) ∧
        (x.w.markerDue k s.nextId = false → (∀ (j : Nat) (v : Word), PushEntry.marker j v ∈ x.w.pushed k → x.w.markerDue k j = false) →
          w.pushed k = x.w.pushed k ++ [.marker s.nextId (BitVec.ofNat 32 (x.u a))] ∧ w.present k = x.w.present k))) ∧
  (∀ (c : Ctl) (d : Reg) (q : Sys2Proof.Queue),
    let check := fun (s : State) (x : Issue) => if s.expected x.key x.w (Queue.num q) then none else some (7, Queue.num q)
    Later (.qpop c d q) c (dstGroup d 4) (fun _ _ => []) check ∧ Traps (.qpop c d q) c (dstGroup d 4) check ∧
    Later (.qtry c d q) c (dstGroup d 4) (fun _ _ => []) (fun _ _ => none) ∧
    Later (.qlvl c d q) c (dstGroup d 1) (fun _ _ => []) fun _ _ => none) ∧
  (∀ (s : State) (id : Nat) (o : Op) (c : Ctl) (d : Reg) (q : Sys2Proof.Queue) (w : Wave), s.wave? o.wave = some w →
    let k := Queue.num q
    (∀ i, i = .qpop c d q ∨ i = .qtry c d q → Sole s id o i → ∀ e rest, w.present k = e :: rest → w.heldRx = [] →
      Answers s id (s.setWave o.wave { w with pop := modAt w.pop k fun _ => rest }) e) ∧
    (Sole s id o (.qtry c d q) → w.present k = [] → Answers s id s [0, 0, 0, 0xFF000000]) ∧
    (Sole s id o (.qpop c d q) → w.present k = [] →
      (s.expected o.wave w k = false → Answers s id s [0, 0, 0, 0xFF000000]) ∧
      (s.expected o.wave w k = true → exec (.variableResultReturn id) s = .next s)) ∧
    (Sole s id o (.qlvl c d q) → Answers s id s [BitVec.ofNat 32 ((w.present k).length % 256 + (w.pushed k).length % 256 * 2 ^ 8 +
      (match queueClass k with | some n => (w.counter n).length | none => 0) % 64 * 2 ^ 16)])) ∧
  ∀ (c : Ctl) (cls : CntClass) (n : BitVec 6) (s : State) (x : Issue), Issues c [] s x →
    (n.toNat < (x.w.counter (CntClass.num cls)).length ∨ s.parkedLanes x.key x.cl.run = true → exec (.waitc c cls n) s = .next s) ∧
    ((x.w.counter (CntClass.num cls)).length ≤ n.toNat → s.parkedLanes x.key x.cl.run = false →
      exec (.waitc c cls n) s = .next (x.done s x.w))

/-- R173, R213, R217, R219, R225, R227, R228, R230 to R232: the engine commands complete their issue: they are pushed on their queue
with their captured operands, or trap on alignment with class 4 or on a scratchpad range with class 6; a command holds the scratchpad lines that it
reads, a CPYH.GET those that it reads through its own window. That CPYH has no alignment to meet is the model's choice (log 47). -/
def Obligations.EngineCommands : Prop :=
  (∀ (c : Ctl) (st : Bool) (a b r d : Reg),
    Pushes (.cpyt c st a b r d) c ([a] ++ (List.range 5).map (nextReg b) ++ [r] ++ (if st then [d] else []))
      (fun x => [x.uw a] ++ x.us b 5 ++ [x.uw r, x.uw d])
      (fun s x => if x.u r % 128 ≠ 0 then some (4, x.u r)
        else if s.padSize x ≤ x.u r then some (6, rangeDetail (x.u r) (s.padSize x)) else none)
      (fun x => if st then [(x.u r, 2 ^ 28 - x.u r)] else [])) ∧
  (∀ (c : Ctl) (dir : CopyDir) (a b r d : Reg),
    let gs : Bool := dir == .gs || dir == .gg
    let gd : Bool := dir == .sg || dir == .gg
    let src := fun (x : Issue) => if gs then x.ud a else x.u a
    let dst := fun (x : Issue) => if gd then x.ud b else x.u b
    Pushes (.cpyl c dir a b r d) c
      ((if gs then [a, nextReg a 1] else [a]) ++ (if gd then [b, nextReg b 1] else [b]) ++ [r] ++ (if gd then [d] else []))
      (fun x => [BitVec.ofNat 32 (src x), BitVec.ofNat 32 (src x / 2 ^ 32), BitVec.ofNat 32 (dst x), BitVec.ofNat 32 (dst x / 2 ^ 32),
        x.uw r, x.uw d])
      (fun s x =>
        if src x % 16 ≠ 0 then some (4, src x) else if dst x % 16 ≠ 0 then some (4, dst x) else if x.u r % 16 ≠ 0 then some (4, x.u r)
        else if gs = false ∧ s.padSize x < src x + x.u r then some (6, rangeDetail (src x) (s.padSize x))
        else if gd = false ∧ s.padSize x < dst x + x.u r then some (6, rangeDetail (dst x) (s.padSize x))
        else none)
      (fun x => if gs then [] else [(src x, x.u r)])) ∧
  (∀ (c : Ctl) (put : Bool) (a b r : Reg),
    Pushes (.cpyh c put a b r) c [a, b, r] (fun x => [x.uw a, x.uw b, x.uw r])
      (fun s x => if s.padSize x < x.u a + x.u r then some (6, rangeDetail (x.u a) (s.padSize x))
        else match s.windowSize x.w (x.u b) with
          | none => some (6, rangeDetail (x.u b) 0)
          | some z => if z < x.u b % 2 ^ 21 + x.u r then some (6, rangeDetail (x.u b) z) else none)
      (fun x => if put then [(x.u a, x.u r)] else [])
      fun s id x => match s.window x.w.wg (x.u b) with
        | some (n, ci, off) => if put = false ∧ n = x.w.wg ∧ x.u r ≠ 0 then [⟨id, n, ci, off / 128, ceilDiv (off + x.u r) 128, false⟩] else []
        | none => []) ∧
  (∀ (c : Ctl) (l2 : Bool) (a b : Reg),
    let wd := fun (x : Issue) k => (x.v (nextReg a k) x.low).toNat
    let count := fun (x : Issue) => wd x 2 % 2 ^ 16 + 1
    let size := fun (x : Issue) => wd x 2 / 2 ^ 26 + 1
    let args := fun (x : Issue) => x.us a 4 ++ [x.uw b, x.v (nextReg b 1) x.low]
    let check := fun (l2 : Bool) (s : State) (x : Issue) =>
      if wd x 3 % 16 ≠ 0 then some (4, wd x 3) else if l2 = false ∧ x.u b % 128 ≠ 0 then some (4, x.u b)
      else if s.padSize x < wd x 3 + 4 * count x then some (6, rangeDetail (wd x 3) (s.padSize x))
      else if l2 = false ∧ s.padSize x < x.u b + count x * size x then some (6, rangeDetail (x.u b) (s.padSize x))
      else none
    Pushes (.gath c l2 a b) c ((List.range 4).map (nextReg a) ++ (if l2 then [b, nextReg b 1] else [b])) args (check l2)
      (fun x => [(wd x 3, 4 * count x)]) ∧
    Pushes (.scat c a b) c ((List.range 4).map (nextReg a) ++ [b]) args (check false)
      (fun x => [(wd x 3, 4 * count x), (x.u b, count x * size x)]) ∧
    Pushes (.layx c a b) c ((List.range 4).map (nextReg a) ++ [b, nextReg b 1]) args
      (fun _ x => if x.ud b % 192 ≠ 0 then some (4, x.ud b) else none) (fun _ => [])) ∧
  ∀ (c : Ctl) (g : Bool) (a b : Reg),
    let src := fun (x : Issue) => if g then x.ud b else x.u b
    let len := fun (x : Issue) => (x.v (nextReg a 2) x.low).toNat
    ∀ i, i = .send c g a b ∨ i = .sendl c g a b →
      Pushes i c ((List.range 3).map (nextReg a) ++ (if g then [b, nextReg b 1] else [b]))
        (fun x => x.us a 3 ++ [BitVec.ofNat 32 (src x), BitVec.ofNat 32 (src x / 2 ^ 32)])
        (fun s x => if src x % 16 ≠ 0 then some (4, src x)
          else if g = false ∧ s.padSize x < src x + len x then some (6, rangeDetail (src x) (s.padSize x)) else none)
        (fun x => if g then [] else [(src x, len x)])

/-- R43, R100, R217, R221, R225, R227: releasing a command's operands ends its register holds and clears its flag once; the oldest command of a
queue is taken, with its operands released by then (log 144), and one that fails its check is reported with its code; a copy within the scratchpad
completes with the bytes of its source in its destination, every line FULL; a failed copy leaves POISON. -/
def Obligations.EngineCourse : Prop :=
  (∀ (s : State) (id : Nat) (c : Cmd) (w : Wave), FMap.get? s.cmds id = some c → s.wave? c.wave = some w → w.gen = c.gen →
    (c.released = true → exec (.engineOperandRelease id) s = .next s) ∧
    (c.released = false → ∃ (t : State) (v : Wave), exec (.engineOperandRelease id) s = .next t ∧
      t = { s with cmds := FMap.set s.cmds id { c with released := true }, waves := FMap.set s.waves c.wave v } ∧
      v = { w with locks := FMap.erase w.locks id, flags := v.flags } ∧
      ∀ f, f < w.flags.length → v.flags.getD f 0 = if c.flag = some f then w.flags.getD f 0 - 1 else w.flags.getD f 0)) ∧
  (∀ (s : State) (id : Nat) (c : Cmd) (w : Wave) (cc : Ctl) (dir : CopyDir) (a b r d : Reg), FMap.get? s.cmds id = some c →
    c.instr = .cpyl cc dir a b r d → c.stage = .pushed → c.staging = false → s.wave? c.wave = some w → w.gen = c.gen →
    (w.pushed 1).find? (fun e => !e.isMarker) = some (.cmd id) →
    let off := fun (v : Wave) => { v with push := modAt v.push 1 fun l => l.filter (· != .cmd id) }
    ∀ (r : State) (wr : Wave), exec (.engineOperandRelease id) s = .next r → r.wave? c.wave = some wr →
    (s.checkCmd { c with stage := .reading } = none → ∃ (t : State) (c' : Cmd), exec (.engineTake id) s = .next t ∧
      t.waves = FMap.set s.waves c.wave (off wr) ∧ FMap.get? t.cmds id = some c' ∧ c' = { c with stage := .taken, released := true }) ∧
    (∀ code w2 w3, s.checkCmd { c with stage := .reading } = some (code, w2, w3) →
      ∃ (t : State) (c' : Cmd), exec (.engineTake id) s = .next t ∧ FMap.get? t.cmds id = some c' ∧
        c' = { c with stage := .taken, released := true, err := some (code, BitVec.ofNat 32 w2, BitVec.ofNat 32 w3) } ∧
        t.waves = FMap.set s.waves c.wave ((off wr).postError code 1 0xB5 c.token w2 w3))) ∧
  (∀ (s : State) (c : Cmd) (cc : Ctl) (dir : CopyDir) (a b r d : Reg), c.instr = .cpyl cc dir a b r d →
    let gs : Bool := dir == .gs || dir == .gg
    let gd : Bool := dir == .sg || dir == .gg
    (s.checkCmd c = some (0x0C, 0, 0) ↔ c.arg 4 = 0 ∨ 3 * 2 ^ 20 < c.arg 4 ∨ (gs = true ∧ 2 ^ 56 < c.arg2 0 + c.arg 4) ∨
      (gd = true ∧ 2 ^ 56 < c.arg2 2 + c.arg 4) ∨ (gs = gd ∧ c.arg2 0 < c.arg2 2 + c.arg 4 ∧ c.arg2 2 < c.arg2 0 + c.arg 4))) ∧
  ∀ (s : State) (id : Nat) (c : Cmd) (cc : Ctl) (a b r d : Reg) (g : Workgroup), s.cmds = [(id, c)] → s.ops = [] → s.locks = [] →
    (∀ p ∈ s.dies, p.2.reqs = []) → c.instr = .cpyl cc .ss a b r d → c.stage = .taken → c.staging = false → s.wg? c.wg = some g →
    (∀ n, (g.line c.core n).data.length = 128) →
    let src := c.arg2 0
    let dst := c.arg2 2
    let n := c.arg 4
    c.arg 1 = 0 → c.arg 3 = 0 → src % 16 = 0 → dst % 16 = 0 → n % 16 = 0 → src + n ≤ g.size c.core → dst + n ≤ g.size c.core →
    (c.err = none → (∀ k ∈ linesOf src n, (g.line c.core k).st = .full) →
      ∃ (t : State) (g' : Workgroup), exec (.engineComplete id) s = .next t ∧ t.wg? c.wg = some g' ∧ FMap.get? t.cmds id = none ∧
        (∀ k, k < n → g'.spRead c.core (dst + k) 1 = g.spRead c.core (src + k) 1) ∧
        (∀ k ∈ linesOf dst n, (g'.line c.core k).st = .full) ∧
        (∀ a, a < dst ∨ dst + n ≤ a → g'.spRead c.core a 1 = g.spRead c.core a 1)) ∧
    (c.err ≠ none →
      ∃ (t : State) (g' : Workgroup), exec (.engineComplete id) s = .next t ∧ t.wg? c.wg = some g' ∧ FMap.get? t.cmds id = none ∧
        ∀ k ∈ linesOf dst n, (g'.line c.core k).st = .poison)

/-! ### The matrix engine -/

/-- R69, R70, R200 to R203: the engine reads the operands of each member and releases it; a matrix operation completes once every operand
is read and no earlier accumulator operation is under way, and writes every cell of every core: chunk by chunk, or block by block with
the two scales, each partial sum rounded once to FP32 and added in increasing k. -/
def Obligations.MatrixOperations : Prop :=
  (∀ (s : State) (n core q : Nat) (m : MatOp) (v : MatWord) (o : Member), FMap.get? s.mops n = some m → m.word? = some v →
    memberAt m.members core q = some o →
    let k := 4 * core + q
    let m' := { m with read := m.read ++ [k] }
    let u : State := { s.releaseMember o with mops := FMap.set s.mops n m' }
    (q ≠ 0 → k ∈ m.read → exec (.matrixOperandRead n core q) s = .next s) ∧
    (q ≠ 0 → k ∉ m.read → exec (.matrixOperandRead n core q) s = .next u) ∧
    (∀ (d : Desc) (c : Nat), q = 0 → k ∉ m.read → (m'.descs.find? fun y => y.1 == core) = some (c, d) →
      (d.pc ≠ 0 → exec (.matrixOperandRead n core q) s = .next u) ∧
      (d.pc = 0 → exec (.matrixOperandRead n core q) s = .next ((u.readA n m' core v d).pumpGang m.wg)))) ∧
  (∀ (s : State) (o : Member) (w : Wave), s.wave? o.wave = some w →
    s.releaseMember o = s.setWave o.wave (o.flags.foldl Wave.dropFlag { w with locks := FMap.erase w.locks o.op })) ∧
  (∀ (s : State) (n : Nat) (errs : List MatErr) (m : MatOp) (v : MatWord) (g : Workgroup), FMap.get? s.ops n = none →
    FMap.get? s.mops n = some m → m.word? = some v → s.wg? m.wg = some g →
    let coreOf := fun c => g.cores.getD c 0
    let ready := m.aReady = true ∧ (∀ p ∈ m.members, p.1 ∈ m.read) ∧ ∀ x ∈ m.descs, s.accPending m.wg (coreOf x.1) n = false
    (¬ready → exec (.matrixComplete n errs) s = .next s) ∧
    (ready → m.cores.Nodup → g.cores.Nodup → (∀ c ∈ m.cores, c < g.cores.length) →
      ∃ t, exec (.matrixComplete n errs) s = .next t ∧ t.mops = FMap.erase s.mops n ∧
        ∀ x ∈ m.descs, (t.core (coreOf x.1)).acc = matCells m v (s.core (coreOf x.1)).acc x.1 x.2 errs)) ∧
  (∀ (start chunk : Nat) (l l' : List (Elem × Elem)), 0 < chunk → l.length % chunk = 0 → 0 < l'.length → l'.length ≤ chunk →
    chunkCell start chunk [] = start ∧
    chunkCell start chunk (l ++ l') = accAdd (chunkCell start chunk l) (roundRn (dotTerms l') .f32)) ∧
  ∀ (start b : Nat) (nested : Bool) (l l' : List (Elem × Elem)) (sc : List (Sc8 × Sc8)) (x y : Sc8), l.length = sc.length * b →
    0 < l'.length → l'.length ≤ b →
    let next := fun blk => blockCell start b nested (l ++ l') (sc ++ [(x, y)]) = accAdd (blockCell start b nested l sc) blk
    (x = .invalid ∨ y = .invalid → next (cnan .f32)) ∧
    (x ≠ .invalid → y ≠ .invalid → x = .zero ∨ y = .zero → next 0) ∧
    ∀ n1 d1 n2 d2, x = .fin n1 d1 → y = .fin n2 d2 →
      next (roundRn (XR.scale (dotTerms l') (n1 * n2) (d1 * d2 * if nested then 4 else 1)) .f32)

/-- R204, R210 to R212: MRED and MRSC complete their issue: over a legal window they are listed and enter the matrix counter, over
another they raise CVE and change no cell, and MRED gives its destination what it held before. Performed, MRED adds or sets the elements of the
valid blocks and counts them, and MRSC scales each block by n over its count, or clears it and raises MZC. MERR reads the log and clears it. -/
def Obligations.Reductions : Prop :=
  (∀ (c : Ctl) (bf init : Bool) (d a b r : Reg) (s : State) (x : Issue) (g : Workgroup), IssuesLater c (dstGroup d 1) s x →
    s.wg? x.w.wg = some g →
    let nb := x.u a / 2 ^ 16 % 2 ^ 7 + 1
    let ok := winOk g (x.u a) bf = true ∧ x.u b % 16 = 0 ∧ x.u b + nb * 192 ≤ s.padSize x ∧ x.u r + ceilDiv nb 8 ≤ s.padSize x
    let y : Issue := { x with act := LaneMask.all }
    let op : Instr := .mred c bf init d a b r
    let num := fun (v : Nat) => Row.splat (BitVec.ofNat 32 v)
    (x.act = 0 → exec op s = .next (x.done s x.w)) ∧
    (x.act ≠ 0 → x.w.full 1 = true → exec op s = .next s) ∧
    (x.act ≠ 0 → x.w.full 1 = false → ok → exec op s =
      .next ((y.addOp s c op (dstGroup d 1) [x.row d, num (x.u a), num (x.u b), num (x.u r)] ((dstGroup d 1).map fun _ => Row.zero) 0 0
        false).2.modWave s.cur fun w => w.enter 1 s.nextId 0)) ∧
    (x.act ≠ 0 → x.w.full 1 = false → ¬ok → ∃ vals, exec op s =
      .next ((y.addOp s c op (dstGroup d 1) [] vals 0 0 true).2.modWave s.cur fun w =>
        ((w.enter 1 s.nextId 0).completeOp 1 s.nextId).raise wCVE) ∧
      vals = ((dstGroup d 1).map fun q => (x.w.makeRoom (dstGroup d 1)).latest q) ∧
      (d ≠ 255 → (∀ h ∈ x.w.holds, h.reg ≠ d.toNat) → vals = [x.w.latest d.toNat]))) ∧
  (∀ (c : Ctl) (bf : Bool) (a b r : Reg) (s : State) (x : Issue) (g : Workgroup), Issues c [] s x → s.wg? x.w.wg = some g →
    let op : Instr := .mrsc c bf a b r
    let num := fun (v : Nat) => Row.splat (BitVec.ofNat 32 v)
    (x.act = 0 → exec op s = .next (x.done s x.w)) ∧
    (x.act ≠ 0 → x.w.full 1 = true → exec op s = .next s) ∧
    (x.act ≠ 0 → x.w.full 1 = false → winOk g (x.u a) bf = true → exec op s =
      .next ((x.addOp s c op [] [x.row b, num (x.u a), num (x.u r)] [] 0 0 false).2.modWave s.cur fun w => w.enter 1 s.nextId 0)) ∧
    (x.act ≠ 0 → x.w.full 1 = false → winOk g (x.u a) bf = false →
      exec op s = .next (x.done { s with nextId := s.nextId + 1 } (((x.w.enter 1 s.nextId 0).completeOp 1 s.nextId).raise wCVE)))) ∧
  (∀ (s : State) (id : Nat) (o : Op) (c : Ctl) (bf : Bool) (a b r : Reg), Sole s id o (.mrsc c bf a b r) → s.mops = [] →
    let win := o.scalar 1
    let nb := win / 2 ^ 16 % 2 ^ 7 + 1
    let first := 192 * (win % 256) + win / 256 % 256
    let E := if bf then 96 else 48
    let n := o.scalar 2 % 256
    let cnt := fun k => countByte (o.srcs.getD 0 Row.zero) k
    ∃ t, exec (.matrixComplete id []) s = .next t ∧
      (∀ k e, k < nb → e < E → FMap.getD (t.core o.core).acc (first + k * E + e) 0 =
        if cnt k = 0 ∨ n = 0 then 0
        else BitVec.ofNat 32 (roundRn (XR.scale (dec .f32 (FMap.getD (s.core o.core).acc (first + k * E + e) 0).toNat) n (cnt k)) .f32)) ∧
      (∀ k, k < first ∨ first + nb * E ≤ k → FMap.getD (t.core o.core).acc k 0 = FMap.getD (s.core o.core).acc k 0) ∧
      ∀ w, s.wave? o.wave = some w → w.gen = o.gen → ∃ v, t.wave? o.wave = some v ∧
        (v.wstat.getLsbD 11 = true ↔ w.wstat.getLsbD 11 = true ∨ n = 0 ∨ ∃ k, k < nb ∧ cnt k = 0)) ∧
  (∀ (s : State) (id : Nat) (o : Op) (c : Ctl) (bf init : Bool) (d a b r : Reg) (g : Workgroup), Sole s id o (.mred c bf init d a b r) →
    s.mops = [] → s.wg? o.wg = some g →
    let ci := g.coreIdx o.core
    let win := o.scalar 1
    let nb := win / 2 ^ 16 % 2 ^ 7 + 1
    let first := 192 * (win % 256) + win / 256 % 256
    let E := if bf then 96 else 48
    let es := if bf then 2 else 4
    let src := o.scalar 2
    let valid := fun k => (leNat (g.spRead ci (o.scalar 3 + k / 8) 1)).testBit (k % 8)
    let elem := fun k e => dec (if bf then .bf16 else .f32)
      (leNat ((List.range es).map fun j => (g.spRead ci (src + 192 * k + e * es + j) 1).headD 0))
    rangeEmpty g ci src (nb * 192) = false → rangeEmpty g ci (o.scalar 3) (ceilDiv nb 8) = false →
    ∃ (t : State) (o' : Op), exec (.matrixComplete id []) s = .next t ∧ FMap.get? t.ops id = some o' ∧ o'.done = true ∧
      (∀ k, k < 128 → countByte (o'.vals.getD 0 []) k =
        let old := countByte (o.srcs.getD 0 Row.zero) k
        if nb ≤ k then old else if init then (valid k).toNat else min 255 (old + (valid k).toNat)) ∧
      (∀ k e, k < nb → e < E →
        let old := FMap.getD (s.core o.core).acc (first + k * E + e) 0
        FMap.getD (t.core o.core).acc (first + k * E + e) 0 =
          if valid k = false then (if init then 0 else old)
          else if init then BitVec.ofNat 32 (roundRn (elem k e) .f32)
          else BitVec.ofNat 32 (roundRn (xsum [dec .f32 old.toNat, elem k e]) .f32)) ∧
      ∀ k, k < first ∨ first + nb * E ≤ k → FMap.getD (t.core o.core).acc k 0 = FMap.getD (s.core o.core).acc k 0) ∧
  (∀ (c : Ctl) (d : Reg), Later (.merr c d) c (dstGroup d 2) (fun _ _ => []) fun _ _ => none) ∧
  ∀ (s : State) (id : Nat) (o : Op) (c : Ctl) (d : Reg), Sole s id o (.merr c d) → s.mops = [] →
    let v := (s.core o.core).merr.word
    Answers s id (s.modCore o.core fun k => { k with merr := MerrLog.clear }) [BitVec.ofNat 32 v, BitVec.ofNat 32 (v / 2 ^ 32)]

/-! ### Messages at a wave -/

/-- R234, R235, R238: POSTR, CANRV and PROBE complete their issue. Performed, an invalid POSTR answers 3, one that matches a waiting
message 1, one that finds the list full 2, and another is posted last and answers 0; CANRV withdraws the first posted receive of its
workgroup with the cookie, or answers 1; PROBE leaves every message as it is. That an invalid entry is told first, and that one which matches answers
1 also against a full list, is the model's choice (log 52). -/
def Obligations.Receives : Prop :=
  (∀ (c : Ctl) (d a : Reg),
    Later (.postr c d a) c (dstGroup d 1) (fun _ x => (x.us a 8).map Row.splat) (fun _ _ => none) ∧
    Later (.canrv c d a) c (dstGroup d 1) (fun _ x => (x.us a 1).map Row.splat) (fun _ _ => none) ∧
    Later (.probe c d a) c (dstGroup d 4) (fun _ x => (x.us a 4).map Row.splat) fun _ _ => none) ∧
  ∀ (s : State) (id : Nat) (o : Op) (c : Ctl) (d a : Reg) (w : Wave) (cx : Context), s.wave? o.wave = some w → s.ctx? w.ctx = some cx →
    let words := fun n => (List.range n).map o.entry
    let matched := fun n k => match FMap.get? s.msgs k with | some m => entryMatches (words n) m.srcPkg m.srcCtx m.tag | none => false
    (Sole s id o (.postr c d a) →
      let valid := postValid (s.sizeOn o.wg o.core) (words 8)
      (valid = false → Answers s id s [3]) ∧
      (valid = true → (∀ k ∈ cx.unexpected, matched 8 k = false) → 4096 ≤ cx.posted.length → Answers s id s [2]) ∧
      (valid = true → (∀ k ∈ cx.unexpected, matched 8 k = false) → cx.posted.length < 4096 →
        ∃ p : Posted, p.wave = o.wave ∧ p.gen = o.gen ∧ p.wg = o.wg ∧ p.words = words 8 ∧
          Answers s id (s.modCtx w.ctx fun cx => { cx with posted := cx.posted ++ [p] }) [0]) ∧
      (∀ k, valid = true → cx.unexpected.find? (matched 8) = some k →
        ∃ p : Posted, p.wave = o.wave ∧ p.gen = o.gen ∧ p.wg = o.wg ∧ p.words = words 8 ∧
          Answers s id (((s.modCtx w.ctx fun cx => { cx with unexpected := cx.unexpected.filter (· != k) }).modMsg k fun m =>
            { m with rcv := .matched p }).landMsg k) [1])) ∧
    (Sole s id o (.canrv c d a) →
      let mine := fun (p : Posted) => p.wg == o.wg && p.words.getD 5 0 == o.entry 0
      ((∀ p ∈ cx.posted, mine p = false) → Answers s id s [1]) ∧
      ∀ p, cx.posted.find? mine = some p → Answers s id (s.modCtx w.ctx fun cx => { cx with posted := cx.posted.filter (· != p) }) [0]) ∧
    (Sole s id o (.probe c d a) →
      ((∀ k ∈ cx.unexpected, matched 4 k = false) → Answers s id s [0, 0, 0, 0x04000000]) ∧
      ∀ k m, cx.unexpected.find? (matched 4) = some k → FMap.get? s.msgs k = some m →
        Answers s id s (completionOf m 0 m.len (m.valid m.nblocks) (if m.ended then 0 else 2)))

/-! ### The tile press -/

/-- R116 to R118, R310, R314, R316: the press instructions complete their issue; CLAIM answers a tile whose granules were FREE and are
CLAIMED, or a status; TRET makes the granules of a live handle DONE, or FREE again, and the handle lapses; SCHRD reads a register,
SCHWR writes the shadow set of the tuner's launch, and SCHCM puts a set that passes its checks in force. That the reserved bits of a shadow
register read zero, though the shadow keeps them for SCHCM's check, is the model's choice (log 111). -/
def Obligations.PressOperations : Prop :=
  (∀ (c : Ctl) (sh : Bool) (d : Reg) (n : BitVec 4),
    Later (.claim c d) c (dstGroup d 8) (fun _ _ => []) (fun _ _ => none) ∧
    Later (.schrd c sh d n) c (dstGroup d 1) (fun _ _ => []) fun _ _ => none) ∧
  (∀ (c : Ctl) (abn : Bool) (a : Reg) (n : BitVec 4) (s : State) (x : Issue), IssuesLater c [] s x →
    let one := fun (i : Instr) (aux : Nat) => (x.addOp s c i [] [Row.splat (x.v a x.low)] [] 0 aux false).2
    let bad := s.isTuner x.key = false ∨ n = 15
    (x.act = 0 → exec (.tret c abn a) s = .next (x.done s x.w) ∧ exec (.schwr c n a) s = .next (x.done s x.w)) ∧
    (x.act ≠ 0 → (∃ o, FMap.get? (one (.tret c abn a) x.cl.run.toNat).ops s.nextId = some o ∧
      exec (.tret c abn a) s = .next ((one (.tret c abn a) x.cl.run.toNat).performTret s.nextId o)) ∧
      (¬bad → ∃ o, FMap.get? (one (.schwr c n a) 0).ops s.nextId = some o ∧
        exec (.schwr c n a) s = .next ((one (.schwr c n a) 0).performSchwr s.nextId o)) ∧
      (bad → ∃ o, FMap.get? (one (.schwr c n a) 1).ops s.nextId = some o ∧
        exec (.schwr c n a) s = .next (((one (.schwr c n a) 1).modWave s.cur fun w => w.raise wPRX).performSchwr s.nextId o)))) ∧
  (∀ (c : Ctl) (d : Reg) (s : State) (x : Issue), IssuesLater c (dstGroup d 1) s x →
    (x.act = 0 → exec (.schcm c d) s = .next (x.done s x.w)) ∧
    (x.act ≠ 0 → s.isTuner x.key = true →
      exec (.schcm c d) s = .next (x.addOp s c (.schcm c d) (dstGroup d 1) [] (List.replicate (dstGroup d 1).length Row.zero) 0 0 false).2) ∧
    (x.act ≠ 0 → s.isTuner x.key = false → ∃ aux, aux ≠ 0 ∧ exec (.schcm c d) s =
      .next ((x.addOp s c (.schcm c d) (dstGroup d 1) [] (List.replicate (dstGroup d 1).length Row.zero) 0 aux false).2.modWave s.cur fun w =>
        w.raise wPRX))) ∧
  (∀ (s : State) (id : Nat) (o : Op) (c : Ctl) (d a : Reg) (sh abn : Bool) (n : BitVec 4),
    let k := s.opNode o
    (Sole s id o (.claim c d) → s.press? k = none → ∃ v : Nat, v < 2 ^ 16 ∧
      Answers s id s (List.replicate 7 0 ++ [BitVec.ofNat 32 (2 * 2 ^ 24 + v)])) ∧
    ∀ p, s.press? k = some p →
      (Sole s id o (.claim c d) → (∀ e ∈ (s.die (o.core / 48)).preclaims, e.1 ≠ k) → p.loaded = true → p.anyFree = true →
        ∀ h q tile, p.claim (some o.wg) = some (h, q) → FMap.get? q.tiles h = some tile →
          Answers s id (s.modPress k fun _ => q) (tileWords tile h)) ∧
      (Sole s id o (.tret c abn a) → (∀ e ∈ s.dies, e.2.reqs = []) →
        (∀ tile, p.valid? (o.entry 0).toNat = some tile → exec (.variableResultReturn id) s =
          .next (((s.modPress k fun p => p.retire (o.entry 0).toNat tile abn).modOp id fun o => { o with todo := 0, done := true }).reap id)) ∧
        (p.valid? (o.entry 0).toNat = none → exec (.variableResultReturn id) s =
          .next (((s.ownerMod o.wave o.gen fun w => w.raise wPRX).modOp id fun o => { o with todo := 0, done := true }).reap id))) ∧
      (Sole s id o (.schrd c sh d n) →
        Answers s id s [if n = 15 then BitVec.ofNat 32 p.gen else (if sh then p.shadow else p.regs).getD n.toNat 0 &&& schBits n.toNat]) ∧
      (Sole s id o (.schwr c n a) → o.aux = 0 → exec (.variableResultReturn id) s =
        .next (((s.modPress k fun p => { p with shadow := modAt p.shadow n.toNat fun _ => o.entry 0 }).modOp id fun o =>
          { o with todo := 0, done := true }).reap id)) ∧
      (Sole s id o (.schcm c d) → o.aux = 0 →
        (schOk p.rank p.shadow = false → Answers s id s [BitVec.ofNat 32 (p.gen + 2 ^ 31)]) ∧
        (schOk p.rank p.shadow = true → ∃ q, p.commit = some q ∧ q.regs = p.shadow ∧ q.gen = (p.gen + 1) % 2 ^ 16 ∧ q.cur = 0 ∧
          Answers s id ((s.recallAll k).modPress k fun _ => q) [BitVec.ofNat 32 q.gen]))) ∧
  (∀ (p q : Press) (wg : Option Nat) (h : Nat) (tile : Tile), p.claim wg = some (h, q) → FMap.get? q.tiles h = some tile →
    p.tiles.length < 2 ^ 32 → FMap.get? p.tiles h = none ∧ tile.wg = wg ∧ tile.gen = p.gen ∧ (∀ g ∈ tile.granules, FMap.get? p.map g = none ∧ FMap.get? q.map g = some 1) ∧
    ∀ g, g ∉ tile.granules → FMap.get? q.map g = FMap.get? p.map g) ∧
  (∀ (p : Press) (h : Nat) (tile : Tile) (abn : Bool) (g : Nat), FMap.get? (p.retire h tile abn).tiles h = none ∧
    FMap.get? (p.retire h tile abn).map g = if g ∈ tile.granules then (if abn then none else some 2) else FMap.get? p.map g) ∧
  ∀ (s u : State) (die node h : Nat) (x : Node) (p : Press), s.node? node = some x → s.press? node = some p → x.stage = .running →
    x.killed = false → die < 24 → (p.reg 7 % 2 ^ 24).testBit die = true →
    ((s.die die).preclaims.filter fun e => e.1 == node).length < p.reg 10 % 2 ^ 4 → p.loaded = true → s.claimAt node none = (some h, u) →
    exec (.preclaimRefill die node) s = .next (u.modDie die fun d => { d with preclaims := d.preclaims ++ [(node, h)] })

/-! ### The privileged instructions -/

/-- R45, R87, R239, R241, R243: the privileged operations complete their issue with their captured operands; MFSR lists the register's
value for every lane and MTSR writes the run-wide value; for a wave that is not privileged each traps with class 3 before its clause
begins, but for MFSR of the two registers any wave may read. -/
def Obligations.PrivilegedIssue : Prop :=
  (∀ (c : Ctl) (d a b r : Reg) (act : RteAct) (res : ResAct) (tgt : ScrubTgt) (clr w : Bool) (num : BitVec 16),
    let rows := fun (l : List Reg) (_ : State) (x : Issue) => l.map fun q => Row.splat (x.v q x.low)
    let later := fun (i : Instr) (n : Nat) (l : List Reg) => Later i c (dstGroup d n) (rows l) fun _ _ => none
    let four := [a, nextReg a 1, nextReg a 2, nextReg a 3]
    later (.halt c d a) 1 [a] ∧ later (.rte c act d a) 1 [a] ∧ later (.dbgrd c d a b) 2 [a, b] ∧ later (.dbgwr c d a b r) 1 [a, b, r] ∧
    later (.ctxsv c d a b) 1 [a, b, nextReg b 1] ∧ later (.ctxld c d a b) 1 [a, b, nextReg b 1] ∧ later (.tinv c d a) 1 four ∧
    later (.prsrs c res d a) 1 four ∧ later (.tckt c clr d a b) 1 [a, b, nextReg b 1] ∧ later (.keyld c d a b) 1 [a, b, nextReg b 1] ∧
    later (.scrub c tgt d a b) 1 [a, b, nextReg b 1] ∧ later (.idle c d) 1 [] ∧ later (.fwsig c d a) 1 [a, nextReg a 1] ∧
    Variable (.mfsr c w d num) c d (dblRegs w) (fun s x => (List.range (dblRegs w)).map fun k =>
      Row.splat (BitVec.ofNat 32 (s.sysReg (waveCore x.key) num.toNat / 2 ^ (32 * k)))) (fun _ => 0) ∧
    (∀ s x, Issues c [] s x →
      (x.act = 0 → exec (.mtsr c w num a) s = .next (x.done s x.w)) ∧
      (x.act ≠ 0 → exec (.mtsr c w num a) s =
        .next (x.done (s.writeSysReg (waveCore x.key) num.toNat (if w then x.ud a else x.u a)) x.w))) ∧
    ∀ i ∈ [Instr.halt c d a, .rte c act d a, .dbgrd c d a b, .dbgwr c d a b r, .ctxsv c d a b, .ctxld c d a b, .tinv c d a,
        .prsrs c res d a, .tckt c clr d a b, .keyld c d a b, .scrub c tgt d a b, .idle c d, .fwsig c d a, .mtsr c w num a],
      ∃ f, Instr.facts? i = some f ∧ f.priv = true) ∧
  (∀ (c : Ctl) (w : Bool) (d : Reg) (num : BitVec 16), ∃ f, Instr.facts? (.mfsr c w d num) = some f ∧ (f.priv = true ↔ num ≠ 0 ∧ num ≠ 1)) ∧
  ∀ (e : CheckEnv) (k : Nat) (word : BitVec 80) (i : Instr) (f : Facts), decode word = .ok i → Instr.facts? i = some f → f.priv = true →
    e.priv = false → (f.pipe = 0 ∨ f.pipe &&& e.pipes ≠ 0) → (e.stream = false ∨ f.matrix = false) → f.last = false → f.pd.toNat ≤ k →
    let flag := if f.al = 1 then e.setA else if f.al = 2 then e.setB else 16
    flag ≠ 15 → (f.cf = 15 ∨ f.cf.toNat ≠ flag) → (f.var = false ∨ f.al ≠ 0 ∨ (∀ d n l, f.regs = (d, n) :: l → d = 255)) →
    checkSlot e k word = some ⟨3, k + 1⟩

/-- R242, R244, R246: what the system registers read, and what a write of each takes; a value outside the stated limits is ignored.
The firmware's writes of TRB_TAIL and of EVPEND, by MTSR or as the events that stand for them, and the timer, act on the
same registers. That a write of `TRB_SIZE` keeps head and tail is the model's choice (log 142). -/
def Obligations.SystemRegisters : Prop :=
  (∀ (s : State) (core : Nat),
    let d := s.die (core / 48)
    s.sysReg core 0x0000 = d.cycle.toNat ∧ s.sysReg core 0x0001 = (s.core core).gendrop ∧ s.sysReg core 0x0002 = d.trapCnt.toNat ∧ s.sysReg core 0x0110 = d.prsLimit ∧
    s.sysReg core 0x0111 = d.prsUsed ∧ s.sysReg core 0x0112 = d.ovcBase ∧ s.sysReg core 0x0113 = d.ovcSize ∧ s.sysReg core 0x0114 = d.ovcUsed ∧
    s.sysReg core 0x0120 = d.trbBase ∧ s.sysReg core 0x0121 = d.trbSize ∧ s.sysReg core 0x0122 = d.trbHead ∧ s.sysReg core 0x0123 = d.trbTail ∧
    s.sysReg core 0x0130 = d.evMask.toNat ∧ s.sysReg core 0x0132 = d.timer.toNat ∧
    (∀ i, i < 32 → (s.sysReg core 0x0131).testBit i = (d.evPend.getLsbD i || d.evNow.getLsbD i))) ∧
  (∀ (s : State) (core v : Nat),
    let k := core / 48
    let d := s.die k
    let w := fun n => s.writeSysReg core n v
    w 0x0001 = (s.modCore core fun c => { c with gendrop := v % 2 ^ 32 }) ∧ w 0x0123 = s.writeTail k v ∧ w 0x0131 = s.clearEv k (BitVec.ofNat 32 v) ∧
    (w 0x0110 = if 1 ≤ v ∧ v ≤ 4096 then s.modDie k fun d => { d with prsLimit := v } else s) ∧
    (w 0x0112 = if d.ovcUsed = 0 ∧ v % 49152 = 0 then s.modDie k fun d => { d with ovcBase := v } else s) ∧
    (w 0x0113 = if d.ovcUsed = 0 ∧ v ≤ 2 ^ 20 then s.modDie k fun d => { d with ovcSize := v } else s) ∧
    (w 0x0120 = if v % 192 = 0 then s.modDie k fun d => { d with trbBase := v } else s) ∧
    (w 0x0121 = if v % 3 = 0 ∧ 3 ≤ v ∧ v ≤ 65535 then s.modDie k fun d => { d with trbSize := v } else s) ∧
    (w 0x0130 = s.modDie k fun d => { d with evMask := BitVec.ofNat 32 v &&& 0x3F }) ∧
    (w 0x0132 = s.modDie k fun d => { d.settle with timer := BitVec.ofNat 64 v }) ∧
    ∀ n ∈ [0x0000, 0x0002, 0x0111, 0x0114, 0x0122], w n = s) ∧
  ∀ (s : State) (die : Nat) (v : BitVec 32),
    (exec (.trbTailWrite die v) s = .next (s.writeTail die v.toNat)) ∧
    (let d := s.die die
     (d.trbSize ≤ v.toNat ∨ (d.trbHead + d.trbSize - d.trbTail) % d.trbSize < (v.toNat + d.trbSize - d.trbTail) % d.trbSize →
       s.writeTail die v.toNat = s) ∧
     (v.toNat < d.trbSize → (v.toNat + d.trbSize - d.trbTail) % d.trbSize ≤ (d.trbHead + d.trbSize - d.trbTail) % d.trbSize → d.heldTraps = [] →
       s.writeTail die v.toNat = s.modDie die fun d => { d with trbTail := v.toNat })) ∧
    (∃ t, exec (.evpendWrite die v) s = .next t ∧ t = s.clearEv die v ∧ t = { s with dies := t.dies } ∧ ∀ i, i < 32 →
      (t.die die).evPend.getLsbD i = ((s.die die).evPend.getLsbD i && !v.getLsbD i || (s.die die).evNow.getLsbD i)) ∧
    ((s.die die).timer.toNat ≤ (s.die die).cycle.toNat → exec (.timerExpiry die) s = .next (s.raiseEv die 5)) ∧
    ((s.die die).cycle.toNat < (s.die die).timer.toNat → exec (.timerExpiry die) s = .next s)

/-- R240, R241, R248 to R250: HALT stops a wave at its clause start and raises the event, and RTE returns from a trap or a halt: it replays the
instruction, skips it, or kills the launch; the wave goes on in the clause in which it stopped, or, where its workgroup is being saved, waits for
that, and the barriers that it held back are looked at again; each answers with its status. DBGRD reads a register of a stopped wave and DBGWR
writes it. -/
def Obligations.StopsAndReturns : Prop :=
  (∀ (s : State) (id : Nat) (o : Op) (c : Ctl) (d a : Reg), Sole s id o (.halt c d a) → o.aux = 0 →
    let u := s.freeGone
    (u.waveAt o.die (o.entry 0).toNat = none → Answers s id u [statusWord 1 0]) ∧
    ∀ key w, u.waveAt o.die (o.entry 0).toNat = some (key, w) →
      (w.stop = .running → w.clause = none →
        Answers s id ((u.setWave key { w with stop := .halted, haltReq := false, active := false }).raiseEv o.die 1) [statusWord 0 0]) ∧
      (w.stop = .running → w.clause ≠ none → exec (.variableResultReturn id) s =
        .next ((u.setWave key { w with haltReq := true }).modOp id fun o => { o with aux := w.gen + 1 })) ∧
      (w.stop = .halted → Answers s id u [statusWord 2 0]) ∧
      (w.stop = .trapSlot ∨ w.stop = .trapCheck → Answers s id (u.setWave key { w with haltReq := false }) [statusWord 2 0])) ∧
  (∀ (s : State) (id : Nat) (o : Op) (c : Ctl) (act : RteAct) (d a : Reg), Sole s id o (.rte c act d a) →
    (s.waveAt o.die (o.entry 0).toNat = none → Answers s id s [statusWord 1 0]) ∧
    ∀ key w, s.waveAt o.die (o.entry 0).toNat = some (key, w) →
      let frozen := ∃ g, s.wg? w.wg = some g ∧ g.frozen = true
      let back := fun (w : Wave) => (s.setWave key (if frozen then { w.suspend with stop := .agent } else w.resume s.tick)).recheckBars w.wg
      (w.stop = .running → Answers s id s [statusWord 2 0]) ∧
      (∀ g, s.wg? w.wg = some g → act = .kill → w.stop ≠ .running → w.stop ≠ .agent → Answers s id (s.killLaunch g.node 2) [statusWord 0 0]) ∧
      (act ≠ .kill → w.stop = .halted → Answers s id (back w) [statusWord 0 0]) ∧
      (act = .rep → w.stop = .trapCheck ∨ w.stop = .trapSlot → Answers s id (back w) [statusWord 0 0]) ∧
      (act = .skip → w.stop = .trapCheck → Answers s id s [statusWord 2 0]) ∧
      ∀ cl, act = .skip → w.stop = .trapSlot → w.clause = some cl → Answers s id (back (w.endSlot cl)) [statusWord 0 0]) ∧
  (∀ (w : Wave) (tick : Nat), w.resume tick = { w with stop := .running, waitSince := tick, pct := (w.resume tick).pct }) ∧
  ∀ (s : State) (id : Nat) (o : Op) (c : Ctl) (d a b r : Reg),
    let reg := (o.entry 1).toNat % 256
    let L := (o.entry 1).toNat / 256
    (s.waveAt o.die (o.entry 0).toNat = none →
      (Sole s id o (.dbgrd c d a b) → Answers s id s [0, statusWord 1 0]) ∧ (Sole s id o (.dbgwr c d a b r) → Answers s id s [statusWord 1 0])) ∧
    ∀ key w, s.waveAt o.die (o.entry 0).toNat = some (key, w) → (o.entry 1).toNat < 2 ^ 13 → w.stop ≠ .running → w.stop ≠ .agent →
      reg < allocated w.nregs → reg < 255 →
      (Sole s id o (.dbgrd c d a b) → Answers s id s [Row.lane (w.outside reg) L, statusWord 0 0]) ∧
      (Sole s id o (.dbgwr c d a b r) → w.dstReady [reg] = true → ∃ v : Wave, Answers s id (s.setWave key v) [statusWord 0 0] ∧
        (w.clause = none → (∀ h ∈ w.holds, h.reg ≠ reg) → L < 32 →
          Row.lane (FMap.getD v.regs reg Row.zero) L = o.entry 2 ∧
          ∀ q K, K < 32 → (q ≠ reg ∨ K ≠ L) → Row.lane (FMap.getD v.regs q Row.zero) K = Row.lane (FMap.getD w.regs q Row.zero) K))

/-- R245, R251 to R257: what the privileged operations do when they are performed, and the statuses they answer: TINV drops the entries
its kind names, TCKT sets the ticket of a gang, SCRUB clears memory, a scratchpad or accumulator rows, KEYLD loads a wrapped key, FWSIG
verifies a signature and writes the digest, IDLE ends with the pending events, and a bad handle, address or field is refused. The model's choices:
CTXLD of an address with no kept frame answers 3 (log 67), FWSIG with an empty key slot writes no digest (log 72), the key slots of a die and the zero
bytes of a wrapped key (log 73), and a sealed frame that was written over answers 4 (log 109). -/
def Obligations.PrivilegedEffects : Prop :=
  (∀ (s : State) (id : Nat) (o : Op) (c : Ctl) (d a : Reg), Sole s id o (.tinv c d a) →
    let v := (o.entry 0).toNat
    let count := (o.entry 1).toNat / 2 ^ 16
    let bad := 5 < v % 16 ∨ v / 2 ^ 4 % 2 ^ 12 ≠ 0 ∨ v / 2 ^ 28 % 2 ^ 4 ≠ 0 ∨ ((v % 16 = 3 ∨ v % 16 = 4) ∧ count = 0)
    (bad → Answers s id s [statusWord 3 0]) ∧
    (¬bad → v % 16 ≠ 5 → Answers s id (s.dropTlb (tinvDrops (v % 16) (v / 2 ^ 16 % 2 ^ 12) ((o.entry 1).toNat % 2 ^ 16)
      (o.entry2 2 / pageBytes * pageBytes) (count * pageBytes))) [statusWord 0 0])) ∧
  (∀ (s : State) (p : TlbEntry → Bool), (∀ k, ∀ e ∈ ((s.dropTlb p).die k).tlb, p e = false ∧ e ∈ (s.die k).tlb) ∧
    (∀ k, ∀ e ∈ ((s.dropTlb p).core k).tlb, p e = false ∧ e ∈ (s.core k).tlb) ∧
    (∀ k, ∀ e ∈ ((s.dropTlb p).die k).walks, p e.2 = false ∧ e ∈ (s.die k).walks)) ∧
  (∀ (vmid asid lo n : Nat) (e : TlbEntry), tinvDrops 0 vmid asid lo n e = true ∧ tinvDrops 1 vmid asid lo n e = (e.vmid == vmid) ∧
    (tinvDrops 2 vmid asid lo n e = true ↔ e.vmid = vmid ∧ e.asid = asid ∧ e.stage ≠ 1)) ∧
  (∀ (s : State) (id : Nat) (o : Op) (c : Ctl) (clr : Bool) (d a b : Reg), Sole s id o (.tckt c clr d a b) →
    (s.wgAt o.die (o.entry 0).toNat = none → Answers s id s [statusWord 1 0]) ∧
    ∀ n g, s.wgAt o.die (o.entry 0).toNat = some (n, g) →
      (clr = false → o.entry2 1 = 0 → Answers s id s [statusWord 3 0]) ∧
      (clr = true ∨ o.entry2 1 ≠ 0 → Answers s id ((s.residentOf g.gang).foldl (fun t w => t.modWg w.1 fun x =>
        { x with ticket := if clr then 0 else BitVec.ofNat 64 (o.entry2 1) }) s) [statusWord 0 0])) ∧
  (∀ (s : State) (id : Nat) (o : Op) (c : Ctl) (d a b : Reg),
    (Sole s id o (.scrub c .mem d a b) →
      ((o.entry 0).toNat % 192 = 0 → o.entry2 1 % 192 = 0 → Answers s id (s.scrubMem (o.entry2 1) (o.entry 0).toNat) [statusWord 0 0]) ∧
      ((o.entry 0).toNat % 192 ≠ 0 ∨ o.entry2 1 % 192 ≠ 0 → Answers s id s [statusWord 3 0])) ∧
    ∀ n g, s.wgAt o.die (o.entry 0).toNat = some (n, g) → (∀ k ∈ g.waves, ∀ w, s.wave? k = some w → w.stop ≠ .running) →
      (Sole s id o (.scrub c .sp d a b) → Answers s id (s.modWg n Workgroup.emptied) [statusWord 0 0]) ∧
      (Sole s id o (.scrub c .acc d a b) → Answers s id (g.cores.foldl (fun t c => t.zeroAcc c g.acc0 g.accN) s) [statusWord 0 0])) ∧
  (∀ (s : State) (a n pa d : Nat), s.frames = [] → s.backing (pa / 48 * 48) = .dev d → pa < 2 ^ 52 → a ≤ pa → pa < a + n → a % 192 = 0 → n % 192 = 0 →
    (s.scrubMem a n).homeByte pa = 0) ∧
  (∀ (s : State) (id : Nat) (o : Op) (c : Ctl) (d a b : Reg), Sole s id o (.keyld c d a b) →
    let v := (o.entry 0).toNat
    let kind := v / 2 ^ 8 % 2 ^ 4
    let bad := v / 64 % 4 ≠ 0 ∨ 2 ^ 12 ≤ v ∨ 2 < kind ∨ o.entry2 1 % 64 ≠ 0 ∨ hasKeySlot o.die kind (v % 64) = false
    let mem := match s.wrapAt (o.entry2 1 % 2 ^ 52) with | some w => w.2 | none => s.homeRead (o.entry2 1 % 2 ^ 52) 64
    (bad → Answers s id s [statusWord 3 0]) ∧
    (¬bad → Config.keyUnwrap o.die (mem.take 40) = none ∨ (∃ k, 48 ≤ k ∧ k < 64 ∧ mem.getD k 0 ≠ 0) → Answers s id s [statusWord 4 0]) ∧
    ∀ key, ¬bad → Config.keyUnwrap o.die (mem.take 40) = some key → (∀ k, 48 ≤ k → k < 64 → mem.getD k 0 = 0) →
      ∃ u : State, Answers s id u [statusWord 0 0] ∧ u = { s with dies := u.dies, keyWraps := u.keyWraps } ∧
      (u.keyWraps = match s.wrapAt (o.entry2 1 % 2 ^ 52) with
        | some (k, _) => if kind ≠ 2 ∧ k = (o.die * 2 + kind) * 64 + v % 64 then FMap.erase s.keyWraps k else s.keyWraps
        | none => s.keyWraps) ∧
      (kind = 2 → FMap.get? (u.die o.die).frameKeys (v % 64) = some key) ∧
      (kind ≠ 2 → ∃ e, FMap.get? (u.die o.die).keys (kind * 64 + v % 64) = some e ∧ e.nxt = some (field mem 40 8, key))) ∧
  (∀ (s : State) (id : Nat) (o : Op) (c : Ctl) (d a : Reg), Sole s id o (.fwsig c d a) →
    let addr := o.entry2 0
    let mem := s.homeRead addr 192
    let len := field mem 8 8
    let bad := addr % 192 ≠ 0 ∨ len = 0 ∨ 2 ^ 32 < len ∨ (∃ k, ((28 ≤ k ∧ k < 64) ∨ 128 ≤ k) ∧ k < 192 ∧ mem.getD k 0 ≠ 0)
    (bad → Answers s id s [statusWord 3 0]) ∧
    (¬bad → Config.verifyKey (field mem 24 4) = none → Answers s id s [statusWord 5 0]) ∧
    ∀ key, ¬bad → Config.verifyKey (field mem 24 4) = some key →
      let digest := fitBytes 64 (Config.shake256 (s.homeRead (field mem 0 8) len))
      Answers s id (s.homeWrite (addr + 64) digest)
        [statusWord (if Config.mldsaVerify key digest (s.homeRead (field mem 16 8) sigBytes) = true then 0 else 4) 0]) ∧
  (∀ (s : State) (id : Nat) (o : Op) (c : Ctl) (d : Reg), Sole s id o (.idle c d) →
    let v := ((s.die o.die).evPend ||| (s.die o.die).evNow) &&& (s.die o.die).evMask
    (v ≠ 0 → Answers s id s [v]) ∧ (v = 0 → exec (.variableResultReturn id) s = .next s)) ∧
  (∀ (s : State) (id : Nat) (o : Op) (c : Ctl) (act : ResAct) (d a : Reg), Sole s id o (.prsrs c act d a) →
    let w2 := (o.entry 2).toNat
    let w3 := (o.entry 3).toNat
    let bad := 2 ^ 16 ≤ w2 ∨ w3 / 2 ^ 12 % 2 ^ 4 ≠ 0 ∨ w3 / 2 ^ 17 % 2 ^ 15 ≠ 0
    let r := s.resolveWith o.die (w3 % 2 ^ 12) w2 (w3 / 2 ^ 16 % 2) (o.entry2 0 / pageBytes) act 0 0
    (bad → Answers s id s [statusWord 3 0]) ∧
    (¬bad → r.1 = none → Answers s id r.2 [statusWord 1 0]) ∧ ∀ n, ¬bad → r.1 = some n → Answers s id r.2 [statusWord 0 n]) ∧
  ∀ (s : State) (id : Nat) (o : Op) (c : Ctl) (d a b : Reg), o.aux = 0 →
    (Sole s id o (.ctxsv c d a b) → s.frameAddr (o.entry2 1) = false → Answers s id s [statusWord 3 0]) ∧
    (Sole s id o (.ctxsv c d a b) → s.frameAddr (o.entry2 1) = true → s.wgAt o.die (o.entry 0).toNat = none → Answers s id s [statusWord 1 0]) ∧
    (Sole s id o (.ctxld c d a b) → o.entry 0 ≠ 0 ∨ s.frameAddr (o.entry2 1) = false → Answers s id s [statusWord 3 0]) ∧
    (Sole s id o (.ctxld c d a b) → o.entry 0 = 0 → s.frameAddr (o.entry2 1) = true → FMap.get? s.frames (o.entry2 1) = none →
      Answers s id s [statusWord 3 0]) ∧
    ∀ (f : Frame) (n : Node) (k : Kernel) (g : Frame), Sole s id o (.ctxld c d a b) → o.entry 0 = 0 → s.frameAddr (o.entry2 1) = true →
      FMap.get? s.frames (o.entry2 1) = some f → s.freeGone.node? f.wg.node = some n → n.kernel = some k →
      (s.freeGone.gangFrames f.wg.gang).head? = some (o.entry2 1, g) →
      (∃ x ∈ s.freeGone.gangFrames f.wg.gang, x.2.sealed = true ∧ s.freeGone.frameIntact x.1 x.2 = false) → Answers s id s [statusWord 4 0]

/-! ### Misses and resolutions -/

/-- R372 to R374, R377, R378: a miss with no merge entry makes one, and emits a fault record and its event; a miss on an entry joins it.
The oldest record whose ring has room is written at the head, the head advances, and the vector is raised; the oldest overflow record
moves in while the cellar has room, held requests enter the ring, and those held for a full merge table go on as entries free. -/
def Obligations.FaultRecords : Prop :=
  (∀ (s : State) (die ctx : Nat) (kind : ReqKind) (c : Context) (va : Nat) (f : XFault) (acc : Acc) (wave : Option Nat) (gen : Nat),
    let asid := if f.stage = 0 then c.asid else 0
    let page := (if f.stage = 0 then va else f.ipa) / pageBytes
    let d := s.die die
    let t := s.park die kind ctx c va f acc wave gen
    (d.hasMerge c.vmid asid f.stage page = true → (t.die die).faults = d.faults ∧ (t.die die).merge = d.merge) ∧
    (d.hasMerge c.vmid asid f.stage page = false → d.merge.length < Config.mergeEntries →
      (t.die die).merge = d.merge ++ [⟨c.vmid, asid, f.stage, page⟩] ∧ (t.die die).fseq = d.fseq + 1 ∧ (t.die die).evPend.getLsbD 2 = true ∧
      (t.die die).faults = d.faults ++ [(if f.stage = 0 then c.ownerFn else 0, faultRecord va c ctx die f acc.code d.fseq.toNat)]) ∧
    (d.hasMerge c.vmid asid f.stage page = false → Config.mergeEntries ≤ d.merge.length →
      (t.die die).faults = d.faults ∧ (t.die die).merge = d.merge ∧ ∃ r, FMap.get? (t.die die).reqs s.nextId = some r ∧ r.noEntry = true ∧ r.place = .held)) ∧
  (∀ (s : State) (die fn : Nat) (bs : List Byte) (rest : List (Nat × List Byte)), (s.die die).faults = (fn, bs) :: rest →
    (s.fn fn).room = true →
    let f := s.fn fn
    ∃ t, exec (.faultRecordWrite die) s = .next t ∧ t.hostMem = Memory.write s.hostMem (f.fqBase + 64 * f.fqHead) bs ∧
      (t.fn fn).fqHead = (f.fqHead + 1) % f.fqSize ∧ (t.die die).faults = rest ∧ t.irqs = s.irqs ++ [(fn, f.fqVec)]) ∧
  (∀ (s : State) (die : Nat), (∀ r ∈ (s.die die).faults, (s.fn r.1).room = false) → exec (.faultRecordWrite die) s = .next s) ∧
  (∀ (s : State) (die id : Nat) (r : Req),
    let d := s.die die
    (d.reqs.find? (fun r => r.2.place == .ring) = some (id, r) →
      exec (.overflowMoveIn die) s = .next (if d.prsUsed < d.prsLimit then s.moveReq die id .cellar else s)) ∧
    (d.reqs.find? (fun r => r.2.place == .held && !r.2.noEntry) = some (id, r) →
      exec (.ingressHeldEnterRing die) s = .next (if d.ovcUsed < d.ovcSize then ((s.moveReq die id .ring).spill die).endSpell die
        else if d.ovcSize = 0 ∧ d.prsUsed < d.prsLimit then (s.moveReq die id .cellar).endSpell die else s)) ∧
    (d.reqs.filter (fun r => r.2.noEntry) = [(id, r)] → FMap.get? d.reqs id = some r → exec (.mergeTableFullRetry die) s =
      .next (if d.merge.length < Config.mergeEntries ∨ d.hasMerge r.vmid r.asid r.stage r.page = true
        then s.replay die id { r with res := some .replay } else s)) ∧
    (Config.mergeEntries ≤ d.merge.length →
      (∀ j q, FMap.get? d.reqs j = some q → q.noEntry = true → d.hasMerge q.vmid q.asid q.stage q.page = false) →
      exec (.mergeTableFullRetry die) s = .next s)) ∧
  ∀ (s : State) (die id : Nat) (pl : Place) (r : Req), FMap.get? (s.die die).reqs id = some r →
    FMap.get? ((s.moveReq die id pl).die die).reqs id = some { r with place := pl } ∧
    ∀ j, j ≠ id → FMap.get? ((s.moveReq die id pl).die die).reqs j = FMap.get? (s.die die).reqs j

/-- R379, R380, R382, R415: a well-formed write into a resolution window resolves its key: the merge entry ends, and its requesters are performed
with the action; any other write is discarded and counted, and a tail is taken. A requester that may be performed is replayed. KILL unparks each
requester and kills its launch, or its gang alone in a protected context; a press access's launch ends with status 4, a read that has no launch yet
discards its command. An import opens the sealed page into its frame; one whose seal, version, leaf, frame or address is not in order installs
nothing, clears the frame, emits a record with REASON 8 and kills each requester; that a good one keeps the old leaf's permission bits is the
model's choice (log 30). The leaf entry that maps a page of a protected context is one that other agents' writes leave as it is; that they are
dropped is the model's choice (log 114). -/
def Obligations.Resolutions : Prop :=
  (∀ (s : State) (fn die : Nat) (w : WinWrite),
    (∀ a addr asid vmid stage imp frame, s.winAct fn w = .resolve a addr asid vmid stage imp frame →
      let t := (s.resolveWith die vmid (if stage = 0 then asid else 0) stage (addr / pageBytes) a imp frame).2
      (a = .replay → exec (.resolveReplay fn die w) s = .next t) ∧ (a = .poison → exec (.resolvePoison fn die w) s = .next t) ∧
      (a = .kill → exec (.resolveKill fn die w) s = .next t)) ∧
    (s.winAct fn w = .discard → exec (.resolutionDiscard fn die w) s = .next (s.count 0x04 die)) ∧
    (∀ v, s.winAct fn w = .tail v → exec (.faultQueueTailWrite fn die w) s = .next (s.modFn fn fun f => { f with fqTail := v }))) ∧
  (∀ (s : State) (fn : Nat) (w : WinWrite),
    (w.offset = 32 → w.bytes.length = 8 → s.winAct fn w = .tail (leNat w.bytes)) ∧
    (¬(w.offset = 32 ∧ w.bytes.length = 8) → ¬(w.offset = 0 ∧ w.bytes.length = 32) → s.winAct fn w = .discard) ∧
    (w.offset = 0 → w.bytes.length = 32 → 8 ≤ field w.bytes 12 1 ∨ 6 ≤ field w.bytes 12 1 % 8 ∨ field w.bytes 13 3 ≠ 0 ∨ 4096 ≤ field w.bytes 10 2 →
      s.winAct fn w = .discard)) ∧
  (∀ (s : State) (die vmid asid stage page : Nat) (a : ResAct),
    let d := s.die die
    let r := s.resolve die vmid asid stage page a
    (d.hasMerge vmid asid stage page = false → r = (none, s)) ∧
    (d.hasMerge vmid asid stage page = true → r.1 = some (d.requesters vmid asid stage page).length ∧
      (a ≠ .kill → (r.2.die die).hasMerge vmid asid stage page = false ∧
        ∀ id q, FMap.get? d.reqs id = some q → id ∈ d.requesters vmid asid stage page →
          FMap.get? (r.2.die die).reqs id = some { q with res := some a }) ∧
      (a = .kill → let ids := d.requesters vmid asid stage page
        r.2 = ids.foldl (fun t id => t.killReq die id) (ids.foldl (fun t id => t.markReq die id .kill) (s.modDie die fun d => { d with
          merge := d.merge.filter fun m => !(m.vmid == vmid && m.asid == asid && m.stage == stage && m.page == page) })))) ) ∧
  (∀ (s : State) (die id : Nat) (r : Req), FMap.get? (s.die die).reqs id = some r →
    (∀ (wg : Nat) (g : Workgroup), s.reqWg r = some wg → s.anyWg? wg = some g →
      s.killReq die id = (if s.isProt g = true then s.gangKill g.gang else s.killLaunch g.node 2).unpark die id) ∧
    (∀ t : State, FMap.get? ((t.unpark die id).die die).reqs id = none ∧ ∀ k, k ≠ id → FMap.get? ((t.unpark die id).die die).reqs k = FMap.get? (t.die die).reqs k) ∧
    (∀ n, r.kind = .press n → s.endingNode n = false → s.killReq die id = (s.markReq die id .poison).killLaunch n 4) ∧
    ∀ c q, r.kind = .take c q → s.killReq die id = s.discardCommand c q) ∧
  (∀ (s : State) (die entry : Nat) (r : Req), FMap.get? (s.die die).reqs entry = some r →
    exec (.requesterReplay die entry) s = .next (if (s.die die).mayReplay entry r = true then s.replay die entry r else s)) ∧
  (∀ (s : State) (die entry n : Nat) (r : Req) (m : LaneMask) (x : Op) (c : Ctl) (z : Size) (na : Bool) (d : Reg) (mem : MemRef),
    r.kind = .op n m → r.res = some .poison → FMap.get? s.ops n = some x → x.instr = .ldg c z na d mem →
    s.replay die entry r =
      ((((LaneMask.lanes (m &&& x.todo)).foldl (fun t L => t.laneZero n L true) (s.unpark die entry)).reap n).attempt n).settleSaved x.wave x.core) ∧
  (∀ (s : State) (cn va pa k : Nat) (c : Context), s.ctx? cn = some c → c.prot = true → c.ended = false → va / pageBytes / 2 ^ 28 ≤ 5461 →
    s.leafAt c va = some pa → k < 8 → s.inTables (pa + k) = true) ∧
  (∀ (s : State) (die req cn page imp frame : Nat) (cx : Context), (s.die die).fwHeld = false →
    FMap.get? (s.die die).imports req = some (cn, page, imp, frame) →
    let u := s.modDie die fun d => { d with imports := FMap.erase d.imports req }
    let sealed := Memory.read u.hostMem imp (49152 + 64)
    let version := field sealed (49152 + 16) 8
    let bad := u.frameOk cx frame = none ∨ u.leafAt cx (page * pageBytes) = none ∨ imp = 0 ∨ u.hostRange imp (49152 + 64) = false ∨
      FMap.get? cx.versions page ≠ some version ∨ cx.pageKey = none ∨ ∃ key, cx.pageKey = some key ∧
        Config.gcmOpen (Config.keygen u.bootCount key) (pageAad cn page version) (sealed.take 49152) ((sealed.drop 49152).take 16) = none
    u.ctx? cn = some cx → bad →
    let mine := (u.die die).reqs.filter fun r => r.2.res == some .replay && r.2.stage == 0 && r.2.ctx == cn && r.2.page == page
    let clean := match u.frameOk cx frame with
      | some pa => if imp = 0 then u else u.homeWrite pa (List.replicate 49152 0)
      | none => u
    ∃ va acc, exec (.sealedPageImport die req) s =
        .next (mine.foldl (fun t r => t.killReq die r.1) (clean.emitFault die cx.ownerFn (faultRecord va cx cn die ⟨8, 3, 0, 0⟩ acc))) ∧
      (mine = [] → va = page * pageBytes) ∧ ∀ r l, mine = r :: l → va = r.2.va ∧ acc = r.2.acc) ∧
  (∀ (va cn die acc n : Nat) (cx : Context), n < 2 ^ 48 → die < 32 → cn < 2 ^ 16 → acc < 8 →
    field (faultRecord va cx cn die ⟨8, 3, 0, 0⟩ acc n) 45 1 / 16 = 8) ∧
  ∀ (s : State) (die req cn page imp frame pa leaf : Nat) (cx : Context) (key : Nat) (plain : List Byte), (s.die die).fwHeld = false →
    FMap.get? (s.die die).imports req = some (cn, page, imp, frame) →
    let u := s.modDie die fun d => { d with imports := FMap.erase d.imports req }
    let sealed := Memory.read u.hostMem imp (49152 + 64)
    let version := field sealed (49152 + 16) 8
    u.ctx? cn = some cx → u.frameOk cx frame = some pa → u.leafAt cx (page * pageBytes) = some leaf → cx.pageKey = some key →
    imp ≠ 0 → u.hostRange imp (49152 + 64) = true → FMap.get? cx.versions page = some version →
    Config.gcmOpen (Config.keygen u.bootCount key) (pageAad cn page version) (sealed.take 49152) ((sealed.drop 49152).take 16) = some plain →
    exec (.sealedPageImport die req) s = .next ((u.homeWrite pa (fitBytes 49152 plain)).homeWrite leaf
      (leBytes 8 (3 + bits (leNat (u.homeRead leaf 8)) 3 3 * 8 + frame / pageBytes * 2 ^ 13)))

/-! ### Launches -/

/-- R343, R350, R351 to R354: a doorbell is taken when its count is in order, and counted as an error otherwise; a command is taken in the
order of priorities and rounds; a launch is examined, and runs, is refused with its reason, or ends; dispatch starts, of the eligible launches that
can run, the first by priority and then by the order of eligibility; one over several partitions can run only when every reservation succeeds, and its
first units are then placed together. -/
def Obligations.Scheduling : Prop :=
  (∀ (s : State) (fn cn q : Nat) (count : BitVec 64),
    (s.schedHeld = true → exec (.doorbellWrite fn cn q count) s = .next { s with heldBells := s.heldBells ++ [(fn, cn, q, count)] }) ∧
    (s.schedHeld = false → exec (.doorbellWrite fn cn q count) s = .next (s.ringBell fn cn q count.toNat)) ∧
    ((∀ c, s.ctx? cn = some c → c.owner ≠ fn ∨ c.ended = true ∨ c.queues.length ≤ q) → s.ringBell fn cn q count.toNat = s.count 0x07 fn) ∧
    ∀ c x b, s.ctx? cn = some c → c.owner = fn → c.ended = false → q < c.queues.length → s.readQcb cn q = s → s.queue? cn q = some x →
      x.qcb = some b → b.devq = false →
      s.ringBell fn cn q count.toNat = if count.toNat < x.wc ∨ x.rd + b.slots < count.toNat then s.count 0x07 fn
        else s.modQueue cn q fun x => { x with wc := count.toNat }) ∧
  (∀ (s : State) (cn q prio wgt : Nat) (x : Machine.Queue), s.queue? cn q = some x → s.schedHeld = false → s.takeable cn q x = some (prio, wgt) →
    exec (.commandTake cn q) s = .next (if x.round < wgt then s.takeCommand cn q
      else if s.roundOver prio = true then (s.newRound prio).takeCommand cn q else s)) ∧
  (∀ (s : State) (node : Nat), s.schedHeld = false →
    exec (.nodeEligible node) s = .next (match s.examine node with
      | (.stays, t) => t | (.eligible, t) => t | (.refused r, t) => t.finishNode node 3 r | (.ends, t) => t.finishNode node 0 0) ∧
    ∀ n, s.node? node = some n →
      exec (.semaphoreRecheck node) s = if n.semaAt.isSome = true then exec (.nodeEligible node) s else .next s) ∧
  (∀ (s : State) (id : Nat) (n : Node), s.freeGone = s → s.schedHeld = false → (id, n) ∈ s.nodes → n.stage = .eligible →
    let canRun := fun (i : Nat) (m : Node) => m.parts.length ≤ 1 ∨ (s.placeable i m = true ∧ s.outranked i m = false)
    let first := fun (m : Node) => n.prio < m.prio ∨ (n.prio = m.prio ∧ n.order < m.order)
    canRun id n → (∀ p ∈ s.nodes, p ≠ (id, n) → p.2.stage = .eligible → canRun p.1 p.2 → first p.2) →
    let u := s.modNode id fun x => { x with stage := .running }
    (n.parts.length ≤ 1 → exec .dispatch s = .next u) ∧
    ∀ k l, 1 < n.parts.length → n.kernel = some k → s.reserve id n k = some l →
      exec .dispatch s = .next (l.foldl (fun t c => match t.node? id with
        | some m => t.placeUnit id m k c.1 c.2.1 c.2.2
        | none => t) u)) ∧
  (∀ (s : State), s.freeGone = s →
    (∀ p ∈ s.nodes, p.2.stage = .eligible → 1 < p.2.parts.length ∧ (s.placeable p.1 p.2 = false ∨ s.outranked p.1 p.2 = true)) → exec .dispatch s = .next s) ∧
  ∀ (s : State) (id : Nat) (n : Node) (k : Kernel), n.kernel = some k →
    (((s.reserve id n k).isSome = true) ↔ ∀ j, j < n.parts.length → (n.pending k j).isSome = true → (s.canPlace id n k j).isSome = true) ∧
    (∀ l, s.reserve id n k = some l → l = (List.range n.parts.length).filterMap fun j => if (n.pending k j).isSome = true then s.canPlace id n k j else none) ∧
    (n.stage = .eligible → 1 < n.parts.length → s.reserve id n k = none → s.placeable id n = false)

/-- R266 to R270, R305, R315, R320, R355 to R361: a workgroup of a running launch is placed on cores that fit, its cores are refreshed and its
threads start once its staging is over, and it retires; of several victims the one of the lowest priority, then of the launch started last, is
stopped and saved, or its packet's grace begins, after which it is killed; a waiting gang is swapped out, is ready once its word changes, and is
restored. The model's choices: the recheck of a saved thread's word walks anew, fills no TLB and parks nothing (log 66), and WORKGROUP_RETIRE frees
a gang once all of it may retire (log 108). -/
def Obligations.Placement : Prop :=
  (∀ (s : State) (node die o : Nat) (rest : List Nat) (cores : List (List Nat)) (n : Node) (k : Kernel), s.node? node = some n → n.kernel = some k →
    let u := s.freeGone
    (((List.range (max 1 n.parts.length)).filter fun j => (u.partDies n j).contains die).filterMap (n.pending k)) = o :: rest →
    n.stage = .running → n.killed = false → cores.length = (n.unitOf k o).length → (cores.flatMap id).Nodup → gangShape (cores.flatMap id) = true →
    (∀ x ∈ cores, x ∈ coreSets k.crs ∧ u.fits n k die none x = true) → u.pinRoom node n die = true → u.ticketHeld n die = false →
    (∀ j, j < max 1 n.parts.length → ∀ p r, u.canPlace node n k j = some (p, r) → o ≤ p) → u.readyGangs node = [] → u.outranked node n = false →
    exec (.workgroupPlace node die cores) s = .next (u.placeUnit node n k o die cores)) ∧
  (∀ (s : State) (gang wgn : Nat) (g : Gang) (x : Workgroup), FMap.get? s.gangs gang = some g → s.gangWgs g = [(wgn, x)] → x.waves.Nodup →
    (x.staging ≠ [] ∨ x.frozen = true → exec (.threadStart gang) s = .next s) ∧
    (x.staging = [] → x.frozen = false → x.started = false → s.wg? wgn = some x → ∃ (t : State) (y : Workgroup), exec (.threadStart gang) s = .next t ∧
      t = x.waves.foldl (fun u k => u.modWave k fun w => if w.stop = .agent then w.resume s.tick else w)
        ((x.cores.foldl (fun u c => u.refresh c .dev) s).modWg wgn fun x => { x with started := true }) ∧
      (∀ c ∈ x.cores, (t.core c).l1 = []) ∧ t.wg? wgn = some y ∧ y = { x with started := true } ∧
      ∀ (k : Nat) (w : Wave), s.wave? k = some w → t.wave? k = some (if k ∈ x.waves ∧ w.stop = .agent
        then w.resume s.tick else w))) ∧
  (∀ (s : State) (wgn : Nat) (g : Workgroup), s.wg? wgn = some g →
    let ws := s.residentOf g.gang
    exec (.workgroupRetire wgn) s = .next (if ∀ w ∈ ws, s.canRetire w.2 w.1 = true
      then (ws.foldl (fun t w => t.freeWg w.1 w.2) s).countRetired g.node ws.length else s)) ∧
  (∀ (s : State) (node t : Nat) (n : Node), s.node? node = some n → n.graceAt = some t →
    (s.usec < t ∨ (n.stage ≠ .running ∧ n.stage ≠ .ending) → exec (.graceExpiry node) s = .next s) ∧
    (t ≤ s.usec → n.stage = .running → exec (.graceExpiry node) s = .next (s.killLaunch node 2)) ∧
    (t ≤ s.usec → n.stage = .ending → ∃ u x, exec (.graceExpiry node) s = .next u ∧ u.node? node = some x ∧
      x = { n with graceAt := none, status := if n.status ≤ 1 then 2 else n.status } ∧
      ∀ c q, s.ctx? n.ctx = some c → c.queues[n.q]? = some q → ∃ d p, u.ctx? n.ctx = some d ∧ d.queues[n.q]? = some p ∧ p.err.isSome = true)) ∧
  (∀ (s : State) (g : Nat) (l : List Nat), s.stopping = g :: l → s.evictable g = true → ∀ node, exec (.preemptVictim node) s = .next (s.evict g)) ∧
  (∀ (s : State) (node v : Nat) (vs : List Nat) (n : Node) (k : Kernel), (∀ g ∈ s.stopping, s.evictable g = false) →
    s.node? node = some n → n.kernel = some k →
    let u := s.freeGone
    u.waitsRoom node n = true → u.placeable node n = false → u.victims node n k = (v :: vs, false) →
    (∀ g ∈ v :: vs, u.victimOk node n k g = true) ∧
    ∃ best ∈ v :: vs,
      (∀ g ∈ v :: vs, ∀ x y m m', (u.residentOf best).head? = some x → (u.residentOf g).head? = some y → u.node? x.2.node = some m →
        u.node? y.2.node = some m' → m'.prio < m.prio ∨ (m'.prio = m.prio ∧ m'.startedAt.getD 0 ≤ m.startedAt.getD 0)) ∧
      ∀ (wgn : Nat) (g : Workgroup) (l : List (Nat × Workgroup)) (m : Node), u.residentOf best = (wgn, g) :: l → u.node? g.node = some m →
        n.prio < m.prio ∧
        (∀ x b, u.queue? m.ctx m.q = some x → x.qcb = some b → u.modeOf m = (b.packet, b.grace)) ∧
        ((u.modeOf m).1 = true → m.graceAt = none → exec (.preemptVictim node) s =
          .next (u.modNode g.node fun x => { x with graceAt := some (u.usec + (u.modeOf m).2) })) ∧
        ((u.modeOf m).1 = false → exec (.preemptVictim node) s = .next (((u.residentOf best).foldl (fun t w => t.freezeWg w.1) u).evict best))) ∧
  (∀ (s : State) (node v at_ : Nat) (n : Node), s.node? node = some n →
    let u := s.freeGone
    let ws := u.residentOf v
    ((dedup ((u.wgs.filter fun g => g.2.node == node).map fun g => g.2.gang)).filterMap fun g =>
      if u.underCtxsv g then none else (u.swappableGang g).map fun t => (t, g)) = [(at_, v)] →
    ((∃ w ∈ ws, (u.die w.2.die).fwHeld = true) → exec (.swapOut node) s = .next s) ∧
    (u.waitsRoom node n = true → u.placeable node n = false → (∀ w ∈ ws, u.settled w.1 = true ∧ (u.die w.2.die).fwHeld = false) →
      let t := u.quietGang v
      (∀ a, (t.swappableGang v).isSome = true → t.saveRoom v = some a → exec (.swapOut node) s = .next (t.storeGang v a 0 none)) ∧
      (t.swappableGang v = none ∨ t.saveRoom v = none → exec (.swapOut node) s = .next t))) ∧
  (∀ (s : State) (die : Nat) (x : Waiter),
    (s.die die).waiters.find? (fun y => y.wave == x.wave && y.lane == x.lane && !y.entered) = some x →
    (∀ y ∈ (s.die die).remoteWaits, y.entered = true) →
    exec (.swaitTableFullRecheck die x.wave x.lane) s = .next ((s.checkWaiter die x).modDie die fun d =>
      if (s.home? x.pa).isSome = true ∧
          (d.waiters.filter fun y => y.entered).length + (d.remoteWaits.filter fun y => y.entered).length < Config.waitEntries
      then { d with waiters := d.waiters.map fun y => if y = x then { y with entered := true } else y } else d)) ∧
  (∀ (s : State) (die : Nat) (x : Waiter) (w : Wave) (va : Nat) (dbl : Bool) (cmp : SwCmp) (v : BitVec 64), s.wave? x.wave = some w →
    FMap.get? w.waits x.lane = some (.word va dbl cmp v) → (∀ i off, s.backing x.pa ≠ .fabric i off) →
    s.checkWaiter die x = if swCond cmp dbl (s.waitWord x.pa dbl) v = true then
      (s.modDie die fun d => { d with waiters := d.waiters.filter fun y => !(y.wave == x.wave && y.lane == x.lane) }).unblock x.wave x.lane else s) ∧
  (∀ (s : State) (wgn wave lane a va pa : Nat) (f : Frame) (x : SavedWave) (c : Context) (dbl : Bool) (cmp : SwCmp) (v : BitVec 64) (e : TlbEntry)
    (new : XCache), s.frames = [(a, f)] → f.id = wgn → f.waves[wave]? = some x → s.ctx? f.wg.ctx = some c → FMap.get? x.wave.waits lane = some (.word va dbl cmp v) →
    walk s ⟨[], []⟩ c va .load = .ok (e, pa, new) → f.ready = none → (∀ d ∈ s.dies, d.2.reqs = []) →
    (∀ i off, s.backing pa ≠ .fabric i off) →
    exec (.swappedRecheck wgn wave lane) s = .next (if swCond cmp dbl (s.waitWord pa dbl) v = true
      then { s with frames := [(a, { f with ready := some s.tick })] } else s)) ∧
  ∀ (s : State) (node die g : Nat) (cores : List (List Nat)) (n : Node) (k : Kernel), s.node? node = some n → n.kernel = some k →
    let u := s.freeGone
    ((u.readyGangs node).find? fun g => (u.partDies n (u.gangPart n k g)).any fun d => (u.returnOn node n k g d).isSome) = some g →
    cores.length = (u.gangFrames g).length → (cores.flatMap id).Nodup → gangShape (cores.flatMap id) = true →
    (∀ x ∈ (u.gangFrames g).zip cores, x.2 ∈ coreSets k.crs ∧ u.fits n k die (some x.1.2) x.2 = true) →
    die ∈ u.partDies n (u.gangPart n k g) → (u.die die).fwHeld = false → u.pinRoom node n die = true → n.stage = .running → u.outranked node n = false →
    exec (.swapRestore node die cores) s = .next (u.restoreGang g die n k cores)

/-! ### The mailbox -/

/-- R8, R400, R407 to R409: a register write, which an RO register does not take, and what a read then gives; an unlisted offset reads zero and
takes nothing (an FQBASE that is no multiple of 64 is rounded down, which is the model's choice, log 35); GO submits the request as it stands unless
a command is in flight. The end of a command writes its status and tag and sets DONE; an unknown code ends with 3, a root command of another
function with 7, a misshapen one with 3. That a misshapen command ends with 3 is the model's choice (log 90), and so is that 7 comes before the form
(log 117). -/
def Obligations.MailboxCourse : Prop :=
  (∀ (s : State) (fn : Nat) (v : BitVec 64), fn < 9 →
    let f := s.fn fn
    let w := fun (r : HostReg) (g : Func → Func) => exec (.registerWrite fn r v) s = .next (s.modFn fn g)
    (f.fqOn = false → w .fqBase (fun f => { f with fqBase := v.toNat / 64 * 64 }) ∧ w .fqSize (fun f => { f with fqSize := v.toNat % 2 ^ 32 })) ∧
    (f.fqOn = true → exec (.registerWrite fn .fqBase v) s = .next s ∧ exec (.registerWrite fn .fqSize v) s = .next s) ∧
    w .fqVec (fun f => { f with fqVec := v.toNat % 2 ^ 32 }) ∧ w .mbVec (fun f => { f with mbVec := v.setWidth 32 }) ∧
    (∀ o, o < 4032 → w (.mbReq o) (fun f => { f with mbReq := FMap.set f.mbReq o (v.setWidth 8) })) ∧
    (∀ r, (r = .fqHead ∨ r = .mbSts ∨ ∃ o, r = .mbRsp o ∨ r = .cxlLink o ∨ r = .unlisted o) → exec (.registerWrite fn r v) s = .next s) ∧
    (∀ o, s.hostReg fn (.unlisted o) = 0) ∧
    (∀ r, (r = .fqVec ∨ r = .mbVec) → fn < s.fns.length → v.toNat < 2 ^ 32 → ∃ t, exec (.registerWrite fn r v) s = .next t ∧ t.hostReg fn r = v) ∧
    (∀ r, (r = .fqBase ∧ v.toNat % 64 = 0 ∨ r = .fqSize ∧ v.toNat < 2 ^ 32) → fn < s.fns.length → f.fqOn = false →
      ∃ t, exec (.registerWrite fn r v) s = .next t ∧ t.hostReg fn r = v) ∧
    (∀ o, o < 4032 → v.toNat < 256 → fn < s.fns.length → ∃ t, exec (.registerWrite fn (.mbReq o) v) s = .next t ∧ t.hostReg fn (.mbReq o) = v) ∧
    (v.getLsbD 63 = true → f.taken = none → ∃ t, exec (.registerWrite fn .mbCmd v) s = .next t ∧ (t.fn fn).taken = some (v, f.mbReq) ∧
      (t.fn fn).mbSts.getLsbD 63 = false ∧ t = { s with fns := t.fns }) ∧
    (v.getLsbD 63 = true → f.taken ≠ none → exec (.registerWrite fn .mbCmd v) s = .next (s.count 0x09 fn))) ∧
  (∀ (s : State) (fn status value : Nat) (rsp : List Byte) (cmd : BitVec 64) (req : FMap Byte), (s.fn fn).taken = some (cmd, req) → status < 256 →
    let t := s.mbEnd fn status value rsp
    (t.fn fn).taken = none ∧ (t.fn fn).mbSts.getLsbD 63 = true ∧ (t.fn fn).mbSts.toNat / 2 ^ 24 % 2 ^ 8 = status ∧
    (t.fn fn).mbSts.toNat / 2 ^ 32 % 2 ^ 16 = cmd.toNat / 2 ^ 32 % 2 ^ 16 ∧ (t.fn fn).mbSts.toNat % 2 ^ 24 = value % 2 ^ 24 ∧
    (rsp.length ≤ 4096 → rsp.length ≤ (s.fn fn).mbRsp.length → (t.fn fn).mbRsp.take rsp.length = rsp) ∧
    t.irqs = s.irqs ++ (if (s.fn fn).mbVec = 0xFFFFFFFF then [] else [(fn, (s.fn fn).mbVec.toNat)])) ∧
  (∀ (s : State) (fn code : Nat) (cmd : BitVec 64) (req : FMap Byte), Asked s fn code cmd req → code ∉ mbCodes →
    Replies (.mailboxUnknownCommand fn) s fn 3 s []) ∧
  ∀ (s : State) (fn kind idx : Nat) (img : Image) (cmd : BitVec 64) (req : FMap Byte), (s.fn fn).taken = some (cmd, req) → s.boot = .ready →
    s.mbHeld = false → s.minimal = false → cmd.toNat % 2 ^ 16 = 0x0040 →
    (fn ≠ 0 → Replies (.stage fn kind idx img) s fn 7 s []) ∧ (fn = 0 → cmdOk cmd = false → Replies (.stage fn kind idx img) s fn 3 s [])

/-- R252, R342, R357, R368, R371, R400 to R403, R415 to R418: the commands that identify the package and attest to it, create and end contexts,
retire an ASID, set a stage-2 root, page out, and set partitions, host runs, the address map, apertures and exports. The model's choices: PAGEOUT
clears the valid bit alone (log 30), the form of a range and what maps one (log 85), PARTSET and HRUN replace their tables and partitions are
disjoint (log 86), and the statuses that the rules do not name (log 117). -/
def Obligations.MailboxCommands : Prop :=
  (∀ (s : State) (fn : Nat) (cmd : BitVec 64) (req : FMap Byte),
    (Asked s fn 0x0001 cmd req → Replies (.ident fn) s fn 0 s Config.certChain) ∧
    (∀ nonce addr, Asked s fn 0x0002 cmd req →
      (nonce.length = 64 → addr % 64 = 0 → exec (.attest fn nonce addr) s = .next ((s.hostPut addr (s.report nonce)).mbEnd fn 0 10173 [])) ∧
      (nonce.length ≠ 64 ∨ addr % 64 ≠ 0 → Replies (.attest fn nonce addr) s fn 3 s [])) ∧
    (Asked s fn 0x0010 cmd req →
      let c := contextFrom req fn (some s.drawn)
      let cn := reqField req 192 2
      let key := c.vmid * 65536 + c.asid
      (descriptorOk cmd req = false → Replies (.ctxcrt fn) s fn 3 s []) ∧
      (descriptorOk cmd req = true → ownsParts fn c.parts = true → (c.vmid = 0 → fn = 0) → (∀ o, s.ctx? cn = some o → o.ended = true) →
        (c.vmid ≠ 0 → (FMap.get? s.s2roots c.vmid).isSome = true) →
        ((FMap.get? s.asids key).isSome = true → Replies (.ctxcrt fn) s fn 5 s []) ∧
        (FMap.get? s.asids key = none →
          let u : State := { s with ctxs := FMap.set s.ctxs cn c, asids := FMap.set s.asids key fn, drawn := if c.prot then s.drawn + 1 else s.drawn }
          exec (.ctxcrt fn) s = .next (((List.range c.queues.length).foldl (fun t q => t.readQcb cn q) u).mbEnd fn 0 cn []))))) ∧
  (∀ (s : State) (fn ctx : Nat) (cmd : BitVec 64) (req : FMap Byte), Asked s fn 0x0011 cmd req →
    (s.ctx? ctx = none → Replies (.ctxend fn ctx) s fn 1 s []) ∧
    ∀ c, s.ctx? ctx = some c → c.ended = false →
      (c.owner ≠ fn → Replies (.ctxend fn ctx) s fn 7 s []) ∧ (c.owner = fn → Replies (.ctxend fn ctx) s fn 0 (s.endContext ctx) [])) ∧
  (∀ (s : State) (fn vmid asid o : Nat) (cmd : BitVec 64) (req : FMap Byte), Asked s fn 0x0012 cmd req → vmid < 4096 → asid < 65536 →
    let key := vmid * 65536 + asid
    (FMap.get? s.asids key = none → Replies (.asidrt fn vmid asid) s fn 1 s []) ∧
    (FMap.get? s.asids key = some o → o ≠ fn → Replies (.asidrt fn vmid asid) s fn 7 s []) ∧
    (FMap.get? s.asids key = some fn → (∃ c ∈ s.ctxs, c.2.ended = false ∧ c.2.vmid = vmid ∧ c.2.asid = asid) →
      Replies (.asidrt fn vmid asid) s fn 2 s []) ∧
    (FMap.get? s.asids key = some fn → (∀ c ∈ s.ctxs, c.2.ended = true ∨ c.2.vmid ≠ vmid ∨ c.2.asid ≠ asid) →
      ∃ u, Replies (.asidrt fn vmid asid) s fn 0 u [] ∧ FMap.get? u.asids key = none ∧
        ∀ k, ∀ e ∈ (u.die k).tlb, ¬(e.vmid = vmid ∧ e.asid = asid ∧ e.stage ≠ 1))) ∧
  (∀ (s : State) (vmid root : Nat) (cmd : BitVec 64) (req : FMap Byte), Asked s 0 0x0013 cmd req →
    let bad := vmid = 0 ∨ 4096 ≤ vmid ∨ root % 65536 ≠ 0
    (bad → Replies (.s2root 0 vmid root) s 0 3 s []) ∧
    (¬bad → Replies (.s2root 0 vmid root) s 0 0 { s with s2roots := FMap.set s.s2roots vmid root } [])) ∧
  (∀ (s : State) (fn ctx va addr key leaf pa : Nat) (c : Context) (cmd : BitVec 64) (req : FMap Byte), Asked s fn 0x0014 cmd req →
    s.ownCtx fn ctx = .ok c → va % pageBytes = 0 → va < 2 ^ 56 → s.hostRange addr (49152 + 64) = true →
    (c.pageKey = none → Replies (.pageout fn ctx va addr) s fn 2 s []) ∧
    (c.pageKey = some key → s.leafAt c va = some leaf → s.leafPage c leaf = some pa →
      let version := FMap.getD c.versions (va / pageBytes) 0 + 1
      let y := Config.gcmSeal (Config.keygen s.bootCount key) (pageAad ctx (va / pageBytes) version) (s.homeRead pa 49152)
      Replies (.pageout fn ctx va addr) s fn 0
        (((((s.modCtx ctx fun c => { c with versions := FMap.set c.versions (va / pageBytes) version }).hostPut addr
          (fitBytes 49152 y.1 ++ fitBytes 16 y.2 ++ leBytes 8 version ++ List.replicate 40 0)).homeWrite leaf
          (leBytes 8 (leNat (s.homeRead leaf 8) / 2 * 2)))).dropTlb (tinvDrops 3 c.vmid c.asid va pageBytes)) [])) ∧
  (∀ (s : State) (parts : List (List Nat)) (runs : List HostRun) (ranges : List PamtRange) (cmd : BitVec 64) (req : FMap Byte),
    (Asked s 0 0x0020 cmd req →
      let good := parts.length ≤ 8 ∧ (∀ d ∈ parts.flatMap id, d < 24) ∧ (parts.flatMap id).Nodup
      (good → Replies (.partset 0 parts) s 0 0 { s with parts := parts ++ List.replicate (8 - parts.length) [] } []) ∧
      (¬good → Replies (.partset 0 parts) s 0 3 s [])) ∧
    (Asked s 0 0x0021 cmd req →
      let good := runs.length ≤ 64 ∧ runs.all hostRunOk = true ∧ apart runsMeet runs = true
      (good → Replies (.hrun 0 runs) s 0 0 { s with runs := runs } []) ∧ (¬good → Replies (.hrun 0 runs) s 0 3 s [])) ∧
    (Asked s 0 0x0022 cmd req →
      let good := ranges.length ≤ 16 ∧ ranges.all pamtRangeOk = true ∧ apart pamtMeet ranges = true
      (¬good → Replies (.pamtld 0 ranges) s 0 3 s []) ∧
      (good → (∃ r ∈ s.pamt, r.v = true ∧ r ∉ ranges ∧ s.rangeMapped r = true) → Replies (.pamtld 0 ranges) s 0 2 s []) ∧
      (∀ (cn va pa : Nat) (c : Context) (e : TlbEntry) (new : XCache) (r : PamtRange), s.ctx? cn = some c → c.ended = false → walk s ⟨[], []⟩ c va .load = .ok (e, pa, new) → r.base ≤ pa → pa < r.base + r.size →
        s.rangeMapped r = true) ∧
      (good → (∀ r ∈ s.pamt, r.v = true → r ∉ ranges → s.rangeMapped r = false) →
        Replies (.pamtld 0 ranges) s 0 0 { s with pamt := ranges ++ List.replicate (16 - ranges.length) pamtInvalid } []))) ∧
  ∀ (s : State) (fn ctx idx win : Nat) (desc : Aperture) (entry : ImportEntry) (c : Context) (cmd : BitVec 64) (req : FMap Byte),
    (Asked s fn 0x0023 cmd req → s.ownCtx fn ctx = .ok c →
      let bad := 256 ≤ idx ∨ 256 ≤ desc.pkg ∨ 4096 ≤ desc.win
      (bad → Replies (.apert fn ctx idx desc) s fn 3 s []) ∧
      (¬bad → Replies (.apert fn ctx idx desc) s fn 0 (s.modCtx ctx fun c => { c with apertures := FMap.set c.apertures idx desc }) [])) ∧
    (Asked s fn 0x0024 cmd req → s.ownCtx fn entry.ctx = .ok c →
      let bad := 4096 ≤ win ∨ 256 ≤ entry.src ∨ entry.len % 192 ≠ 0 ∨ 2 ^ 40 ≤ entry.len ∨ entry.base % 192 ≠ 0 ∨ 2 ^ 56 ≤ entry.base
      (bad → Replies (.exportWin fn win entry) s fn 3 s []) ∧
      (∀ o, ¬bad → s.windowOwner win = some o → o ≠ fn → Replies (.exportWin fn win entry) s fn 7 s []) ∧
      (¬bad → s.windowOwner win = none ∨ s.windowOwner win = some fn →
        let t := s.endRemoteWaits win
        (t.windowBusy win = false → Replies (.exportWin fn win entry) s fn 0 { t with imports := FMap.set t.imports win entry } []) ∧
        (t.windowBusy win = true → exec (.exportWin fn win entry) s = .next t))) ∧
    (∀ e, Asked s fn 0x0025 cmd req → s.revoking = [] → FMap.get? s.imports win = some e → s.windowOwner win = some fn →
      let off := { e with v := false }
      let t := ({ s with imports := FMap.set s.imports win off } : State).endRemoteWaits win
      (t.windowBusy win = false → Replies (.revoke fn win) s fn 0 t []) ∧
      (t.windowBusy win = true → exec (.revoke fn win) s = .next { t with revoking := t.revoking ++ [(win, fn)] }))

/-- R419 to R421: a session is opened over protected contexts of its function, with periods of 10 s and 60 s unless it names others, beats and
resumes with the next counter under its tag, lapses when a beat is due, and ends when it is closed or its grace is over. The statuses 2 and 3 of a
session over a context that is not protected, of a period out of range and of a resumption that nothing calls for are the model's choice (log 117). -/
def Obligations.Sessions : Prop :=
  (∀ (s : State) (fn : Nat) (period grace : Option Nat) (ctxs : List Nat) (vk : List Byte) (cmd : BitVec 64) (req : FMap Byte), Asked s fn 0x0030 cmd req →
    (∀ c ∈ ctxs, ∃ x, s.ownCtx fn c = .ok x) →
    let hbt := match period with | some n => n | none => 10
    let grc := match grace with | some n => n | none => 60
    (hbt = 0 ∨ 600 < hbt ∨ 3600 < grc → Replies (.sopen fn ctxs period grace vk) s fn 3 s []) ∧
    (0 < hbt → hbt ≤ 600 → grc ≤ 3600 →
      ((∃ c ∈ ctxs, ∃ x, s.ctx? c = some x ∧ x.prot = false) → Replies (.sopen fn ctxs period grace vk) s fn 2 s []) ∧
      ((∀ c ∈ ctxs, ∃ x, s.ctx? c = some x ∧ x.prot = true) → (∀ x ∈ s.sessions, x.2.ended = true) →
        ∃ u x, Replies (.sopen fn ctxs period grace vk) s fn 0 u [] ∧ u = { s with nextId := s.nextId + 1, sessions := FMap.set s.sessions s.nextId x } ∧
          x.fn = fn ∧ x.ctxs = ctxs ∧ x.hbt = hbt ∧ x.grc = grc ∧ x.counter = 0 ∧ x.due = s.usec + hbt * 10 ^ 6 ∧ x.lapsed = false ∧ x.ended = false))) ∧
  (∀ (s : State) (fn id : Nat) (x : Session) (counter : BitVec 64) (tag : List Byte) (cmd : BitVec 64) (req : FMap Byte),
    s.session? fn = some (id, x) →
    let good := counter = x.counter + 1 ∧ tag = Config.sessionTag x.key counter
    (Asked s fn 0x0031 cmd req →
      (x.lapsed = true → Replies (.sbeat fn counter tag) s fn 2 s []) ∧ (x.lapsed = false → ¬good → Replies (.sbeat fn counter tag) s fn 4 s []) ∧
      (x.lapsed = false → good → Replies (.sbeat fn counter tag) s fn 0
        (s.modSession id fun x => { x with counter := counter, due := s.usec + x.hbt * 10 ^ 6 }) [])) ∧
    (Asked s fn 0x0032 cmd req →
      (x.lapsed = false ∨ x.due < s.usec → Replies (.sresume fn counter tag) s fn 2 s []) ∧
      (x.lapsed = true → s.usec ≤ x.due → ¬good → Replies (.sresume fn counter tag) s fn 4 s []) ∧
      (x.lapsed = true → s.usec ≤ x.due → good → Replies (.sresume fn counter tag) s fn 0
        ((s.modSession id fun x => { x with counter := counter, lapsed := false, due := s.usec + x.hbt * 10 ^ 6 }).lapseQueues x.ctxs false) [])) ∧
    (Asked s fn 0x0033 cmd req → Replies (.sclose fn) s fn 0 (s.endSession id x) [])) ∧
  ∀ (s : State) (id : Nat) (x : Session), FMap.get? s.sessions id = some x → x.ended = false →
    (x.lapsed = false → s.usec < x.due → exec (.heartbeatExpiry id) s = .next s) ∧
    (x.lapsed = false → x.due ≤ s.usec → (∀ g ∈ s.wgs, g.2.ctx ∉ x.ctxs) → exec (.heartbeatExpiry id) s =
      .next ((s.modSession id fun y => { y with lapsed := true, due := s.usec + y.grc * 10 ^ 6 }).lapseQueues x.ctxs true)) ∧
    (x.lapsed = true → x.due ≤ s.usec → exec (.sessionGraceEnd id) s = .next (s.endSession id x)) ∧
    (x.lapsed = false ∨ s.usec < x.due → exec (.sessionGraceEnd id) s = .next s)

/-- R242, R332, R404, R407, R422 to R428, R435: staging verifies an image against its signature, the floor and the manifest; an activation waits for
what the firmware of a die has under way, writes its hand-over record into the copy that is not in force, and runs until the image reports or the
watchdog expires; a manifest replaces an older one; FLOOR raises the floors to the manifest's; SREG, LOSSDROP, TELEM and HRTSET. The model's
choices: what a hand-over record holds and which unit's restart does what (log 122), what a switch waits for (log 145), SREG's value in bytes 0 to 7
of the response (log 37), TELEM's first index as a value position (log 99), how many soft errors the environment gives (log 94), and the statuses
that the rules do not name, of STAGE, ACTIVATE and FLOOR (log 117). -/
def Obligations.FirmwareCommands : Prop :=
  (∀ (s : State) (kind idx : Nat) (img : Image) (cmd : BitVec 64) (req : FMap Byte), Asked s 0 0x0040 cmd req →
    (unitCount kind ≤ idx → Replies (.stage 0 kind idx img) s 0 1 s []) ∧
    (∀ a, idx < unitCount kind → s.activation = some a → a.kind = kind → a.idx = idx → Replies (.stage 0 kind idx img) s 0 2 s []) ∧
    let put := fun (x : ImageSlot) => s.modUnit kind idx fun u => u.setSlot (!u.activeB) x
    (idx < unitCount kind → s.activation = none → img.kind ≠ kind ∨ imageFits img = false →
      Replies (.stage 0 kind idx img) s 0 3 (put ⟨none, false⟩) []) ∧
    (idx < unitCount kind → img.kind = kind → imageFits img = true → s.activation = none →
      (imageSigned img = false → Replies (.stage 0 kind idx img) s 0 4 (put ⟨none, false⟩) []) ∧
      (imageSigned img = true → img.security < s.floorOf kind ∨ s.named kind img.version = false →
        Replies (.stage 0 kind idx img) s 0 6 (put ⟨none, false⟩) []) ∧
      (imageSigned img = true → s.floorOf kind ≤ img.security → s.named kind img.version = true →
        Replies (.stage 0 kind idx img) s 0 0 (put ⟨some img, true⟩) []))) ∧
  (∀ (s : State) (kind idx : Nat) (cmd : BitVec 64) (req : FMap Byte), Asked s 0 0x0041 cmd req → idx < unitCount kind → s.activation = none →
    let u := s.unit kind idx
    let slot := u.slot (!u.activeB)
    (slot.ok = false → Replies (.activateNextReset 0 kind idx) s 0 2 s []) ∧
    (slot.ok = true → Replies (.activateNextReset 0 kind idx) s 0 0 (s.modUnit kind idx fun u => { u with next := some (!(s.unit kind idx).activeB) }) []) ∧
    (slot.img = none ∨ slot.ok = false ∨ (kind = 1 ∧ s.firmwareTrapped idx = true) → Replies (.activateLive 0 kind idx) s 0 2 s []) ∧
    ∀ i, slot.img = some i → slot.ok = true → (kind ≠ 1 ∨ s.firmwareTrapped idx = false) →
      (s.startable kind slot = false ∨ s.liveOk kind idx i = false → Replies (.activateLive 0 kind idx) s 0 6 s []) ∧
      (s.startable kind slot = true → s.liveOk kind idx i = true → kind = 1 → s.firmwareBusy idx = true → ∃ t a, exec (.activateLive 0 kind idx) s = .next t ∧
        t.activation = some a ∧ a.kind = kind ∧ a.idx = idx ∧ a.fn = 0 ∧ a.begun = false ∧ t.unit kind idx = u ∧ (t.fn 0).taken = (s.fn 0).taken ∧ t.ops = s.ops ∧
        ∀ w, s.wave? (firmwareKey idx) = some w → ∃ v, t.wave? (firmwareKey idx) = some v ∧ v.stop ≠ .running) ∧
      (s.startable kind slot = true → s.liveOk kind idx i = true → kind ≠ 3 → (kind = 1 → s.firmwareBusy idx = false) → ∃ t a, exec (.activateLive 0 kind idx) s = .next t ∧
        t.activation = some a ∧ a.kind = kind ∧ a.idx = idx ∧ a.fn = 0 ∧ a.begun = true ∧ a.deadline = s.usec + s.deadline ∧ (t.unit kind idx).commit = u.commit + 1 ∧ (t.fn 0).taken = (s.fn 0).taken)) ∧
  (∀ (s : State) (kind idx : Nat) (a : Activation) (cmd : BitVec 64) (req : FMap Byte), Asked s 0 0x0041 cmd req → idx < unitCount kind → s.activation = some a →
    a.fn = 0 → (a.begun = true → exec (.activateLive 0 kind idx) s = .next s) ∧
    (a.begun = false → s.firmwareTrapped a.idx = false →
      exec (.activateLive 0 kind idx) s = .next (if s.firmwareBusy a.idx = true then s else s.beginSwitch a.kind a.idx 0))) ∧
  (∀ (s : State) (a : Activation), s.activation = some a →
    let trapped := a.kind = 1 ∧ s.firmwareTrapped a.idx = true
    (a.begun = false → exec .imageReportsReady s = .next s ∧ exec .activationWatchdog s = .next s) ∧
    (a.deadline < s.usec ∨ trapped → exec .imageReportsReady s = .next s) ∧
    let staged := fun (u : Machine.Unit) => imageVersion a.kind (u.slot (!u.activeB)).img
    (a.begun = true → s.usec ≤ a.deadline → ¬trapped → ∃ v, exec .imageReportsReady s = .next ((s.modUnit a.kind a.idx fun u =>
      { u.handOver true (s.handCopy a.kind a.idx (s.version a.kind a.idx) (staged u)) with activeB := !u.activeB, rom := false, failed := false }).endActivation a 0 v)) ∧
    (s.usec < a.deadline → exec .activationWatchdog s = .next s) ∧
    (a.begun = true → a.deadline ≤ s.usec →
      let u := s.unit a.kind a.idx
      ∃ t, (t = s ∨ t = s.modUnit a.kind a.idx fun u => u.handOver false (s.handCopy a.kind a.idx (s.version a.kind a.idx) (staged u))) ∧
        let r := t.restartUnit a.kind a.idx
        exec .activationWatchdog s = .next (if u.rom = true ∨ s.startable a.kind (u.slot u.activeB) = true then r.endActivation a 6 1
        else (r.modUnit a.kind a.idx fun u => { u with rom := true }).endActivation a 6 2))) ∧
  (∀ (s : State) (kind idx a b n : Nat), let c := s.handCopy kind idx a b n
    c.seq = n ∧ c.fromV = a ∧ c.toV = b ∧ c.kind = kind ∧ c.idx = idx ∧ c.len = c.sections.length ∧ c.good = true) ∧
  (∀ (s : State) (kind idx : Nat), kind ≠ 3 → ((s.restartUnit kind idx).unit kind idx).resumed = (s.unit kind idx).inForce) ∧
  (∀ (u : Machine.Unit) (c : HandCopy), u.inForce = some c → (u.handA = some c ∨ u.handB = some c) ∧ c.seq = u.commit ∧ c.good = true) ∧
  (∀ (u : Machine.Unit) (commits : Bool) (mk : Nat → HandCopy),
    let v := u.handOver commits mk
    v.commit = (if commits then u.commit + 1 else u.commit) ∧
    (v.handA = some (mk (u.commit + 1)) ∨ v.handB = some (mk (u.commit + 1))) ∧
    (∀ x, u.handA = some x → x.seq = u.commit → v.handA = some x) ∧
    (∀ x, u.handB = some x → x.seq = u.commit → (∀ y, u.handA = some y → y.seq ≠ u.commit) → v.handB = some x) ∧
    v.slotA = u.slotA ∧ v.slotB = u.slotB ∧ v.activeB = u.activeB ∧ v.rom = u.rom ∧ v.next = u.next ∧ v.failed = u.failed) ∧
  (∀ (s : State) (m : Manifest) (cmd : BitVec 64) (req : FMap Byte),
    (Asked s 0 0x0042 cmd req →
      let signed := Config.mldsaVerify Config.manifestKey (fitBytes 64 (Config.shake256 (manifestImage m))) m.signature
      (signed = false → Replies (.manifest 0 m) s 0 4 s []) ∧
      (∀ old, signed = true → s.manifest = some old → m.version ≤ old.version → Replies (.manifest 0 m) s 0 6 s []) ∧
      (signed = true → manifestAdmits m s.mixture false = false → Replies (.manifest 0 m) s 0 6 s []) ∧
      (signed = true → (∀ old, s.manifest = some old → old.version < m.version) → manifestAdmits m s.mixture false = true →
        Replies (.manifest 0 m) s 0 0 { s with manifest := some m } [])) ∧
    (Asked s 0 0x0043 cmd req →
      (s.manifest = none → Replies (.floor 0) s 0 2 s []) ∧
      (s.manifest = some m → ∃ u, Replies (.floor 0) s 0 0 u [] ∧ u = { s with floors := u.floors } ∧
        ∀ i, i < 5 → u.floors.getD i 0 = max (s.floors.getD i 0) (m.floors.getD i 0)))) ∧
  ∀ (s : State) (fn die num v stack : Nat) (w : BitVec 128) (cmd : BitVec 64) (req : FMap Byte),
    (Asked s fn 0x0050 cmd req →
      (24 ≤ die → ∀ wr x, Replies (.sreg fn die wr num x) s fn 1 s []) ∧
      (fn = 0 → die < 24 → num ∈ [0x0110, 0x0112, 0x0113, 0x0130, 0x0132] → (s.die die).fwHeld = false → v < 2 ^ 64 →
        let core := die * 48 + Config.firmwareCore
        ((s.die die).sregOk num v = true → Replies (.sreg fn die true num (BitVec.ofNat 64 v)) s fn 0 (s.writeSysReg core num v) []) ∧
        ((s.die die).sregOk num v = false → Replies (.sreg fn die true num (BitVec.ofNat 64 v)) s fn 3 s []) ∧
        ∀ x, Replies (.sreg fn die false num x) s fn 0 s (leBytes 8 (s.sysReg core num)))) ∧
    (Asked s 0 0x0051 cmd req → Replies (.lossdrop 0 w) s 0 0 { s with lossdrop := w &&& lossdropMask } []) ∧
    (Asked s 0 0x0053 cmd req →
      (v < 512 ∨ 65536 < v → Replies (.hrtset 0 none v) s 0 3 s [] ∧ Replies (.hrtset 0 (some stack) v) s 0 3 s []) ∧
      (512 ≤ v → v ≤ 65536 → Replies (.hrtset 0 none v) s 0 0 { s with hrt := s.hrt.map fun _ => v } [] ∧
        (stack < 24 → Replies (.hrtset 0 (some stack) v) s 0 0 { s with hrt := modAt s.hrt stack fun _ => v } []))) ∧
    (Asked s fn 0x0052 cmd req →
      let id := reqField req 0 2
      let first := reqField req 2 2
      let n := reqField req 4 2
      (telemShape id = none → Replies (.telem fn) s fn 3 s []) ∧
      ∀ total whose k, telemShape id = some (total, whose, k) → 8 ≤ cmd.toNat / 2 ^ 16 % 2 ^ 16 → 0 < n → n ≤ 512 → reqField req 6 2 = 0 → first + n ≤ total →
        ((∃ p, p < n ∧ s.telemSees fn whose ((first + p) / k) = false) → Replies (.telem fn) s fn 7 s []) ∧
        ((∀ p, p < n → s.telemSees fn whose ((first + p) / k) = true) →
          let u := s.softErrors id ((List.range n).map (first + ·))
          exec (.telem fn) s = .next (u.mbEnd fn 0 n ((List.range n).flatMap fun p => leBytes 8 (u.telemValue id (first + p)))) ∧
          (id ≠ 0x0015 → id ≠ 0x0016 → u = s) ∧ u = { s with telem := u.telem } ∧
          ∀ k v, FMap.get? s.telem k = some v → v < 2 ^ 64 → v ≤ FMap.getD u.telem k 0))

/-! ### Messages -/

/-- R233, R235, R325 to R327: a header of a context that the destination does not accept ends its send with 0x21; an accepted one takes
the first posted entry that matches it, else becomes unexpected while the queue has room and the buffer area has it for its blocks, else is refused. A
refused header is sent again after 1024 clk, twice as long after each further refusal up to 65536 clk, not before an earlier one of its pair.
An accepted one fixes the route of a SENDL. -/
def Obligations.MessageHeaders : Prop :=
  ∀ (s : State) (msg : Nat) (m : Msg), FMap.get? s.msgs msg = some m → m.srcPkg = s.pkg →
    (∀ (n cid : Nat) (cmd : Cmd), m.snd = .flying n → m.rcv = .none → m.dstPkg = s.pkg → m.cmd = some cid → FMap.get? s.cmds cid = some cmd →
      (∀ c, s.ctx? m.dstCtx = some c → c.ended = false → (m.srcPkg, m.srcCtx) ∉ c.accept) →
      let u : State := { s with msgs := FMap.erase s.msgs msg }
      exec (.headerArrival msg) s = .next (((u.postQer cmd 0x21 m.dest 0).unlockCmd cid).endCmd cid true)) ∧
    (∀ (n : Nat) (c : Context), m.snd = .flying n → m.rcv = .none → m.dstPkg = s.pkg → s.ctx? m.dstCtx = some c →
      c.ended = false → (m.srcPkg, m.srcCtx) ∈ c.accept →
      let hits := fun (p : Posted) =>
        ((BitVec.ofNat 32 (m.srcPkg + m.srcCtx * 2 ^ 8) ^^^ p.words.getD 0 0) &&& p.words.getD 1 0) = 0 ∧
        ((m.tag ^^^ p.words.getD 2 0) &&& p.words.getD 3 0) = 0
      let room := m.len = 0 ∨ s.bufferUsed m.dstCtx + ceilDiv m.len 192 ≤ c.rxn
      let refused := exec (.headerArrival msg) s = .next (s.modMsg msg fun x => { x with snd := .bounced n })
      (∀ (pre post : List Posted) (p : Posted), c.posted = pre ++ p :: post → hits p → (∀ q ∈ pre, ¬hits q) →
        let held := s.saved p.wg = true ∧ p.tensor = false
        (held → ¬room → refused) ∧
        (held → room → exec (.headerArrival msg) s = .next ((s.modCtx m.dstCtx fun c => { c with posted := c.posted.filter (· != p) }).modMsg msg
          fun x => { x with rcv := .matched p, blocks := ceilDiv m.len 192 })) ∧
        (¬held → exec (.headerArrival msg) s = .next ((s.modCtx m.dstCtx fun c => { c with posted := c.posted.filter (· != p) }).modMsg msg
          fun x => { x with rcv := .matched p, blocks := 0 }))) ∧
      ((∀ q ∈ c.posted, ¬hits q) →
        (c.unexpected.length < 1024 → room → exec (.headerArrival msg) s =
          .next ((s.modCtx m.dstCtx fun c => { c with unexpected := c.unexpected ++ [msg] }).modMsg msg
            fun x => { x with rcv := .unexpected, blocks := ceilDiv m.len 192 })) ∧
        (1024 ≤ c.unexpected.length ∨ ¬room → refused))) ∧
    (∀ n, m.snd = .bounced n → exec (.headerRefuse msg) s =
      .next (s.modMsg msg fun x => { x with snd := .refused (n + 1), retryAt := s.sendClock m + min 65536 (1024 * 2 ^ n) })) ∧
    ((∀ n, m.snd ≠ .bounced n) → exec (.headerRefuse msg) s = .next s) ∧
    (∀ n, m.snd = .refused n →
      let m' : Msg := { m with snd := .waiting n }
      let u := s.modMsg msg fun x => { x with snd := .waiting n }
      (s.sendClock m < m.retryAt → exec (.headerRetry msg) s = .next s) ∧
      (m.retryAt ≤ s.sendClock m → u.pairBehind m' = true → exec (.headerRetry msg) s = .next u) ∧
      (m.retryAt ≤ s.sendClock m → u.pairBehind m' = false →
        (m.dstPkg = s.pkg → exec (.headerRetry msg) s = .next (u.modMsg msg fun x => { x with snd := .flying n })) ∧
        (m.dstPkg ≠ s.pkg → u.reachable m.dstPkg = false → exec (.headerRetry msg) s = .next (u.failSend msg m' 0x20 m.dest)))) ∧
    (∀ n, m.snd = .flying n → m.rcv = .none → exec (.headerAccept msg) s = .next s) ∧
    ∀ n, m.snd = .flying n → m.rcv ≠ .none →
      exec (.headerAccept msg) s = .next ((s.modMsg msg fun x => { x with snd := .accepted, port := s.lossyPort x }).sendPayload msg).sendHeaders

/-- R233, R236, R237, R328, R330, R332, R333, R341: the payload is cut into blocks of 192 bytes after acceptance; within the package the
armed test-drop control takes one of them, which counts as sent. PAYLOAD_BLOCK_ARRIVAL completes: a block lands in its place, and after the
end marker it is discarded. END_MARKER_ARRIVAL completes: blocks that are missing are counted as lost, and the message lands, with zeros and
clear mask bits for them, a mask only where the receive has one, and its completion names what landed. END_ACKNOWLEDGEMENT completes: the
send retires, and another package's is answered with a flit once a port takes it. RECEIVE_COMPLETION_RELEASE completes: held completions
reach the queue while it has room. The model's choices: a block waits in the buffer until the end marker, when the message lands in one step (log 51),
and the end marker counts every block that is missing, so that a later one is not counted again (log 54). -/
def Obligations.MessagePayload : Prop :=
  (∀ (s : State) (msg : Nat) (m : Msg), FMap.get? s.msgs msg = some m →
    (∀ data : List Byte, (m.dstPkg ≠ s.pkg ∨ m.lossy = false ∨ s.lossdrop.getLsbD 63 = false) →
      ∃ sent, s.cutBlocks msg m data = s.modMsg msg (fun x => { x with sent := sent, count := if m.dstPkg = s.pkg then m.nblocks else x.count }) ∧
        ∀ k, k < m.nblocks → FMap.get? sent k = some (((data.drop (192 * k)).take 192 ++ List.replicate 192 0).take 192)) ∧
    (∀ data : List Byte, m.dstPkg = s.pkg → m.nblocks = 1 → m.lossy = true → s.lossdrop.getLsbD 63 = true →
      (s.lossdrop.extractLsb' 32 8).toNat = m.dstPkg → (s.lossdrop.extractLsb' 40 10).toNat = m.dstCtx →
      (m.tag ^^^ s.lossdrop.extractLsb' 96 32) &&& s.lossdrop.extractLsb' 64 32 = 0 → s.lossdrop.extractLsb' 0 14 = 0 →
      ∃ l : BitVec 128, (∀ i, i < 128 → l.getLsbD i = (s.lossdrop.getLsbD i && decide (i ≠ 63))) ∧
        s.cutBlocks msg m data = ({ s with lossdrop := l }).modMsg msg fun x => { x with count := 1 }) ∧
    (∀ (cid : Nat) (c : Cmd), m.snd = .accepted → m.cmd = some cid → FMap.get? s.cmds cid = some c → m.dstPkg = s.pkg →
      (c.stage = .payload → exec (.headerAccept msg) s = .next (s.modMsg msg fun x => { x with snd := .marked })) ∧
      (c.stage ≠ .payload → m.len = 0 → exec (.headerAccept msg) s =
        .next ((((s.modMsg msg fun x => { x with count := 0 }).modCmd cid fun x => { x with stage := .payload }).unlockCmd cid).modMsg
          msg fun x => { x with snd := .marked }))) ∧
    (m.srcPkg = s.pkg → m.dstPkg = s.pkg →
      (∀ (k : Nat) (bs : List Byte), FMap.get? m.arrived k = none → FMap.get? m.sent k = some bs →
        (m.ended = true → exec (.payloadBlockArrival msg k) s = .next s) ∧
        (m.ended = false → k < m.nblocks →
          exec (.payloadBlockArrival msg k) s = .next (s.modMsg msg fun x => { x with arrived := FMap.set x.arrived k bs }))) ∧
      (m.ended = true → exec (.endMarkerArrival msg) s = .next (s.landMsg msg)) ∧
      (m.ended = false → (m.snd ≠ .marked ∨ ∃ b ∈ m.sent, FMap.get? m.arrived b.1 = none) → exec (.endMarkerArrival msg) s = .next s) ∧
      (m.ended = false → m.snd = .marked → (∀ b ∈ m.sent, (FMap.get? m.arrived b.1).isSome = true) →
        let lost := m.nblocks - (m.arrived.filter fun b => decide (b.1 < m.nblocks)).length
        let u := ({ (List.range lost).foldl (fun t _ => t.count 0x0A m.dstCtx) s with nextId := s.nextId + 1 } : State).modMsg msg
          fun x => { x with ended := true, endAt := s.nextId }
        let m' : Msg := { m with ended := true, endAt := s.nextId }
        (m.rcv = .unexpected → exec (.endMarkerArrival msg) s = .next u) ∧
        (∀ p : Posted, m.rcv = .matched p → p.tensor = true → exec (.endMarkerArrival msg) s = .next (u.landTensor msg m' p)) ∧
        (∀ p : Posted, m.rcv = .matched p → p.tensor = false → s.wg? p.wg = none → s.saved p.wg = true → exec (.endMarkerArrival msg) s = .next u) ∧
        ∀ (p : Posted) (g : Workgroup), m.rcv = .matched p → p.tensor = false → s.wg? p.wg = some g →
          let n := min m.len (bits (p.words.getD 4 0).toNat 0 22)
          let nb := ceilDiv n 192
          let off := (p.words.getD 6 0).toNat
          let status := if n < m.len then 1 else 0
          (s.rangeLocked p.num p.wg p.core off n = true → exec (.endMarkerArrival msg) s = .next u) ∧
          (p.words.getD 7 0 = BitVec.allOnes 32 → s.rangeLocked p.num p.wg p.core off n = false →
            exec (.endMarkerArrival msg) s = .next (((u.modWg p.wg fun g => g.fill p.core off n [(0, m.payload n, false)]).endReceive msg m' p n
                (m.valid nb) status).pumpGang p.wg)) ∧
          (p.words.getD 7 0 ≠ BitVec.allOnes 32 →
            let moff := (p.words.getD 7 0).toNat
            s.rangeLocked p.num p.wg p.core off n = false → s.rangeLocked p.num p.wg p.core moff (ceilDiv nb 8) = false →
            exec (.endMarkerArrival msg) s = .next (((u.modWg p.wg fun g =>
              (g.fill p.core off n [(0, m.payload n, false)]).fill p.core moff (ceilDiv nb 8) [(0, m.maskBytes nb, false)]).endReceive msg m' p n
                (m.valid nb) status).pumpGang p.wg))) ∧
      ∀ cid, m.ended = true → m.cmd = some cid →
        let u := s.endCmd cid false
        (m.snd = .marked → m.rcv = .landed → exec (.endAcknowledgement msg) s = .next { u with msgs := FMap.erase u.msgs msg }) ∧
        (m.snd = .marked → m.rcv ≠ .landed →
          exec (.endAcknowledgement msg) s = .next (u.modMsg msg fun x => { x with snd := .ended, cmd := none })) ∧
        (m.snd ≠ .marked → exec (.endAcknowledgement msg) s = .next s)) ∧
    (m.srcPkg ≠ s.pkg → m.ended = true → m.snd ≠ .ended →
      let flit := msgFlit m 0 0x15 m.srcPkg (Config.payOf 0x15 [m.num, 0]) (m.dstCtx, m.srcCtx)
      (s.sendFlit flit (s.replyProt m) = none → exec (.endAcknowledgement msg) s = .next s) ∧
      ∀ t, s.sendFlit flit (s.replyProt m) = some t →
        (m.rcv = .landed → exec (.endAcknowledgement msg) s = .next { t with msgs := FMap.erase t.msgs msg }) ∧
        (m.rcv ≠ .landed → exec (.endAcknowledgement msg) s = .next (t.modMsg msg fun x => { x with snd := .ended })))) ∧
  (∀ (m : Msg), (∀ k b, FMap.get? m.arrived k = some b → b.length = 192) →
    (∀ n i, i < n → List.getD (m.payload n) i 0 = match FMap.get? m.arrived (i / 192) with | some b => List.getD b (i % 192) 0 | none => 0) ∧
    ∀ nb t, (List.getD (m.maskBytes nb) (t / 8) 0).getLsbD (t % 8) = (decide (t < nb) && (FMap.get? m.arrived t).isSome)) ∧
  (∀ (m : Msg) (cookie : Word) (landed count status : Nat), landed < 2 ^ 22 → m.srcCtx < 2 ^ 10 → count < 2 ^ 15 → m.srcPkg < 2 ^ 8 →
    status < 2 ^ 8 → ∃ w2 w3 : Word, completionOf m cookie landed count status = [cookie, m.tag, w2, w3] ∧
      (w2.extractLsb' 0 22).toNat = landed ∧ (w2.extractLsb' 22 10).toNat = m.srcCtx ∧ (w3.extractLsb' 0 15).toNat = count ∧
      w3.getLsbD 15 = m.lossy ∧ (w3.extractLsb' 16 8).toNat = m.srcPkg ∧ (w3.extractLsb' 24 8).toNat = status) ∧
  ∀ (s : State) (k : Nat) (w : Wave), s.wave? k = some w →
    let n := 8 - (w.present 5).length
    exec (.receiveCompletionRelease k) s =
      .next (s.setWave k { w with pop := modAt w.pop 5 fun l => l ++ w.heldRx.take n, heldRx := w.heldRx.drop n })

/-! ### Fabric, caches, the host's accesses, hot rows -/

/-- R290, R292, R322, R323, R392, R396, R397: an entry of the write-combining buffer drains as one masked write to its window, sent to the other
package, or waiting until a port takes it and those before it to that package; loads of its line that are under way keep the bytes and fill no
cache; it is dropped as unbacked where a protected context has no sealed route. An access that fails the import check is answered as unbacked; one
that passes is translated in the exporter's context and performed at its home, waits in the side queue of a throttled row, or parks on a miss, and
its answer names both contexts. How a SWAIT check and a SWAKE travel is the model's choice (log 9); at the home the one waits for its condition, the
other wakes the line. -/
def Obligations.FabricAccesses : Prop :=
  (∀ (s : State) (core idx : Nat) (e : WcbEntry), (s.core core).wcb[idx]? = some e →
    let u := s.modCore core fun c => { c with wcb := c.wcb.filter fun x => !(x.pkg == e.pkg && x.win == e.win && x.off / 192 == e.off / 192) }
    (s.ctxProt e.ctx = true → s.sealedRoute e.pkg = false → exec (.wcbDrain core idx) s = .next (u.countUnbacked none (core / 48))) ∧
    ((s.ctxProt e.ctx = false ∨ s.sealedRoute e.pkg = true) →
      ∃ (l : FMap FabricReq) (r : FabricReq), r.op = none ∧ r.sent = false ∧ r.core = core ∧ r.ctx = e.ctx ∧ r.pkg = e.pkg ∧ r.acc.kind = 1 ∧
        r.acc.src = s.pkg ∧ r.acc.srcCtx = e.ctx ∧ r.acc.tag = s.nextId ∧ r.acc.window = e.win ∧ r.acc.key = e.key ∧ r.acc.offset = e.off ∧ r.acc.size = 192 ∧
        (∀ i, i < 192 → List.getD r.acc.mask i false = (FMap.get? e.bytes i).isSome ∧ List.getD r.acc.data i 0 = FMap.getD e.bytes i 0) ∧
        (let waits : State := { u with nextId := s.nextId + 1, fabricReqs := FMap.set l s.nextId r }
         let sends := ({ u with nextId := s.nextId + 1, fabricReqs := l } : State).sendFlit (accessFlit r.acc e.pkg e.ctx) (s.ctxProt e.ctx)
         let earlier := ∃ q ∈ s.fabricReqs, q.2.pkg = e.pkg ∧ q.2.sent = false
         (e.pkg = s.pkg ∨ earlier ∨ sends = none → exec (.wcbDrain core idx) s = .next waits) ∧
         (e.pkg ≠ s.pkg → ¬earlier → ∀ t, sends = some t →
           exec (.wcbDrain core idx) s = .next { t with fabricReqs := FMap.set t.fabricReqs s.nextId { r with sent := true } })) ∧
        l.length = s.fabricReqs.length ∧
        ∀ (n id : Nat) (q : FabricReq), s.fabricReqs[n]? = some (id, q) →
          let line := e.off / 192 * 192
          let hit := q.acc.kind = 0 ∧ q.core = core ∧ q.pkg = e.pkg ∧ q.acc.window = e.win ∧ q.acc.offset < line + 192 ∧ line < q.acc.offset + q.acc.size
          ∃ (d : FMap Byte) (old : Bool), l[n]? = some (id, { q with drained := d, stale := old }) ∧
            (¬hit → d = q.drained ∧ old = q.stale) ∧
            (hit → old = true ∧ ∀ k b, e.bytes = [(k, b)] → d = FMap.set q.drained (e.off + k) b))) ∧
  (∀ (s : State) (a : FabricAccess), a.src ≠ s.pkg →
    let passes := fun (e : ImportEntry) => FMap.get? s.imports a.window = some e ∧ e.v = true ∧ e.key = a.key ∧ (e.src = 0xFF ∨ e.src = a.src) ∧
      a.offset + a.size ≤ e.len ∧ (match a.kind with | 1 => e.wr = true | 2 => e.at_ = true | _ => e.rd = true)
    let die := translatingDie (a.window / 1024)
    ((∀ e, ¬passes e) → exec (.fabricAccessArrival a) s = .next ((s.count 0x03 die).answer a false [] false)) ∧
    ∀ (e : ImportEntry) (c : Context), passes e → s.ctx? e.ctx = some c →
      let x := { a with dstCtx := e.ctx }
      (∀ (id : Nat) (q : Req) (b : FabricAccess), (id, q) ∈ (s.die die).reqs → q.kind = .fabric b → b.src ≠ a.src) →
      let kind := match a.kind with | 1 => Acc.store | 2 => Acc.atomic | _ => Acc.load
      let va := (e.base + a.offset) % 2 ^ 56
      (∀ f t, translate s none die c va kind = (.error f, t) →
        exec (.fabricAccessArrival a) s = .next (t.park die (.fabric x) e.ctx c va f kind none 0)) ∧
      ∀ pa t0 d, translate s none die c va kind = (.ok pa, t0) → t0.backing pa = .dev d →
        (a.kind < 3 → t0.missesHome pa = true → t0.rowShut (.fabric x) pa = true → exec (.fabricAccessArrival a) s = .next (t0.joinRow (.fabric x) pa)) ∧
        (t0.hotRows = [] →
        let t := if a.kind < 3 then t0.touch pa else t0
        (a.kind = 0 → exec (.fabricAccessArrival a) s = .next (t.answer x c.prot (t.homeRead pa a.size) true)) ∧
        (a.kind = 1 → exec (.fabricAccessArrival a) s = .next (((List.range a.size).foldl (fun u i =>
          if a.mask.getD i false = true ∧ u.inTables (pa + i) = false then u.homeWriteIn (pa + i) [List.getD a.data i 0] else u) t).answer x c.prot [] true)) ∧
        (a.kind = 2 → t.hostKey (pa / 48) = false →
          let old := leNat (t.homeRead pa a.size)
          let u := if t.inTables pa = true then t else t.homeWriteIn pa (leBytes a.size (atomNew a.atomOp (8 * a.size) old a.operand.toNat a.newval.toNat))
          exec (.fabricAccessArrival a) s = .next ((if a.ntf = true then u.wakeLine pa else u).answer x c.prot (leBytes a.size old) true)) ∧
        (a.kind = 3 →
          (accessHolds a (t.waitWord pa (a.size == 8)) = true →
            exec (.fabricAccessArrival a) s = .next (t.answerWait x c.prot (t.waitWord pa (a.size == 8)) true)) ∧
          (accessHolds a (t.waitWord pa (a.size == 8)) = false → ∃ entered, exec (.fabricAccessArrival a) s =
            .next (t.modDie ((t.home? pa).getD 0) fun d => { d with remoteWaits := d.remoteWaits ++ [⟨x, pa, c.prot, entered⟩] }))) ∧
        (a.kind = 4 → exec (.fabricAccessArrival a) s = .next ((t.wakeLine pa).answer x c.prot [] true)))) ∧
  ∀ (s : State) (id : Nat) (r : FabricReq), s.fabricReqs = [(id, r)] → r.pkg = s.pkg → r.acc.src = s.pkg →
    (r.sent = true → exec (.fabricAccessArrival r.acc) s = .next s) ∧
    (r.sent = false → exec (.fabricAccessArrival r.acc) s = .next (({ s with fabricReqs := [(id, { r with sent := true })] }).arriveAccess r.acc))

/-- R389, R391 to R394, R413: a flit that fails its check is discarded and counted, and a reliable one answered with a NACK; the
acknowledgement frees the replay buffer; a flit out of sequence is not delivered, the expected one is, once per `ESEQ`; a NACK or a
timeout goes back; a port that is trained down, has 16 failed checks within a millisecond or four timeouts fails, and a working one leaves its
place to a spare; it returns after a checked training; a link key gives way to the next once both ends have it. The model's choices: a NACK is an idle
flit (log 32), the millisecond is the management controller's (log 79), the nonce, counters and policy of a sealed port (log 116), the flit of an
acknowledgement from end to end (log 76), and the event that is a slot of a port (log 65). -/
def Obligations.LinkLayer : Prop :=
  (∀ (s : State) (port : Nat) (flit : List Byte) (a : Activation), s.activation = some a → a.kind = 4 → a.idx = port / 12 →
    exec (.flitReceive port flit) s = .next { s with heldFlits := s.heldFlits ++ [(port, flit)] }) ∧
  (∀ (s : State) (port : Nat) (flit : List Byte), (s.port port).sealPolicy = true → 2 ^ 64 - 2 ^ 32 ≤ (s.port port).rxCount.toNat →
    s.activation = none → exec (.flitReceive port flit) s = .next s) ∧
  (∀ (s : State) (port : Nat) (flit : List Byte), (s.port port).up = true → flit.length = 256 → s.activation = none →
    (s.port port).sealPolicy = false ∨ (s.port port).rxCount.toNat < 2 ^ 64 - 2 ^ 32 →
    let p := s.port port
    let heard0 := if p.sealPolicy = true then s.modPort port (fun q => { q with rxCount := q.rxCount + 1 }) else s
    let opened := if p.sealPolicy = true then
        Config.gcmOpen p.key (Config.portNonce port false p.rxCount ++ (flit.drop 192).take 44) (flit.take 192) ((flit.drop 236).take 16)
      else some (flit.take 192)
    let addr := field flit 216 8
    let route := field flit 224 8
    let link := field flit 232 4
    let cls := addr / 2 ^ 58 % 4
    let kind := addr / 2 ^ 52 % 64
    let seq := link % 2 ^ 16
    let good := field flit 252 4 = (crc32c (flit.take 252)).toNat ∧ opened ≠ none
    let heard := if cls = 1 then heard0 else (heard0.ackReplay port cls (link / 2 ^ 16)).resendWaiting
    let took := heard.modPort port fun p =>
      { p with rxSeq := modAt p.rxSeq cls fun _ => (seq + 1) % 65536, ackOwed := modAt p.ackOwed cls fun _ => cls != 1 }
    (¬good →
      let u := (heard0.count 0x0B port).modPort port fun p => { p with failTimes := (p.failTimes.filter fun x => decide (s.usec < x + 1000)) ++ [s.usec] }
      exec (.flitReceive port flit) s = .next (if cls = 0 ∨ cls = 2 then u.idleFlit port cls else u)) ∧
    (good → cls = 3 → exec (.flitReceive port flit) s = .next (heard0.count 0x0C (port / 12))) ∧
    (good → cls < 3 → kind = 0x20 → exec (.flitReceive port flit) s = .next heard) ∧
    (good → cls = 0 ∨ cls = 2 → kind ≠ 0x20 → seq ≠ p.rxSeq.getD cls 0 → exec (.flitReceive port flit) s = .next (heard.idleFlit port cls)) ∧
    (good → cls < 3 → kind ≠ 0x20 → cls = 1 ∨ seq = p.rxSeq.getD cls 0 →
      (kind = 0 ∨ (0x06 < kind ∧ kind < 0x10) ∨ (0x15 < kind ∧ kind < 0x30) → exec (.flitReceive port flit) s = .next (took.count 0x0C (port / 12))) ∧
      ((0 < kind ∧ kind ≤ 0x06) ∨ (0x10 ≤ kind ∧ kind ≤ 0x15) ∨ 0x30 ≤ kind → route / 2 ^ 8 % 2 ^ 8 = s.pkg →
        ∃ f : Arrived, f.cls = cls ∧ f.kind = kind ∧ f.src = route % 2 ^ 8 ∧ f.srcCtx = route / 2 ^ 25 % 2 ^ 10 ∧ f.dstCtx = route / 2 ^ 35 % 2 ^ 10 ∧
          f.eseq = route / 2 ^ 45 % 2 ^ 16 ∧ f.window = addr / 2 ^ 40 % 2 ^ 12 ∧ f.offset = addr % 2 ^ 40 ∧ opened = some f.pay ∧ f.sealed = p.sealPolicy ∧
          let want := FMap.getD heard.eseqRx (cls * 256 + f.src) 0
          let next := fun (v : State) (x : Arrived × List Byte) =>
            ({ v with eseqRx := FMap.set v.eseqRx (x.1.cls * 256 + x.1.src) ((x.1.eseq + 1) % 65536) } : State).deliver x.1 x.2
          let later := inTurn heard.early cls f.src heard.early.length ((want + 1) % 65536)
          (cls = 1 → exec (.flitReceive port flit) s = .next (next took (f, flit))) ∧
          (cls ≠ 1 → f.eseq = want → exec (.flitReceive port flit) s = .next (
            let v := later.foldl next (next { took with early := heard.early.filter fun x => !later.contains x } (f, flit))
            (if cls = 0 then v.ackFlow f.src ((want + 1 + later.length) % 65536) else v).resendWaiting)) ∧
          (cls ≠ 1 → f.eseq ≠ want → ((f.eseq + 65536 - want % 65536) % 65536 < 32768 ∧ ∀ x ∈ heard.early, ¬(x.1.cls = cls ∧ x.1.src = f.src ∧ x.1.eseq = f.eseq)) →
            exec (.flitReceive port flit) s = .next { took with early := heard.early ++ [(f, flit)] }) ∧
          (cls ≠ 1 → f.eseq ≠ want → ¬((f.eseq + 65536 - want % 65536) % 65536 < 32768 ∧ ∀ x ∈ heard.early, ¬(x.1.cls = cls ∧ x.1.src = f.src ∧ x.1.eseq = f.eseq)) →
            exec (.flitReceive port flit) s = .next took)))) ∧
  (∀ (s : State) (port cls ack : Nat) (p : Port), s.ports[port]? = some p → cls < p.replay.length → ∃ p' : Port,
    (s.ackReplay port cls ack).ports[port]? = some p' ∧
    ∀ q b, (q, b) ∈ p'.replay.getD cls [] ↔ (q, b) ∈ p.replay.getD cls [] ∧ 32768 ≤ (q + 65536 - ack % 65536) % 65536) ∧
  (∀ (s : State) (port cls seq : Nat),
    ((s.port port).up = true → cls = 0 ∨ cls = 2 →
      exec (.nackReceive port cls seq) s = .next ((s.ackReplay port cls ((seq + 65535) % 65536)).goBack port cls seq).resendWaiting) ∧
    (∀ q b, (s.port port).up = true → (s.port port).replay.getD cls [] = [(q, b)] →
      exec (.replayTimeout port cls) s = .next ((s.goBack port cls q).modPort port fun p => { p with timeouts := p.timeouts + 1 })) ∧
    ((s.port port).replay.getD cls [] = [] → exec (.replayTimeout port cls) s = .next s) ∧
    ((s.port port).queue = [] → (s.port port).up = true → (s.port port).ackOwed.getD cls false = true →
      exec (.ackInterval port cls) s = .next (s.idleFlit port cls)) ∧
    ((s.port port).up = false ∨ ((s.port port).queue = [] ∧ (s.port port).ackOwed.getD cls false = false) → exec (.ackInterval port cls) s = .next s)) ∧
  (∀ (s : State) (port cls seq : Nat) (p : Port) (plain : List Byte), s.ports[port]? = some p → p.up = true → p.queue = [(cls, seq, plain)] → cls < 3 →
    p.sealPolicy = false ∨ p.txCount.toNat < 2 ^ 64 - 2 ^ 32 → p.ackOwed.length = 3 →
    ∃ t, exec (.ackInterval port cls) s = .next t ∧ (t.port port).queue = [] ∧
      t.flitsOut = s.flitsOut ++ [(port, flitBytes plain seq (p.ackNum cls) port { p with queue := [], lossyNext := if cls = 2 then p.lossyNext else cls == 0 })] ∧
      (t.port port).ackOwed.getD cls false = false ∧ (t.port port).replay = p.replay) ∧
  (∀ (s : State) (port cls : Nat) (p : Port) (plain : List Byte), s.ports[port]? = some p → ∃ p', (s.emitFlit port cls plain).ports[port]? = some p' ∧
    p'.queue = p.queue ++ [(cls, p.txSeq.getD cls 0, plain)] ∧ (cls < p.txSeq.length → p'.txSeq.getD cls 0 = (p.txSeq.getD cls 0 + 1) % 65536) ∧
    (cls ≠ 1 → cls < p.replay.length → FMap.get? (p'.replay.getD cls []) (p.txSeq.getD cls 0) = some plain) ∧
    (s.emitFlit port cls plain).flitsOut = s.flitsOut) ∧
  (∀ (p : Port) (r l m : Nat × Nat × List Byte) (q : List (Nat × Nat × List Byte)), r.1 = 0 → l.1 = 1 → m.1 = 2 → (∀ x ∈ q, x.1 ≠ 2) →
    (p.queue = q ++ [m] → p.nextFlit = some m) ∧
    (p.queue = [r, l] → routeOf r ≠ routeOf l → p.nextFlit = some (if p.lossyNext = true then l else r)) ∧
    (p.queue = [l, r] → routeOf r ≠ routeOf l → p.nextFlit = some (if p.lossyNext = true then l else r)) ∧
    (p.queue = [r, l] → routeOf r = routeOf l → p.nextFlit = some r) ∧ (p.queue = [l, r] → routeOf r = routeOf l → p.nextFlit = some l)) ∧
  (∀ (s : State) (port cause : Nat),
    let p := s.port port
    let fails := p.up = true ∧ (cause = 0 ∨ (cause = 1 ∧ 16 ≤ (p.failTimes.filter fun x => decide (s.usec < x + 1000)).length) ∨ (cause = 2 ∧ 4 ≤ p.timeouts))
    (¬fails → exec (.portFail port cause) s = .next s) ∧
    (fails → s.fabricReqs = [] → s.msgs = [] → s.flitsWait = [] → (∀ q ∈ s.ports, q.replay.getD 0 [] = [] ∧ q.replay.getD 2 [] = []) →
      let u := ({ (s.modPort port fun p => { p with up := false, failTimes := [], timeouts := 0, queue := [] }) with
        flows := s.flows.filter fun f => f.2.1 != port } : State).count 0x11 port
      ((p.spare = true ∨ ∀ j, j < 48 → j ≠ port → ¬((u.port j).up = true ∧ (u.port j).spare = true ∧ (u.port j).peer = p.peer)) →
        exec (.portFail port cause) s = .next u) ∧
      ∀ j, p.spare = false → j < 48 → j ≠ port → (u.port j).up = true → (u.port j).spare = true → (u.port j).peer = p.peer →
        (∀ i, i < j → i ≠ port → ¬((u.port i).up = true ∧ (u.port i).spare = true ∧ (u.port i).peer = p.peer)) →
        exec (.portFail port cause) s = .next (u.modPort j fun q => { q with spare := false }))) ∧
  (∀ (s : State) (port peer version : Nat) (trained admits : Bool) (share sig : List Byte),
    let p := s.port port
    let run := fun (v : State) => exec (.linkTraining port trained peer ⟨version, admits⟩ share sig) s = .next v
    let known := s.named 4 version = true ∧ admits = true
    let genuine := Config.mldsaVerify (Config.peerKey peer) share sig = true
    (s.minimal = true ∨ s.powerOff = true ∨ trained = false → run s) ∧
    (p.sealPolicy = false → (p.up = true ∨ Config.clearPort port = false) → run s) ∧
    (port < 48 → s.minimal = false → s.powerOff = false → trained = true →
      (p.up = false → p.sealPolicy = true ∨ Config.clearPort port = true →
        (¬known → run (s.count 0x11 port)) ∧
        (known → ¬genuine → run s) ∧
        (known → genuine → s.fabricReqs = [] → s.msgs = [] → s.flitsWait = [] →
          (∀ q ∈ s.ports, q.replay.getD 0 [] = [] ∧ q.replay.getD 2 [] = []) → ∃ spare, run (s.modPort port fun _ =>
            { Port.reset with up := true, peer := peer, spare := spare, sealPolicy := p.sealPolicy, key := Config.portKey port share, epoch := 1 }))) ∧
      (p.up = true → p.sealPolicy = true →
        (known ∧ genuine → s.fabricReqs = [] → s.msgs = [] → s.flitsWait = [] → (∀ q ∈ s.ports, q.replay.getD 0 [] = [] ∧ q.replay.getD 2 [] = []) →
          run (s.modPort port fun q => { q with key := Config.portKey port share, txCount := 0, rxCount := 0, epoch := q.epoch + 1 })) ∧
        (¬(known ∧ genuine) → run (s.failPort port))))) ∧
  ∀ (s : State) (die kind slot d k : Nat) (next : Nat × List Byte), otherEnd die kind slot = some (d, k) →
    let me := s.endKeys die kind slot
    let far := s.endKeys d kind k
    let next? := fun (x : KeySlot) => exec (.keyEpochSwitch die kind slot) s = .next (s.setEnd die kind slot x)
    let sends := (far.sending = true ∧ ∃ b, far.nxt = some (next.1, b)) ∨ (far.sending = false ∧ ∃ b, far.cur = some (next.1, b))
    let has := ∃ b, far.nxt = some (next.1, b) ∨ far.cur = some (next.1, b)
    me.nxt = some next →
      (¬has → next? me) ∧ (has → ¬sends → next? { me with sending := true }) ∧ (sends → next? ⟨some next, none, false⟩)

/-- R282 to R284, R286, R306, R404: a dirty sector that leaves a cache is written to the next level, a pinned line stays; the host's
accesses act at the home, and a copy there shows what the host wrote; a snoop writes a dirty home copy back, and drops it or takes what the host
wrote; a row that reached its threshold is throttled, counted once, and freed by its refresh, from which it is counted anew; while it is throttled an
interval permits one activation, which goes to the requests of its side queue in their order; a request that waits enters it once and is counted as
delayed. Which accesses activate a row, and that some are not delayed, are the model's choices (log 94, log 110). -/
def Obligations.CachesAndRows : Prop :=
  (∀ (s : State) (core sector : Nat) (c : Sector), FMap.get? (s.core core).l1 sector = some c →
    let u := s.modCore core fun x => { x with l1 := FMap.erase x.l1 sector }
    (c.dirty = false → exec (.eviction (.l1 core) sector) s = .next u) ∧
    (c.dirty = true → exec (.eviction (.l1 core) sector) s = .next (u.l1Out core sector c.data))) ∧
  (∀ (s : State) (die sector : Nat) (c : Sector), FMap.get? (s.die die).l2 sector = some c →
    (s.pinned die (secAddr sector) = true → exec (.eviction (.l2 die) sector) s = .next s) ∧
    (s.pinned die (secAddr sector) = false → s.home? (secAddr sector) = some die → ∃ t, exec (.eviction (.l2 die) sector) s = .next t ∧
      FMap.get? (t.die die).l2 sector = none ∧ (∀ k, k ≠ sector → FMap.get? (t.die die).l2 k = FMap.get? (s.die die).l2 k) ∧
      (c.dirty = false → t.mem = s.mem ∧ t.hostMem = s.hostMem) ∧
      (∀ d, c.dirty = true → s.backing (secAddr sector) = .dev d → t.mem = Memory.write s.mem (secAddr sector) c.data ∧ t.hostMem = s.hostMem) ∧
      ∀ d h, c.dirty = true → s.backing (secAddr sector) = .host d h → t.hostMem = Memory.write s.hostMem h c.data ∧ t.mem = s.mem)) ∧
  (∀ (s : State) (link pa : Nat) (data : List Byte), s.minimal = false → s.powerOff = false → link < 2 →
    (∀ d, s.backing pa = .dev d →
      exec (.hostCxlAccess true ⟨link, pa⟩ data) s = .next (s.homeWrite pa (s.kept pa data)) ∧
      (s.kept pa data).length = data.length ∧ (∀ i, i < data.length → s.inTables (pa + i) = false → (s.kept pa data)[i]? = data[i]?) ∧
      (∀ i, i < data.length → s.inTables (pa + i) = true → (s.kept pa data)[i]? = some (s.homeByte (pa + i))) ∧
      ∃ l, exec (.hostCxlAccess false ⟨link, pa⟩ data) s = .next { s with hostCopies := l } ∧ ∀ x, x ∈ l ↔ x ∈ s.hostCopies ∨ x = pa / 192) ∧
    (∀ d h, s.backing pa = .host d h → exec (.hostCxlAccess false ⟨link, pa⟩ data) s = .next s ∧
      ∀ b, ∃ t, exec (.hostCxlAccess true ⟨link, pa⟩ [b]) s = .next t ∧ t = (s.cleanHome (pa / 48)).homeWriteIn pa (s.kept pa [b]) ∧
        ∀ c, FMap.get? (s.die d).l2 (pa / 48) = some c → s.home? (secAddr (pa / 48)) = some d → ∃ x, FMap.get? (t.die d).l2 (pa / 48) = some x ∧
          x.data = splice c.data (pa % 48) (s.kept pa [b]) ∧ x.dirty = false)) ∧
  (∀ (s : State) (die sector : Nat) (c : Sector) (bs : List Byte), s.minimal = false → s.powerOff = false → s.hostKey sector = true →
    s.home? (secAddr sector) = some die → FMap.get? (s.die die).l2 sector = some c → bs.length = 48 →
    (∀ d h, s.backing (secAddr sector) = .host d h →
      let new := s.kept (secAddr sector) bs
      let v := (s.cleanHome sector).putL2 die sector new false
      exec (.cxlCacheSnoop die sector (some bs)) s = .next { v with hostMem := Memory.write v.hostMem h new }) ∧
    exec (.cxlCacheSnoop die sector none) s = .next ((s.cleanHome sector).modDie die fun d => { d with l2 := FMap.erase d.l2 sector })) ∧
  ∀ (s : State) (stack row : Nat),
    let hot := ∃ h, (stack, h) ∈ s.hotRows ∧ h.row = row
    let only := fun (q : List ReqKind) (p : Bool) (turn : Option ReqKind) => [(stack, HotRow.mk row q p turn)]
    (stack < 24 → ¬hot → s.rowFull stack row = true →
      exec (.hotRowThrottle stack row) s = .next (({ s with hotRows := s.hotRows ++ only [] false none }).count 0x10 stack)) ∧
    (hot ∨ s.rowFull stack row = false → exec (.hotRowThrottle stack row) s = .next s) ∧
    (¬hot → exec (.targetedRefresh stack row) s = .next s) ∧
    (∀ p, s.hotRows = only [] p none → exec (.targetedRefresh stack row) s =
      .next { s with hotRows := [], rowActs := FMap.erase s.rowActs (stack * 2 ^ 24 + row) }) ∧
    (∀ w, FMap.get? s.rowActs (stack * 2 ^ 24 + row) = some w → s.usec < w.start + 32000 → w.hrt ≤ w.count → s.rowFull stack row = true) ∧
    (¬hot → exec (.throttleInterval stack row) s = .next s) ∧
    (∀ p, s.hotRows = only [] p none → exec (.throttleInterval stack row) s = .next { s with hotRows := only [] true none }) ∧
    (∀ p v w, s.hotRows = only [.fetch v 0 0, .fetch w 0 0] p none → v ≠ w → (s.wave? v).isSome = true → (s.wave? w).isSome = true →
      exec (.throttleInterval stack row) s = .next { s with hotRows := only [.fetch w 0 0] true (some (.fetch v 0 0)) }) ∧
    ∀ q p turn a r, s.hotRows = only q p turn → s.pamtFor a = some r → r.host = false → pamtRow r a = (stack, row) →
      s.activate a = ({ s with hotRows := only q false none }).countRow stack row ∧
      (∀ who, (s.rowShut who a = false ↔ p = true ∧ (turn = some who ∨ turn = none ∧ q = [])) ∧
        (turn ≠ some who → who ∉ q → s.joinRow who a = ({ s with hotRows := only (q ++ [who]) p turn }).count 0x12 stack) ∧
        (turn = some who ∨ who ∈ q → s.joinRow who a = s)) ∧
      ∀ id L o c z na d m dv, FMap.get? s.ops id = some o → o.instr = .ldg c z na d m → s.backing a = .dev dv → s.missesHome a = true →
        s.coreHas o.core (a / 48) = false → s.rowShut (.op id (LaneMask.single L)) a = true →
        s.globalLane id L a = s.joinRow (.op id (LaneMask.single L)) a

/-! ### Starts, margins, clocks -/

/-- R239, R399, R412, R416, R429 to R431, R434 to R436: a start counts, clears the running machine and keeps the non-volatile record; it deals each
memory interface's key, to the base die as its next key and to the die wrapped, with epoch 1, and the firmware's wave of each die stands at its entry
(the model's choices: entry and registers, log 101; that a warm start too leaves no context, wave, queue or session, and that the manifest stays,
log 81; what a CXL link trains to is free, log 98); it succeeds within 30 s with admitted images and good certificates; a failed one is recorded for
a reason that holds, every unit that failed is remembered, and a unit keeps its slot where the other may not start; the third in a row leads to
minimal mode, which clears the count; a start after a loss of power is an ordinary one. -/
def Obligations.Starts : Prop :=
  (∀ (s : State) (cold : Bool), ∃ t, exec (.start cold) s = .next t ∧ t.bootCount = (s.bootCount + 1) % 2 ^ 32 ∧
    t.waves.length = 24 ∧ t.wgs = [] ∧ t.ops = [] ∧ t.cmds = [] ∧ t.msgs = [] ∧ t.ctxs = [] ∧ t.nodes = [] ∧ t.frames = [] ∧ t.sessions = [] ∧
    t.activation = none ∧ t.lossdrop = 0 ∧ t.floors = s.floors ∧ t.manifest = s.manifest ∧ t.bootRecord = s.bootRecord ∧ t.hostMem = s.hostMem ∧
    t.telem = (if cold = true ∨ s.powerOff = true then [] else s.telem) ∧ (∀ c, (t.core c).gendrop = if cold = true ∨ s.powerOff = true then 0 else (s.core c).gendrop) ∧
    t.powerOff = false ∧ t.cxlLinks.length = 2 ∧ (∀ m ∈ t.cxlLinks, m = (0, 0) ∨ (m.1 = 64 ∨ m.1 = 32 ∨ m.1 = 16) ∧ (m.2 = 16 ∨ m.2 = 8)) ∧
    (∀ d, d < 24 → t.wave? (firmwareKey d) = some (firmwareWave s.tick (Config.firmwareEntry d)) ∧ (t.die d).fwHeld = false ∧
      (t.die d).mbxWaits = true ∧ (t.die d).evPend.getLsbD 4 = true ∧ ∃ key, FMap.get? t.baseKeys d = some ⟨none, some (1, key), false⟩ ∧
        FMap.get? t.keyWraps (d * 128 + 64) = some (fitBytes 40 (Config.keyWrap d key) ++ leBytes 8 1 ++ List.replicate 16 0)) ∧
    (3 ≤ s.fails → s.powerOff = false → t.minimal = true ∧ t.cxlLinks[1]? = some (0, 0) ∧ t.fails = 0 ∧ t.boot = .ready ∧ (∀ k, k < 24 → (t.die k).margin = (0, 0, 1000)) ∧
      ∀ kind idx, idx < unitCount kind → (t.unit kind idx).rom = true) ∧
    (s.fails < 3 ∨ s.powerOff = true → t.minimal = false ∧ t.fails = s.fails ∧ t.boot = .starting ∧ t.startDue = s.usec + 30 * 10 ^ 6 ∧
      t.replanDue = s.usec + 720 * 3600 * 10 ^ 6 ∧
      (∀ k, k < 24 → 1000 ≤ (t.die k).margin.2.2 ∧ (t.die k).margin.2.2 ≤ 1750 ∧ (t.die k).margin.2.2 % 25 = 0) ∧
      ∀ kind idx, idx < unitCount kind →
        let u := s.unit kind idx
        let v := t.unit kind idx
        v.failed = false ∧ v.next = none ∧ v.slotA = u.slotA ∧ v.slotB = u.slotB ∧ v.rom = !(s.startable kind (v.slot v.activeB)) ∧
        (∀ b, u.next = some b → v.activeB = b) ∧
        (u.next = none → u.failed = false → v.activeB = u.activeB) ∧
        (u.next = none → u.failed = true → s.startable kind (u.slot (!u.activeB)) = false → v.activeB = u.activeB))) ∧
  (∀ (s : State),
    let ok := s.boot = .starting ∧ s.usec ≤ s.startDue ∧ s.admitted s.mixture true = true ∧ ∀ k, k < 52 → Config.certOk k = true
    (ok → exec .startSucceeds s = .next { s with boot := .ready, fails := 0 }) ∧ (¬ok → exec .startSucceeds s = .next s)) ∧
  ∀ (s : State) (reason kind idx : Nat) (more : List (Nat × Nat)),
    (s.boot ≠ .starting ∨ reason = 0 ∨ 7 < reason ∨ reason = 2 ∧ s.usec ≤ s.startDue ∨
      reason = 1 ∧ ((s.unit kind idx).slotA.ok = true ∨ (s.unit kind idx).slotB.ok = true) → exec (.startFail reason kind ⟨idx, more⟩) s = .next s) ∧
    (s.boot = .starting → 1 ≤ reason → reason ≤ 7 → idx < unitCount kind → s.bootCount < 2 ^ 32 → s.version kind idx < 2 ^ 32 →
      (reason = 1 → (s.unit kind idx).slotA.ok = false ∧ (s.unit kind idx).slotB.ok = false) → (reason = 2 → s.startDue < s.usec) →
      (reason = 3 → ∃ k, k < 52 ∧ Config.certOk k = false) → (reason = 4 → s.admitted s.mixture true = false) →
      (reason = 6 → s.cxlLinks.getD 0 (0, 0) = (0, 0)) →
      ∃ t, exec (.startFail reason kind ⟨idx, more⟩) s = .next t ∧ t.boot = .off ∧ t.fails = min 3 (s.fails + 1) ∧ (t.unit kind idx).failed = true ∧
        (∀ x ∈ more, x.2 < unitCount x.1 → (t.unit x.1 x.2).failed = true) ∧
        (t.bootRecord.extractLsb' 480 32).toNat = s.bootCount ∧ (t.bootRecord.extractLsb' 472 8).toNat = reason ∧
        (t.bootRecord.extractLsb' 464 8).toNat = kind ∧ (t.bootRecord.extractLsb' 456 8).toNat = idx ∧
        t.bootRecord.getLsbD 455 = (s.unit kind idx).activeB ∧ (t.bootRecord.extractLsb' 416 32).toNat = s.version kind idx ∧
        (t.bootRecord.extractLsb' 408 8).toNat = min 3 (s.fails + 1))

/-- R25, R431, R433 to R436: droop lengthens a die's period once and is counted; throttling and the power share mark the die; a chiplet
at its limit loses power, with reason 7 and no failure counted (that device memory is then as never written is the model's choice, logs 81 and 1);
a re-plan waits for its time, minimal mode, power and a switched controller; its steps are at least 1 ms apart and raise an offset by at most 5 mV,
and a cap falls by 25 MHz, not below 1.0 GHz, where the offset stands at the die's limit. -/
def Obligations.ClocksAndPower : Prop :=
  (∀ (s : State) (die : Nat), die < 24 →
    exec (.thermalThrottle die) s = .next (s.modDie die fun d => { d with throttled := true }) ∧
    exec (.thermalThrottleEnd die) s = .next (s.modDie die fun d => { d with throttled := false }) ∧
    exec (.powerShareReached die) s = .next (s.modDie die fun d => { d with shareLow := true }) ∧
    ((s.die die).stretched = false →
      exec (.droopDetect die) s = .next ((s.modDie die fun d => { d with stretched := true }).count 0x13 die)) ∧
    ((s.die die).stretched = true → exec (.droopDetect die) s = .next s) ∧
    exec (.droopRecover die) s = .next (s.modDie die fun d => { d with stretched := false })) ∧
  (∀ (s : State) (chiplet : Nat),
    (s.powerOff = true → exec (.thermalShutdown chiplet) s = .next s) ∧
    (s.powerOff = false → chiplet < 52 → s.bootCount < 2 ^ 32 → ∃ t, exec (.thermalShutdown chiplet) s = .next t ∧ t.powerOff = true ∧ t.waves = [] ∧
      t.mem = [] ∧ t.fails = s.fails ∧ (t.bootRecord.extractLsb' 480 32).toNat = s.bootCount ∧ (t.bootRecord.extractLsb' 472 8).toNat = 7 ∧
      (t.bootRecord.extractLsb' 464 8).toNat ≤ 5 ∧ (t.bootRecord.extractLsb' 408 8).toNat = 0)) ∧
  ∀ (s : State) (plan : List (Nat × Nat × Nat)) (last : Bool),
    let early := (s.replanStep = none ∧ s.usec < s.replanDue) ∨ ∃ u, s.replanStep = some u ∧ s.usec < u + 1000
    let stepOf := fun (die : Nat) (old new : Nat × Nat × Nat) => old.2.1 ≤ new.2.1 ∧ new.2.1 ≤ old.2.1 + 5 ∧ (new.2.1 = old.2.1 ∨ new.2.1 ≤ Config.offsetLimit die) ∧
      (new.2.2 = old.2.2 ∨ new.2.2 + 25 = old.2.2 ∧ 1000 ≤ new.2.2 ∧ Config.offsetLimit die ≤ old.2.1)
    (s.minimal = true ∨ s.powerOff = true ∨ s.mbHeld = true ∨ early ∨ plan.length ≠ 24 ∨
      (∃ k, k < 24 ∧ ¬stepOf k (s.die k).margin (List.getD plan k (0, 0, 0))) → exec (.marginReplan ⟨plan, last⟩) s = .next s) ∧
    (s.minimal = false → s.powerOff = false → s.mbHeld = false → ¬early → plan.length = 24 →
      (∀ k, k < 24 → stepOf k (s.die k).margin (List.getD plan k (0, 0, 0))) → ∃ t, exec (.marginReplan ⟨plan, last⟩) s = .next t ∧
        (last = true → t.replanDue = s.usec + 720 * 3600 * 10 ^ 6 ∧ t.replanStep = none) ∧
        (last = false → t.replanDue = s.replanDue ∧ t.replanStep = some s.usec) ∧
        (∀ k, k < 24 → (t.die k).margin = List.getD plan k (0, 0, 0)) ∧
        t = { s with dies := t.dies, replanDue := t.replanDue, replanStep := t.replanStep })

/-! ### Clause starts, spawning, reset, the step -/

/-- R28, R33, R36, R41, R101, R119: a wave takes the run of the lowest PC while no eligible thread was passed over sixteen times, else the run of
the thread passed over most; a clause that crosses a line, names one set twice or has a slot that breaks a check traps; one whose `WAIT` flags are
busy leaves the active set; else the clause starts for its run. SPAWN completes its issue; a misaligned command traps. That all 64 bits of the
address are checked for a multiple of 192 is the model's choice (log 112). -/
def Obligations.ClauseStarts : Prop :=
  (∀ (w : Wave) (pc : Nat) (run : LaneMask), w.chooseRun = some (pc, run) →
    (∀ L, L < 32 → (run.getLsbD L = true ↔ ∃ e : PcEntry, w.pct[L]? = some e ∧ e.x = false ∧ e.blk = false ∧ e.cla.toNat * 16 + e.slot = pc)) ∧
    ((∀ (L : Nat) (e : PcEntry), w.pct[L]? = some e → e.x = false → e.blk = false → e.skip < 16) →
      ∀ (L : Nat) (e : PcEntry), L < 32 → w.pct[L]? = some e → e.x = false → e.blk = false → pc ≤ e.cla.toNat * 16 + e.slot) ∧
    ∀ (K : Nat) (f : PcEntry), K < 32 → w.pct[K]? = some f → f.x = false → f.blk = false → 16 ≤ f.skip →
      ∃ (J : Nat) (g : PcEntry), run.getLsbD J = true ∧ w.pct[J]? = some g ∧
        ∀ (L : Nat) (e : PcEntry), L < 32 → w.pct[L]? = some e → e.x = false → e.blk = false →
          e.skip ≤ g.skip ∧ (e.skip = g.skip → pc ≤ e.cla.toNat * 16 + e.slot)) ∧
  (∀ (n : BitVec 4) (pipes : BitVec 3) (wait : BitVec 12) (setA setB : BitVec 4) (s : State) (w0 w : Wave) (cla : BitVec 52) (run : LaneMask)
    (line : List Byte) (t : State), s.wave? s.cur = some w0 → w0.clause = none → s.beginClause s.cur = .yes w cla run line t →
    let o := cla.toNat * 16 % 192
    let k := n.toNat + 1
    let words := (List.range k).map fun j => lineWord line (o + 10 * (j + 1))
    let slots := checkSlots (checkEnv t s.cur w k pipes setA.toNat setB.toNat) 0 words
    let traps := fun (cls detail : Nat) =>
      exec (.hdr n pipes wait setA setB) s = .next (t.takeTrap s.cur true cls detail (lineWord line o) run cla 0)
    (192 < o + 10 * (k + 1) → traps 1 0) ∧
    (o + 10 * (k + 1) ≤ 192 → setA = setB → setA ≠ 15 → traps 2 (5 * 256)) ∧
    (o + 10 * (k + 1) ≤ 192 → setA ≠ setB ∨ setA = 15 →
      (∀ e, slots = some e → traps e.cls e.detail) ∧
      (slots = none → (∃ f, f < 12 ∧ wait.getLsbD f = true ∧ w.busy f = true) →
        exec (.hdr n pipes wait setA setB) s = .next (t.leaveActive s.cur)) ∧
      (slots = none → (∀ f, f < 12 → wait.getLsbD f = true → w.busy f = false) →
        ∃ u : Wave, exec (.hdr n pipes wait setA setB) s = .next (t.setWave s.cur u) ∧
          u.clause = some { cla := cla, n := k, setA := setA.toNat, setB := setB.toNat, slot := 0, run := run, words := words, log := [], fp := [] } ∧
          u.regs = (w.acceptMask wait).regs ∧ u.holds = (w.acceptMask wait).holds ∧ u.flags = w.flags ∧
          ∀ (L : Nat) (e : PcEntry), L < 32 → w.pct[L]? = some e → u.pct[L]? =
            some (if e.x = false ∧ e.blk = false then { e with skip := if run.getLsbD L = true then 0 else min 63 (e.skip + 1) } else e)))) ∧
  ∀ (c : Ctl) (d a b : Reg),
    let check := fun (_ : State) (x : Issue) => if x.ud a % 192 ≠ 0 then some (4, x.ud a) else none
    Later (.spawn c d a b) c (dstGroup d 1)
      (fun _ x => [Row.splat (x.v a x.low), Row.splat (x.v (nextReg a 1) x.low), Row.splat (x.v b x.low)]) check ∧
    Traps (.spawn c d a b) c (dstGroup d 1) check

/-- R8, R22, R242, R332, R397, R404, R407, R4: what reset leaves where the spec gives a value: no wave, command or message, every system
register of every core at its reset value, the mailboxes idle, the import table invalid, the thresholds at 4096, the test-drop control
clear; and two that are the model's own: memory is in canonical form (log 1), and the boot count is 0 (log 3). -/
def Obligations.ResetState : Prop :=
  let s := State.reset
  s.waves = [] ∧ s.ops = [] ∧ s.cmds = [] ∧ s.msgs = [] ∧ s.lossdrop = 0 ∧ s.bootCount = 0 ∧
  (∀ w, FMap.get? s.imports w = none) ∧ (∀ k, k < 24 → List.getD s.hrt k 0 = 4096) ∧
  (∀ core, s.sysReg core 0x0000 = 0 ∧ s.sysReg core 0x0001 = 0 ∧ s.sysReg core 0x0002 = 0 ∧ s.sysReg core 0x0111 = 0 ∧
    s.sysReg core 0x0114 = 0 ∧ s.sysReg core 0x0122 = 0 ∧ s.sysReg core 0x0123 = 0 ∧ s.sysReg core 0x0130 = 0 ∧ s.sysReg core 0x0131 = 0 ∧
    s.sysReg core 0x0132 = 2 ^ 64 - 1 ∧ (s.core core).merr.v = false ∧ (s.core core).merr.cnt = 0) ∧
  (∀ f, (s.fn f).mbCmd = 0 ∧ (s.fn f).mbSts = 0 ∧ (s.fn f).mbVec = 0 ∧ (s.fn f).taken = none) ∧ s.memCanonical

/-- R29, R34, R36, R245 and the model's tape (log 2): a step runs what the tape names next. A wave's turn is void while an active wave of its
quarter that has issued less recently can issue; else the issue of a running, active wave within a clause, which does not wait in IDLE, is exec of
the instruction that its slot's word decodes to; at a clause start it is exec of the header fetched there, and a word that is no header traps; an
event is exec of that event. Then time passes on every die, and nothing else changes. -/
def Obligations.StepRuns : Prop :=
  (∀ (s : State) (i : Instr) (l : List Turn), s.agenda = .event i :: l → isEvent i = true →
    step s = afterTime (exec i { s with agenda := l })) ∧
  (∀ (s : State) (k : Nat) (l : List Turn) (w : Wave), s.agenda = .issue k :: l → s.wave? k = some w →
    let u0 : State := { s with agenda := l }
    let older := fun (p : Nat × Wave) => p ∈ u0.quarterWaves k ∧ p.1 ≠ k ∧ p.2.active = true ∧ p.2.lastIssue < w.lastIssue ∧ u0.canIssue p.1 = true
    ((∃ p, older p) → step s = afterTime (.next u0)) ∧
    ((∀ p, ¬older p) →
      (∀ (w1 : Wave) (cl : Clause) (i : Instr), w.clause = some cl → w.stop = .running → u0.idling k = false →
        let u := u0.fillActive k
        u.wave? k = some w1 → w1.active = true → decode (List.getD cl.words cl.slot 0) = .ok i → isEvent i = false →
        step s = afterTime (exec i { u with cur := k })) ∧
      (u0.idling k = true → w.clause.isSome = true ∨ w.haltReq = false → step s = afterTime (.next u0)) ∧
      ∀ (w1 : Wave) (cla : BitVec 52) (run : LaneMask) (line : List Byte) (t : State), w.clause = none →
        let word := lineWord line (cla.toNat * 16 % 192)
        u0.beginClause k = .yes w1 cla run line t →
        (∀ n p f a b, decode word = .ok (.hdr n p f a b) → step s = afterTime (exec (.hdr n p f a b) { u0 with cur := k })) ∧
        ((∀ n p f a b, decode word ≠ .ok (.hdr n p f a b)) → step s = afterTime (.next (t.takeTrap k true 1 0 word run cla 0))))) ∧
  (∀ t : State, ∃ u : State, afterTime (.next t) = .next u ∧ u = { t with tick := u.tick, usec := u.usec, dies := u.dies, telem := u.telem } ∧
    u.tick = t.tick + 1 ∧ t.usec ≤ u.usec ∧
    ∀ d, d < 24 → ∃ n, 1 ≤ n ∧ u.die d = { t.die d with cycle := (t.die d).cycle + BitVec.ofNat 64 n } ∧
      ((t.die d).stretched = true → FMap.getD u.telem (0x14 * 4096 + d) 0 = min (2 ^ 64 - 1) (FMap.getD t.telem (0x14 * 4096 + d) 0 + n))) ∧
  (∀ f, afterTime (.fault f) = .fault f) ∧ ∀ r, afterTime (.refused r) = .refused r

/-! ### Words -/

/-- R73, R75, R81, R86: words written out from their fields, as the spec prints them, decode to the instructions they stand for; a
reserved opcode, a bad header and a non-zero unused field are rejected by name. -/
def Obligations.DecodeWords : Prop :=
  let c := fun (pd : BitVec 3) (al : BitVec 2) (pr : Reg) => Ctl.mk pd al 15 pr 0 false
  decode 0x00040003E00000000000 = .ok (.hdr 0 2 0 1 15) ∧
  decode 0x02049E0001FFF8120000 = .ok (.bra (c 1 0 9) .likely 0xFFFC) ∧
  decode 0x14003E40000001FE0000 = .ok (.claim (c 0 1 255) 32) ∧
  decode 0x20901E06000003FE0000 = .ok (.iadd (c 0 0 255) .s32 3 0 (.imm 1)) ∧
  decode 0x42481E10000E01FE0000 = .ok (.lea (c 0 0 255) false true 2 8 0 (.reg 7)) ∧
  decode 0x4B841E08027E01FE0002 = .ok (.ffma (c 0 0 255) .rz 4 1 (.imm 0x3F00) 2) ∧
  decode 0x88803E0605FE01FE0004 = .ok (.ldg (c 0 1 255) .b32 false 3 ⟨2, 255, 4⟩) ∧
  decode 0xA5483E30205029FE0000 = .ok (.mman (c 0 1 255) 2 2 0 0 0 16 40 20 24) ∧
  decode 0xB4001E0028302DFE0000 = .ok (.cpyt (c 0 0 255) false 20 24 22 0) ∧
  decode 0xE0803E08000221FE0000 = .ok (.mfsr (c 0 1 255) false 4 0x0110) ∧
  decode 0xC0000000000000000000 = .error .reservedOpcode ∧
  decode 0x00040003E00000000001 = .error .badHeader ∧
  decode 0x01001E02000001FE0000 = .error .unusedNonzero

/-- R73 to R87: decoding the word of a well-formed instruction gives it back, for every operand that its encoding admits. -/
def Obligations.EncodeThenDecode : Prop := ∀ (i : Instr) (w : BitVec 80), i.wf = true → encode? i = some w → decode w = .ok i

/-- R73 to R87: every word that decodes is the word of the instruction it decodes to, which is well-formed: each instruction has one
encoding. -/
def Obligations.DecodeThenEncode : Prop := ∀ (w : BitVec 80) (i : Instr), decode w = .ok i → i.wf = true ∧ encode? i = some w

/-! ### What every step keeps -/

/-- R4: a step that goes on keeps device memory and host memory in canonical form, the form of memory of this model (log 1). -/
def Obligations.MemoryCanonicalKept : Prop := ∀ s t : State, s.memCanonical → step s = .next t → t.memCanonical

/-- R424: no step lowers a security floor: only FLOOR writes them, and it only raises them. -/
def Obligations.FloorsNeverFall : Prop := ∀ s t : State, step s = .next t → FloorsRise s t
end

