-- ==== Sys2Proof/Laws/Dispatch.lean ====
section
/-! SUPPORT. Each arm of exec as an equation, so that no later proof unfolds the whole match. -/

namespace Sys2Proof.Machine

theorem exec_hdr (n : BitVec 4) (pipes : BitVec 3) (wait : BitVec 12) (setA setB : BitVec 4) (s : State) : exec (.hdr n pipes wait setA setB) s = execHdr n pipes wait setA setB s := rfl
theorem exec_nop (c : Ctl) (s : State) : exec (.nop c) s = execNop c s := rfl
theorem exec_bra (c : Ctl) (hint : Hint) (off : BitVec 16) (s : State) : exec (.bra c hint off) s = execBra c hint off s := rfl
theorem exec_jmp (c : CtlL) (off : BitVec 32) (s : State) : exec (.jmp c off) s = execJmp c off s := rfl
theorem exec_jmpi (c : Ctl) (a : Reg) (s : State) : exec (.jmpi c a) s = execJmpi c a s := rfl
theorem exec_call (c : CtlL) (d : Reg) (off : BitVec 32) (s : State) : exec (.call c d off) s = execCall c d off s := rfl
theorem exec_calli (c : Ctl) (d a : Reg) (s : State) : exec (.calli c d a) s = execCalli c d a s := rfl
theorem exec_ret (c : Ctl) (a : Reg) (s : State) : exec (.ret c a) s = execRet c a s := rfl
theorem exec_exit (c : Ctl) (s : State) : exec (.exit c) s = execExit c s := rfl
theorem exec_waitf (c : Ctl) (mask : BitVec 12) (s : State) : exec (.waitf c mask) s = execWaitf c mask s := rfl
theorem exec_yieldI (c : Ctl) (s : State) : exec (.yieldI c) s = execYieldI c s := rfl
theorem exec_bar (c : Ctl) (sel : BarSel) (s : State) : exec (.bar c sel) s = execBar c sel s := rfl
theorem exec_bara (c : Ctl) (sel : BarSel) (s : State) : exec (.bara c sel) s = execBara c sel s := rfl
theorem exec_barw (c : Ctl) (sel : BarSel) (s : State) : exec (.barw c sel) s = execBarw c sel s := rfl
theorem exec_swait (c : Ctl) (cmp : SwCmp) (dbl : Bool) (d : Reg) (m : MemRef) (s : State) : exec (.swait c cmp dbl d m) s = execSwait c cmp dbl d m s := rfl
theorem exec_swake (c : Ctl) (m : MemRef) (s : State) : exec (.swake c m) s = execSwake c m s := rfl
theorem exec_cvset (c : Ctl) (cv : BitVec 4) (a : Reg) (s : State) : exec (.cvset c cv a) s = execCvset c cv a s := rfl
theorem exec_cvsign (c : Ctl) (cv : BitVec 4) (s : State) : exec (.cvsign c cv) s = execCvsign c cv s := rfl
theorem exec_getid (c : Ctl) (w : Bool) (d : Reg) (s : SrcSel) (t : State) : exec (.getid c w d s) t = execGetid c w d s t := rfl
theorem exec_getenv (c : Ctl) (w : Bool) (d : Reg) (s : SrcSel) (t : State) : exec (.getenv c w d s) t = execGetenv c w d s t := rfl
theorem exec_claim (c : Ctl) (d : Reg) (s : State) : exec (.claim c d) s = execClaim c d s := rfl
theorem exec_tret (c : Ctl) (abn : Bool) (a : Reg) (s : State) : exec (.tret c abn a) s = execTret c abn a s := rfl
theorem exec_schrd (c : Ctl) (sh : Bool) (d : Reg) (n : BitVec 4) (s : State) : exec (.schrd c sh d n) s = execSchrd c sh d n s := rfl
theorem exec_schwr (c : Ctl) (n : BitVec 4) (a : Reg) (s : State) : exec (.schwr c n a) s = execSchwr c n a s := rfl
theorem exec_schcm (c : Ctl) (d : Reg) (s : State) : exec (.schcm c d) s = execSchcm c d s := rfl
theorem exec_spawn (c : Ctl) (d a b : Reg) (s : State) : exec (.spawn c d a b) s = execSpawn c d a b s := rfl
theorem exec_brk (c : Ctl) (imm : BitVec 16) (s : State) : exec (.brk c imm) s = execBrk c imm s := rfl
theorem exec_trap (c : Ctl) (imm : BitVec 16) (s : State) : exec (.trap c imm) s = execTrap c imm s := rfl
theorem exec_errrd (c : Ctl) (d : Reg) (s : SrcSel) (t : State) : exec (.errrd c d s) t = execErrrd c d s t := rfl
theorem exec_iadd (c : Ctl) (t : ITy) (d a : Reg) (b : SrcB) (s : State) : exec (.iadd c t d a b) s = execIadd c t d a b s := rfl
theorem exec_isub (c : Ctl) (t : ITy) (d a : Reg) (b : SrcB) (s : State) : exec (.isub c t d a b) s = execIsub c t d a b s := rfl
theorem exec_isum (c : Ctl) (t : ITy) (d a : Reg) (b : SrcB) (r : Reg) (s : State) : exec (.isum c t d a b r) s = execIsum c t d a b r s := rfl
theorem exec_iadds (c : Ctl) (sub : Bool) (t : ITy) (d a : Reg) (b : SrcB) (s : State) : exec (.iadds c sub t d a b) s = execIadds c sub t d a b s := rfl
theorem exec_imul (c : Ctl) (t : ITy) (d a : Reg) (b : SrcB) (s : State) : exec (.imul c t d a b) s = execImul c t d a b s := rfl
theorem exec_imulh (c : Ctl) (t : ITy) (d a : Reg) (b : SrcB) (s : State) : exec (.imulh c t d a b) s = execImulh c t d a b s := rfl
theorem exec_imad (c : Ctl) (t : ITy) (d a : Reg) (b : SrcB) (r : Reg) (s : State) : exec (.imad c t d a b r) s = execImad c t d a b r s := rfl
theorem exec_imadw (c : Ctl) (t : ITy) (d a : Reg) (b : SrcB) (r : Reg) (s : State) : exec (.imadw c t d a b r) s = execImadw c t d a b r s := rfl
theorem exec_iadd64 (c : Ctl) (x : Ext64) (d a : Reg) (b : SrcB) (s : State) : exec (.iadd64 c x d a b) s = execIadd64 c x d a b s := rfl
theorem exec_isub64 (c : Ctl) (x : Ext64) (d a : Reg) (b : SrcB) (s : State) : exec (.isub64 c x d a b) s = execIsub64 c x d a b s := rfl
theorem exec_imin (c : Ctl) (t : ITy) (d a : Reg) (b : SrcB) (s : State) : exec (.imin c t d a b) s = execImin c t d a b s := rfl
theorem exec_imax (c : Ctl) (t : ITy) (d a : Reg) (b : SrcB) (s : State) : exec (.imax c t d a b) s = execImax c t d a b s := rfl
theorem exec_iabs (c : Ctl) (sat : Bool) (t : ITy) (d a : Reg) (s : State) : exec (.iabs c sat t d a) s = execIabs c sat t d a s := rfl
theorem exec_ineg (c : Ctl) (sat : Bool) (t : ITy) (d a : Reg) (s : State) : exec (.ineg c sat t d a) s = execIneg c sat t d a s := rfl
theorem exec_idiv (c : Ctl) (t : ITy) (d a : Reg) (b : SrcB) (s : State) : exec (.idiv c t d a b) s = execIdiv c t d a b s := rfl
theorem exec_irem (c : Ctl) (t : ITy) (d a : Reg) (b : SrcB) (s : State) : exec (.irem c t d a b) s = execIrem c t d a b s := rfl
theorem exec_and (c : Ctl) (d a : Reg) (b : SrcB) (s : State) : exec (.and c d a b) s = execAnd c d a b s := rfl
theorem exec_or (c : Ctl) (d a : Reg) (b : SrcB) (s : State) : exec (.or c d a b) s = execOr c d a b s := rfl
theorem exec_xor (c : Ctl) (d a : Reg) (b : SrcB) (s : State) : exec (.xor c d a b) s = execXor c d a b s := rfl
theorem exec_andn (c : Ctl) (d a : Reg) (b : SrcB) (s : State) : exec (.andn c d a b) s = execAndn c d a b s := rfl
theorem exec_blut (c : Ctl) (lut : BitVec 8) (d a b r : Reg) (s : State) : exec (.blut c lut d a b r) s = execBlut c lut d a b r s := rfl
theorem exec_shl (c : Ctl) (d a : Reg) (b : SrcB) (s : State) : exec (.shl c d a b) s = execShl c d a b s := rfl
theorem exec_shr (c : Ctl) (d a : Reg) (b : SrcB) (s : State) : exec (.shr c d a b) s = execShr c d a b s := rfl
theorem exec_sar (c : Ctl) (d a : Reg) (b : SrcB) (s : State) : exec (.sar c d a b) s = execSar c d a b s := rfl
theorem exec_rot (c : Ctl) (right : Bool) (d a : Reg) (b : SrcB) (s : State) : exec (.rot c right d a b) s = execRot c right d a b s := rfl
theorem exec_fshf (c : Ctl) (left : Bool) (d a : Reg) (b : SrcB) (r : Reg) (s : State) : exec (.fshf c left d a b r) s = execFshf c left d a b r s := rfl
theorem exec_bfx (c : Ctl) (signed : Bool) (d a : Reg) (b : SrcB) (s : State) : exec (.bfx c signed d a b) s = execBfx c signed d a b s := rfl
theorem exec_bfi (c : Ctl) (d a : Reg) (b : SrcB) (r : Reg) (s : State) : exec (.bfi c d a b r) s = execBfi c d a b r s := rfl
theorem exec_popc (c : Ctl) (d a : Reg) (s : State) : exec (.popc c d a) s = execPopc c d a s := rfl
theorem exec_clz (c : Ctl) (d a : Reg) (s : State) : exec (.clz c d a) s = execClz c d a s := rfl
theorem exec_ctz (c : Ctl) (d a : Reg) (s : State) : exec (.ctz c d a) s = execCtz c d a s := rfl
theorem exec_brev (c : Ctl) (d a : Reg) (s : State) : exec (.brev c d a) s = execBrev c d a s := rfl
theorem exec_icmp (c : Ctl) (t : ITy) (cmp : ICmp) (comb : Comb) (bit : BitVec 5) (d a : Reg) (b : SrcB) (s : State) : exec (.icmp c t cmp comb bit d a b) s = execIcmp c t cmp comb bit d a b s := rfl
theorem exec_sel (c : Ctl) (bit : BitVec 5) (d a : Reg) (b : SrcB) (r : Reg) (s : State) : exec (.sel c bit d a b r) s = execSel c bit d a b r s := rfl
theorem exec_lea (c : Ctl) (x3 z : Bool) (s : BitVec 3) (d a : Reg) (b : SrcB) (t : State) : exec (.lea c x3 z s d a b) t = execLea c x3 z s d a b t := rfl
theorem exec_mov (c : Ctl) (d : Reg) (s : MovSrc) (t : State) : exec (.mov c d s) t = execMov c d s t := rfl
theorem exec_movi (c : CtlL) (d : Reg) (imm : BitVec 32) (s : State) : exec (.movi c d imm) s = execMovi c d imm s := rfl
theorem exec_pset (c : Ctl) (z : Bool) (comb : Comb) (bit : BitVec 5) (d a : Reg) (b : SrcB) (s : State) : exec (.pset c z comb bit d a b) s = execPset c z comb bit d a b s := rfl
theorem exec_bmsk (c : Ctl) (d a : Reg) (b : SrcB) (s : State) : exec (.bmsk c d a b) s = execBmsk c d a b s := rfl
theorem exec_fadd (c : Ctl) (m : RMode) (d a : Reg) (b : SrcB) (s : State) : exec (.fadd c m d a b) s = execFadd c m d a b s := rfl
theorem exec_fsub (c : Ctl) (m : RMode) (d a : Reg) (b : SrcB) (s : State) : exec (.fsub c m d a b) s = execFsub c m d a b s := rfl
theorem exec_fmul (c : Ctl) (m : RMode) (d a : Reg) (b : SrcB) (s : State) : exec (.fmul c m d a b) s = execFmul c m d a b s := rfl
theorem exec_ffma (c : Ctl) (m : RMode) (d a : Reg) (b : SrcB) (r : Reg) (s : State) : exec (.ffma c m d a b r) s = execFfma c m d a b r s := rfl
theorem exec_fmin (c : Ctl) (d a : Reg) (b : SrcB) (s : State) : exec (.fmin c d a b) s = execFmin c d a b s := rfl
theorem exec_fmax (c : Ctl) (d a : Reg) (b : SrcB) (s : State) : exec (.fmax c d a b) s = execFmax c d a b s := rfl
theorem exec_fcmp (c : Ctl) (cmp : FCmp) (comb : Comb) (bit : BitVec 5) (d a : Reg) (b : SrcB) (s : State) : exec (.fcmp c cmp comb bit d a b) s = execFcmp c cmp comb bit d a b s := rfl
theorem exec_fclass (c : Ctl) (comb : Comb) (bit : BitVec 5) (d a : Reg) (b : SrcB) (s : State) : exec (.fclass c comb bit d a b) s = execFclass c comb bit d a b s := rfl
theorem exec_frnd (c : Ctl) (m : RMode) (d a : Reg) (b : SrcB) (s : State) : exec (.frnd c m d a b) s = execFrnd c m d a b s := rfl
theorem exec_fscalb (c : Ctl) (m : RMode) (d a : Reg) (b : SrcB) (s : State) : exec (.fscalb c m d a b) s = execFscalb c m d a b s := rfl
theorem exec_fclamp (c : Ctl) (d a : Reg) (b : SrcB) (r : Reg) (s : State) : exec (.fclamp c d a b r) s = execFclamp c d a b r s := rfl
theorem exec_frcp (c : Ctl) (m : RMode) (d a : Reg) (s : State) : exec (.frcp c m d a) s = execFrcp c m d a s := rfl
theorem exec_frsq (c : Ctl) (m : RMode) (d a : Reg) (s : State) : exec (.frsq c m d a) s = execFrsq c m d a s := rfl
theorem exec_fsqrt (c : Ctl) (m : RMode) (d a : Reg) (s : State) : exec (.fsqrt c m d a) s = execFsqrt c m d a s := rfl
theorem exec_fdiv (c : Ctl) (m : RMode) (d a b : Reg) (s : State) : exec (.fdiv c m d a b) s = execFdiv c m d a b s := rfl
theorem exec_fex2 (c : Ctl) (d a : Reg) (s : State) : exec (.fex2 c d a) s = execFex2 c d a s := rfl
theorem exec_flg2 (c : Ctl) (d a : Reg) (s : State) : exec (.flg2 c d a) s = execFlg2 c d a s := rfl
theorem exec_fsin (c : Ctl) (d a : Reg) (s : State) : exec (.fsin c d a) s = execFsin c d a s := rfl
theorem exec_fcos (c : Ctl) (d a : Reg) (s : State) : exec (.fcos c d a) s = execFcos c d a s := rfl
theorem exec_ftanh (c : Ctl) (d a : Reg) (s : State) : exec (.ftanh c d a) s = execFtanh c d a s := rfl
theorem exec_fsigm (c : Ctl) (d a : Reg) (s : State) : exec (.fsigm c d a) s = execFsigm c d a s := rfl
theorem exec_hadd2 (c : Ctl) (bf : Bool) (m : RMode) (d a b : Reg) (s : State) : exec (.hadd2 c bf m d a b) s = execHadd2 c bf m d a b s := rfl
theorem exec_hmul2 (c : Ctl) (bf : Bool) (m : RMode) (d a b : Reg) (s : State) : exec (.hmul2 c bf m d a b) s = execHmul2 c bf m d a b s := rfl
theorem exec_hfma2 (c : Ctl) (bf : Bool) (m : RMode) (d a b r : Reg) (s : State) : exec (.hfma2 c bf m d a b r) s = execHfma2 c bf m d a b r s := rfl
theorem exec_hmnmx2 (c : Ctl) (max bf : Bool) (d a b : Reg) (s : State) : exec (.hmnmx2 c max bf d a b) s = execHmnmx2 c max bf d a b s := rfl
theorem exec_hcmp2 (c : Ctl) (bf : Bool) (cmp : FCmp) (comb : Comb) (bit : BitVec 5) (d a b : Reg) (s : State) : exec (.hcmp2 c bf cmp comb bit d a b) s = execHcmp2 c bf cmp comb bit d a b s := rfl
theorem exec_dadd (c : Ctl) (m : RMode) (d a b : Reg) (s : State) : exec (.dadd c m d a b) s = execDadd c m d a b s := rfl
theorem exec_dmul (c : Ctl) (m : RMode) (d a b : Reg) (s : State) : exec (.dmul c m d a b) s = execDmul c m d a b s := rfl
theorem exec_dfma (c : Ctl) (m : RMode) (d a b r : Reg) (s : State) : exec (.dfma c m d a b r) s = execDfma c m d a b r s := rfl
theorem exec_dmnmx (c : Ctl) (max : Bool) (d a b : Reg) (s : State) : exec (.dmnmx c max d a b) s = execDmnmx c max d a b s := rfl
theorem exec_dcmp (c : Ctl) (cmp : FCmp) (comb : Comb) (bit : BitVec 5) (d a b : Reg) (s : State) : exec (.dcmp c cmp comb bit d a b) s = execDcmp c cmp comb bit d a b s := rfl
theorem exec_drnd (c : Ctl) (m : RMode) (d a : Reg) (s : State) : exec (.drnd c m d a) s = execDrnd c m d a s := rfl
theorem exec_fcvt (c : Ctl) (dst src : FFmt) (sat : Bool) (m : RMode) (dsel ssel : BitVec 2) (d a : Reg) (s : State) : exec (.fcvt c dst src sat m dsel ssel d a) s = execFcvt c dst src sat m dsel ssel d a s := rfl
theorem exec_f2i (c : Ctl) (it : IFmt) (ft : FFmt) (m : RMode) (ssel : BitVec 2) (d a : Reg) (s : State) : exec (.f2i c it ft m ssel d a) s = execF2i c it ft m ssel d a s := rfl
theorem exec_i2f (c : Ctl) (ft : FFmt) (it : IFmt) (sat : Bool) (m : RMode) (dsel : BitVec 2) (d a : Reg) (s : State) : exec (.i2f c ft it sat m dsel d a) s = execI2f c ft it sat m dsel d a s := rfl
theorem exec_dot2 (c : Ctl) (bf : Bool) (m : RMode) (d a b r : Reg) (s : State) : exec (.dot2 c bf m d a b r) s = execDot2 c bf m d a b r s := rfl
theorem exec_dot4 (c : Ctl) (ae5 be5 : Bool) (m : RMode) (d a b r : Reg) (s : State) : exec (.dot4 c ae5 be5 m d a b r) s = execDot4 c ae5 be5 m d a b r s := rfl
theorem exec_shfl (c : Ctl) (mode : ShflMode) (w : BitVec 3) (d a : Reg) (b : SrcB) (s : State) : exec (.shfl c mode w d a b) s = execShfl c mode w d a b s := rfl
theorem exec_vote (c : Ctl) (mode : VoteMode) (bit : BitVec 5) (d a : Reg) (s : State) : exec (.vote c mode bit d a) s = execVote c mode bit d a s := rfl
theorem exec_bcast (c : Ctl) (w : Bool) (d a : Reg) (b : SrcB) (s : State) : exec (.bcast c w d a b) s = execBcast c w d a b s := rfl
theorem exec_lred (c : Ctl) (op : RedOp) (s : Bool) (m : RMode) (d a : Reg) (t : State) : exec (.lred c op s m d a) t = execLred c op s m d a t := rfl
theorem exec_lscan (c : Ctl) (op : RedOp) (exc s : Bool) (m : RMode) (d a : Reg) (t : State) : exec (.lscan c op exc s m d a) t = execLscan c op exc s m d a t := rfl
theorem exec_matchL (c : Ctl) (dbl : Bool) (d a : Reg) (s : State) : exec (.matchL c dbl d a) s = execMatchL c dbl d a s := rfl
theorem exec_actm (c : Ctl) (d : Reg) (s : State) : exec (.actm c d) s = execActm c d s := rfl
theorem exec_ldg (c : Ctl) (size : Size) (na : Bool) (d : Reg) (m : MemRef) (s : State) : exec (.ldg c size na d m) s = execLdg c size na d m s := rfl
theorem exec_stg (c : Ctl) (size : Size) (d : Reg) (m : MemRef) (s : State) : exec (.stg c size d m) s = execStg c size d m s := rfl
theorem exec_lds (c : Ctl) (size : Size) (d : Reg) (m : MemRef) (s : State) : exec (.lds c size d m) s = execLds c size d m s := rfl
theorem exec_sts (c : Ctl) (size : Size) (d : Reg) (m : MemRef) (s : State) : exec (.sts c size d m) s = execSts c size d m s := rfl
theorem exec_ldr (c : Ctl) (size : Size) (d : Reg) (m : MemRef) (s : State) : exec (.ldr c size d m) s = execLdr c size d m s := rfl
theorem exec_str (c : Ctl) (size : Size) (d : Reg) (m : MemRef) (s : State) : exec (.str c size d m) s = execStr c size d m s := rfl
theorem exec_atomg (c : Ctl) (op : AtomOp) (dbl : Bool) (scope : Scope) (ntf : Bool) (d a b n : Reg) (s : State) : exec (.atomg c op dbl scope ntf d a b n) s = execAtomg c op dbl scope ntf d a b n s := rfl
theorem exec_redg (c : Ctl) (op : AtomOp) (dbl : Bool) (scope : Scope) (ntf : Bool) (a b : Reg) (s : State) : exec (.redg c op dbl scope ntf a b) s = execRedg c op dbl scope ntf a b s := rfl
theorem exec_atoms (c : Ctl) (op : AtomOp) (dbl : Bool) (d a b n : Reg) (s : State) : exec (.atoms c op dbl d a b n) s = execAtoms c op dbl d a b n s := rfl
theorem exec_phase (c : Ctl) (opt : PhaseOpt) (scope : Scope) (s : State) : exec (.phase c opt scope) s = execPhase c opt scope s := rfl
theorem exec_cmaint (c : Ctl) (op : MaintOp) (lvl : MaintLevel) (a b : Reg) (s : State) : exec (.cmaint c op lvl a b) s = execCmaint c op lvl a b s := rfl
theorem exec_pref (c : Ctl) (l2 : Bool) (m : MemRef) (s : State) : exec (.pref c l2 m) s = execPref c l2 m s := rfl
theorem exec_waycfg (c : Ctl) (d : Reg) (b : SrcB) (s : State) : exec (.waycfg c d b) s = execWaycfg c d b s := rfl
theorem exec_spmark (c : Ctl) (st : LineState) (a : Reg) (b : SrcB) (s : State) : exec (.spmark c st a b) s = execSpmark c st a b s := rfl
theorem exec_sptest (c : Ctl) (d : Reg) (b : SrcB) (s : State) : exec (.sptest c d b) s = execSptest c d b s := rfl
theorem exec_accld (c : Ctl) (a b r : Reg) (s : State) : exec (.accld c a b r) s = execAccld c a b r s := rfl
theorem exec_accst (c : Ctl) (a b r : Reg) (s : State) : exec (.accst c a b r) s = execAccst c a b r s := rfl
theorem exec_accz (c : Ctl) (a : Reg) (s : State) : exec (.accz c a) s = execAccz c a s := rfl
theorem exec_acccp (c : Ctl) (a b : Reg) (s : State) : exec (.acccp c a b) s = execAcccp c a b s := rfl
theorem exec_acccv (c : Ctl) (fmt : FFmt) (sat : Bool) (m : RMode) (a b r : Reg) (s : State) : exec (.acccv c fmt sat m a b r) s = execAcccv c fmt sat m a b r s := rfl
theorem exec_mmaf (c : Ctl) (cv : BitVec 4) (a b : Reg) (s : State) : exec (.mmaf c cv a b) s = execMmaf c cv a b s := rfl
theorem exec_mmab (c : Ctl) (cv : BitVec 4) (a b : Reg) (s : State) : exec (.mmab c cv a b) s = execMmab c cv a b s := rfl
theorem exec_mmah (c : Ctl) (cv : BitVec 4) (a b : Reg) (s : State) : exec (.mmah c cv a b) s = execMmah c cv a b s := rfl
theorem exec_mmae4 (c : Ctl) (sc : Bool) (cv : BitVec 4) (ba bb : BitVec 2) (a b r d : Reg) (s : State) : exec (.mmae4 c sc cv ba bb a b r d) s = execMmae4 c sc cv ba bb a b r d s := rfl
theorem exec_mmae5 (c : Ctl) (sc : Bool) (cv : BitVec 4) (ba bb : BitVec 2) (a b r d : Reg) (s : State) : exec (.mmae5 c sc cv ba bb a b r d) s = execMmae5 c sc cv ba bb a b r d s := rfl
theorem exec_mman (c : Ctl) (ka kb : BitVec 3) (cv : BitVec 4) (ba bb : BitVec 2) (a b r d : Reg) (s : State) : exec (.mman c ka kb cv ba bb a b r d) s = execMman c ka kb cv ba bb a b r d s := rfl
theorem exec_merr (c : Ctl) (d : Reg) (s : State) : exec (.merr c d) s = execMerr c d s := rfl
theorem exec_plpack (c : Ctl) (p : BitVec 3) (d a : Reg) (s : State) : exec (.plpack c p d a) s = execPlpack c p d a s := rfl
theorem exec_plunpk (c : Ctl) (k : BitVec 3) (val : Bool) (d a : Reg) (stride : BitVec 8) (chunk : BitVec 3) (s : State) : exec (.plunpk c k val d a stride chunk) s = execPlunpk c k val d a stride chunk s := rfl
theorem exec_bscale (c : Ctl) (tgt : ScaleTgt) (d a : Reg) (s : State) : exec (.bscale c tgt d a) s = execBscale c tgt d a s := rfl
theorem exec_sccv (c : Ctl) (tgt : ScaleTgt) (sat : Bool) (m : RMode) (dby sby : BitVec 2) (d a b : Reg) (s : State) : exec (.sccv c tgt sat m dby sby d a b) s = execSccv c tgt sat m dby sby d a b s := rfl
theorem exec_mred (c : Ctl) (bf init : Bool) (d a b r : Reg) (s : State) : exec (.mred c bf init d a b r) s = execMred c bf init d a b r s := rfl
theorem exec_mrsc (c : Ctl) (bf : Bool) (a b r : Reg) (s : State) : exec (.mrsc c bf a b r) s = execMrsc c bf a b r s := rfl
theorem exec_qpush (c : Ctl) (q : Sys2Proof.Queue) (a : Reg) (s : State) : exec (.qpush c q a) s = execQpush c q a s := rfl
theorem exec_qpop (c : Ctl) (d : Reg) (q : Sys2Proof.Queue) (s : State) : exec (.qpop c d q) s = execQpop c d q s := rfl
theorem exec_qtry (c : Ctl) (d : Reg) (q : Sys2Proof.Queue) (s : State) : exec (.qtry c d q) s = execQtry c d q s := rfl
theorem exec_qlvl (c : Ctl) (d : Reg) (q : Sys2Proof.Queue) (s : State) : exec (.qlvl c d q) s = execQlvl c d q s := rfl
theorem exec_cpyt (c : Ctl) (st : Bool) (a b r d : Reg) (s : State) : exec (.cpyt c st a b r d) s = execCpyt c st a b r d s := rfl
theorem exec_cpyl (c : Ctl) (dir : CopyDir) (a b r d : Reg) (s : State) : exec (.cpyl c dir a b r d) s = execCpyl c dir a b r d s := rfl
theorem exec_cpyh (c : Ctl) (put : Bool) (a b r : Reg) (s : State) : exec (.cpyh c put a b r) s = execCpyh c put a b r s := rfl
theorem exec_gath (c : Ctl) (l2 : Bool) (a b : Reg) (s : State) : exec (.gath c l2 a b) s = execGath c l2 a b s := rfl
theorem exec_scat (c : Ctl) (a b : Reg) (s : State) : exec (.scat c a b) s = execScat c a b s := rfl
theorem exec_layx (c : Ctl) (a b : Reg) (s : State) : exec (.layx c a b) s = execLayx c a b s := rfl
theorem exec_waitc (c : Ctl) (cls : CntClass) (n : BitVec 6) (s : State) : exec (.waitc c cls n) s = execWaitc c cls n s := rfl
theorem exec_send (c : Ctl) (g : Bool) (a b : Reg) (s : State) : exec (.send c g a b) s = execSend c g a b s := rfl
theorem exec_sendl (c : Ctl) (g : Bool) (a b : Reg) (s : State) : exec (.sendl c g a b) s = execSendl c g a b s := rfl
theorem exec_postr (c : Ctl) (d a : Reg) (s : State) : exec (.postr c d a) s = execPostr c d a s := rfl
theorem exec_canrv (c : Ctl) (d a : Reg) (s : State) : exec (.canrv c d a) s = execCanrv c d a s := rfl
theorem exec_probe (c : Ctl) (d a : Reg) (s : State) : exec (.probe c d a) s = execProbe c d a s := rfl
theorem exec_mfsr (c : Ctl) (w : Bool) (d : Reg) (num : BitVec 16) (s : State) : exec (.mfsr c w d num) s = execMfsr c w d num s := rfl
theorem exec_mtsr (c : Ctl) (w : Bool) (num : BitVec 16) (a : Reg) (s : State) : exec (.mtsr c w num a) s = execMtsr c w num a s := rfl
theorem exec_rte (c : Ctl) (act : RteAct) (d a : Reg) (s : State) : exec (.rte c act d a) s = execRte c act d a s := rfl
theorem exec_ctxsv (c : Ctl) (d a b : Reg) (s : State) : exec (.ctxsv c d a b) s = execCtxsv c d a b s := rfl
theorem exec_ctxld (c : Ctl) (d a b : Reg) (s : State) : exec (.ctxld c d a b) s = execCtxld c d a b s := rfl
theorem exec_tinv (c : Ctl) (d a : Reg) (s : State) : exec (.tinv c d a) s = execTinv c d a s := rfl
theorem exec_prsrs (c : Ctl) (act : ResAct) (d a : Reg) (s : State) : exec (.prsrs c act d a) s = execPrsrs c act d a s := rfl
theorem exec_halt (c : Ctl) (d a : Reg) (s : State) : exec (.halt c d a) s = execHalt c d a s := rfl
theorem exec_idle (c : Ctl) (d : Reg) (s : State) : exec (.idle c d) s = execIdle c d s := rfl
theorem exec_fwsig (c : Ctl) (d a : Reg) (s : State) : exec (.fwsig c d a) s = execFwsig c d a s := rfl
theorem exec_keyld (c : Ctl) (d a b : Reg) (s : State) : exec (.keyld c d a b) s = execKeyld c d a b s := rfl
theorem exec_tckt (c : Ctl) (clr : Bool) (d a b : Reg) (s : State) : exec (.tckt c clr d a b) s = execTckt c clr d a b s := rfl
theorem exec_scrub (c : Ctl) (tgt : ScrubTgt) (d a b : Reg) (s : State) : exec (.scrub c tgt d a b) s = execScrub c tgt d a b s := rfl
theorem exec_dbgrd (c : Ctl) (d a b : Reg) (s : State) : exec (.dbgrd c d a b) s = execDbgrd c d a b s := rfl
theorem exec_dbgwr (c : Ctl) (d a b r : Reg) (s : State) : exec (.dbgwr c d a b r) s = execDbgwr c d a b r s := rfl
theorem exec_variableResultReturn (op : Nat) (s : State) : exec (.variableResultReturn op) s = execVariableResultReturn op s := rfl
theorem exec_engineOperandRelease (cmd : Nat) (s : State) : exec (.engineOperandRelease cmd) s = execEngineOperandRelease cmd s := rfl
theorem exec_matrixOperandRead (mop core q : Nat) (s : State) : exec (.matrixOperandRead mop core q) s = execMatrixOperandRead mop core q s := rfl
theorem exec_matrixComplete (mop : Nat) (errs : List MatErr) (s : State) : exec (.matrixComplete mop errs) s = execMatrixComplete mop errs s := rfl
theorem exec_waycfgComplete (op : Nat) (s : State) : exec (.waycfgComplete op) s = execWaycfgComplete op s := rfl
theorem exec_engineTake (cmd : Nat) (s : State) : exec (.engineTake cmd) s = execEngineTake cmd s := rfl
theorem exec_engineComplete (cmd : Nat) (s : State) : exec (.engineComplete cmd) s = execEngineComplete cmd s := rfl
theorem exec_mergeTableFullRetry (die : Nat) (s : State) : exec (.mergeTableFullRetry die) s = execMergeTableFullRetry die s := rfl
theorem exec_faultRecordWrite (die : Nat) (s : State) : exec (.faultRecordWrite die) s = execFaultRecordWrite die s := rfl
theorem exec_overflowMoveIn (die : Nat) (s : State) : exec (.overflowMoveIn die) s = execOverflowMoveIn die s := rfl
theorem exec_ingressHeldEnterRing (die : Nat) (s : State) : exec (.ingressHeldEnterRing die) s = execIngressHeldEnterRing die s := rfl
theorem exec_resolveReplay (fn die : Nat) (w : WinWrite) (s : State) : exec (.resolveReplay fn die w) s = execResolveReplay fn die w s := rfl
theorem exec_resolvePoison (fn die : Nat) (w : WinWrite) (s : State) : exec (.resolvePoison fn die w) s = execResolvePoison fn die w s := rfl
theorem exec_resolveKill (fn die : Nat) (w : WinWrite) (s : State) : exec (.resolveKill fn die w) s = execResolveKill fn die w s := rfl
theorem exec_resolutionDiscard (fn die : Nat) (w : WinWrite) (s : State) : exec (.resolutionDiscard fn die w) s = execResolutionDiscard fn die w s := rfl
theorem exec_faultQueueTailWrite (fn die : Nat) (w : WinWrite) (s : State) : exec (.faultQueueTailWrite fn die w) s = execFaultQueueTailWrite fn die w s := rfl
theorem exec_requesterReplay (die entry : Nat) (s : State) : exec (.requesterReplay die entry) s = execRequesterReplay die entry s := rfl
theorem exec_sealedPageImport (die req : Nat) (s : State) : exec (.sealedPageImport die req) s = execSealedPageImport die req s := rfl
theorem exec_swaitTableFullRecheck (die wave lane : Nat) (s : State) : exec (.swaitTableFullRecheck die wave lane) s = execSwaitTableFullRecheck die wave lane s := rfl
theorem exec_swappedRecheck (wg wave lane : Nat) (s : State) : exec (.swappedRecheck wg wave lane) s = execSwappedRecheck wg wave lane s := rfl
theorem exec_swapOut (node : Nat) (s : State) : exec (.swapOut node) s = execSwapOut node s := rfl
theorem exec_swapRestore (node die : Nat) (cores : List (List Nat)) (s : State) : exec (.swapRestore node die cores) s = execSwapRestore node die cores s := rfl
theorem exec_doorbellWrite (fn ctx q : Nat) (count : BitVec 64) (s : State) : exec (.doorbellWrite fn ctx q count) s = execDoorbellWrite fn ctx q count s := rfl
theorem exec_commandTake (ctx q : Nat) (s : State) : exec (.commandTake ctx q) s = execCommandTake ctx q s := rfl
theorem exec_semaphoreRecheck (node : Nat) (s : State) : exec (.semaphoreRecheck node) s = execSemaphoreRecheck node s := rfl
theorem exec_nodeEligible (node : Nat) (s : State) : exec (.nodeEligible node) s = execNodeEligible node s := rfl
theorem exec_dispatch (s : State) : exec (.dispatch) s = execDispatch s := rfl
theorem exec_workgroupPlace (node die : Nat) (cores : List (List Nat)) (s : State) : exec (.workgroupPlace node die cores) s = execWorkgroupPlace node die cores s := rfl
theorem exec_threadStart (gang : Nat) (s : State) : exec (.threadStart gang) s = execThreadStart gang s := rfl
theorem exec_workgroupRetire (wg : Nat) (s : State) : exec (.workgroupRetire wg) s = execWorkgroupRetire wg s := rfl
theorem exec_preemptVictim (node : Nat) (s : State) : exec (.preemptVictim node) s = execPreemptVictim node s := rfl
theorem exec_graceExpiry (node : Nat) (s : State) : exec (.graceExpiry node) s = execGraceExpiry node s := rfl
theorem exec_preclaimRefill (die node : Nat) (s : State) : exec (.preclaimRefill die node) s = execPreclaimRefill die node s := rfl
theorem exec_headerArrival (msg : Nat) (s : State) : exec (.headerArrival msg) s = execHeaderArrival msg s := rfl
theorem exec_headerAccept (msg : Nat) (s : State) : exec (.headerAccept msg) s = execHeaderAccept msg s := rfl
theorem exec_headerRefuse (msg : Nat) (s : State) : exec (.headerRefuse msg) s = execHeaderRefuse msg s := rfl
theorem exec_headerRetry (msg : Nat) (s : State) : exec (.headerRetry msg) s = execHeaderRetry msg s := rfl
theorem exec_payloadBlockArrival (msg block : Nat) (s : State) : exec (.payloadBlockArrival msg block) s = execPayloadBlockArrival msg block s := rfl
theorem exec_endMarkerArrival (msg : Nat) (s : State) : exec (.endMarkerArrival msg) s = execEndMarkerArrival msg s := rfl
theorem exec_endAcknowledgement (msg : Nat) (s : State) : exec (.endAcknowledgement msg) s = execEndAcknowledgement msg s := rfl
theorem exec_receiveCompletionRelease (wave : Nat) (s : State) : exec (.receiveCompletionRelease wave) s = execReceiveCompletionRelease wave s := rfl
theorem exec_wcbDrain (core idx : Nat) (s : State) : exec (.wcbDrain core idx) s = execWcbDrain core idx s := rfl
theorem exec_fabricAccessArrival (acc : FabricAccess) (s : State) : exec (.fabricAccessArrival acc) s = execFabricAccessArrival acc s := rfl
theorem exec_flitReceive (port : Nat) (flit : List Byte) (s : State) : exec (.flitReceive port flit) s = execFlitReceive port flit s := rfl
theorem exec_nackReceive (port cls seq : Nat) (s : State) : exec (.nackReceive port cls seq) s = execNackReceive port cls seq s := rfl
theorem exec_replayTimeout (port cls : Nat) (s : State) : exec (.replayTimeout port cls) s = execReplayTimeout port cls s := rfl
theorem exec_ackInterval (port cls : Nat) (s : State) : exec (.ackInterval port cls) s = execAckInterval port cls s := rfl
theorem exec_portFail (port cause : Nat) (s : State) : exec (.portFail port cause) s = execPortFail port cause s := rfl
theorem exec_linkTraining (port : Nat) (trained : Bool) (peer : Nat) (report : PeerReport) (share sig : List Byte) (s : State) : exec (.linkTraining port trained peer report share sig) s = execLinkTraining port trained peer report share sig s := rfl
theorem exec_keyEpochSwitch (die kind slot : Nat) (s : State) : exec (.keyEpochSwitch die kind slot) s = execKeyEpochSwitch die kind slot s := rfl
theorem exec_eviction (at_ : CacheAt) (sector : Nat) (s : State) : exec (.eviction at_ sector) s = execEviction at_ sector s := rfl
theorem exec_hostCxlAccess (write : Bool) (target : CxlAddr) (data : List Byte) (s : State) : exec (.hostCxlAccess write target data) s = execHostCxlAccess write target data s := rfl
theorem exec_trbTailWrite (die : Nat) (v : BitVec 32) (s : State) : exec (.trbTailWrite die v) s = execTrbTailWrite die v s := rfl
theorem exec_evpendWrite (die : Nat) (v : BitVec 32) (s : State) : exec (.evpendWrite die v) s = execEvpendWrite die v s := rfl
theorem exec_timerExpiry (die : Nat) (s : State) : exec (.timerExpiry die) s = execTimerExpiry die s := rfl
theorem exec_registerWrite (fn : Nat) (r : HostReg) (v : BitVec 64) (s : State) : exec (.registerWrite fn r v) s = execRegisterWrite fn r v s := rfl
theorem exec_ident (fn : Nat) (s : State) : exec (.ident fn) s = execIdent fn s := rfl
theorem exec_attest (fn : Nat) (nonce : List Byte) (addr : Nat) (s : State) : exec (.attest fn nonce addr) s = execAttest fn nonce addr s := rfl
theorem exec_ctxcrt (fn : Nat) (s : State) : exec (.ctxcrt fn) s = execCtxcrt fn s := rfl
theorem exec_ctxend (fn ctx : Nat) (s : State) : exec (.ctxend fn ctx) s = execCtxend fn ctx s := rfl
theorem exec_asidrt (fn vmid asid : Nat) (s : State) : exec (.asidrt fn vmid asid) s = execAsidrt fn vmid asid s := rfl
theorem exec_s2root (fn vmid root : Nat) (s : State) : exec (.s2root fn vmid root) s = execS2root fn vmid root s := rfl
theorem exec_pageout (fn ctx va addr : Nat) (s : State) : exec (.pageout fn ctx va addr) s = execPageout fn ctx va addr s := rfl
theorem exec_partset (fn : Nat) (parts : List (List Nat)) (s : State) : exec (.partset fn parts) s = execPartset fn parts s := rfl
theorem exec_hrun (fn : Nat) (runs : List HostRun) (s : State) : exec (.hrun fn runs) s = execHrun fn runs s := rfl
theorem exec_pamtld (fn : Nat) (ranges : List PamtRange) (s : State) : exec (.pamtld fn ranges) s = execPamtld fn ranges s := rfl
theorem exec_apert (fn ctx idx : Nat) (desc : Aperture) (s : State) : exec (.apert fn ctx idx desc) s = execApert fn ctx idx desc s := rfl
theorem exec_exportWin (fn win : Nat) (entry : ImportEntry) (s : State) : exec (.exportWin fn win entry) s = execExportWin fn win entry s := rfl
theorem exec_revoke (fn win : Nat) (s : State) : exec (.revoke fn win) s = execRevoke fn win s := rfl
theorem exec_sopen (fn : Nat) (ctxs : List Nat) (hbt grc : Option Nat) (verifierKey : List Byte) (s : State) : exec (.sopen fn ctxs hbt grc verifierKey) s = execSopen fn ctxs hbt grc verifierKey s := rfl
theorem exec_sbeat (fn : Nat) (counter : BitVec 64) (tag : List Byte) (s : State) : exec (.sbeat fn counter tag) s = execSbeat fn counter tag s := rfl
theorem exec_sresume (fn : Nat) (counter : BitVec 64) (tag : List Byte) (s : State) : exec (.sresume fn counter tag) s = execSresume fn counter tag s := rfl
theorem exec_sclose (fn : Nat) (s : State) : exec (.sclose fn) s = execSclose fn s := rfl
theorem exec_stage (fn kind idx : Nat) (img : Image) (s : State) : exec (.stage fn kind idx img) s = execStage fn kind idx img s := rfl
theorem exec_activateLive (fn kind idx : Nat) (s : State) : exec (.activateLive fn kind idx) s = execActivateLive fn kind idx s := rfl
theorem exec_activateNextReset (fn kind idx : Nat) (s : State) : exec (.activateNextReset fn kind idx) s = execActivateNextReset fn kind idx s := rfl
theorem exec_manifest (fn : Nat) (m : Manifest) (s : State) : exec (.manifest fn m) s = execManifest fn m s := rfl
theorem exec_floor (fn : Nat) (s : State) : exec (.floor fn) s = execFloor fn s := rfl
theorem exec_sreg (fn die : Nat) (write : Bool) (num : Nat) (value : BitVec 64) (s : State) : exec (.sreg fn die write num value) s = execSreg fn die write num value s := rfl
theorem exec_lossdrop (fn : Nat) (value : BitVec 128) (s : State) : exec (.lossdrop fn value) s = execLossdrop fn value s := rfl
theorem exec_telem (fn : Nat) (s : State) : exec (.telem fn) s = execTelem fn s := rfl
theorem exec_hrtset (fn : Nat) (stack : Option Nat) (value : Nat) (s : State) : exec (.hrtset fn stack value) s = execHrtset fn stack value s := rfl
theorem exec_mailboxUnknownCommand (fn : Nat) (s : State) : exec (.mailboxUnknownCommand fn) s = execMailboxUnknownCommand fn s := rfl
theorem exec_activationWatchdog (s : State) : exec (.activationWatchdog) s = execActivationWatchdog s := rfl
theorem exec_heartbeatExpiry (session : Nat) (s : State) : exec (.heartbeatExpiry session) s = execHeartbeatExpiry session s := rfl
theorem exec_sessionGraceEnd (session : Nat) (s : State) : exec (.sessionGraceEnd session) s = execSessionGraceEnd session s := rfl
theorem exec_start (cold : Bool) (s : State) : exec (.start cold) s = execStart cold s := rfl
theorem exec_startFail (reason kind : Nat) (failed : FailedUnits) (s : State) : exec (.startFail reason kind failed) s = execStartFail reason kind failed s := rfl
theorem exec_thermalThrottle (die : Nat) (s : State) : exec (.thermalThrottle die) s = execThermalThrottle die s := rfl
theorem exec_thermalShutdown (chiplet : Nat) (s : State) : exec (.thermalShutdown chiplet) s = execThermalShutdown chiplet s := rfl
theorem exec_droopDetect (die : Nat) (s : State) : exec (.droopDetect die) s = execDroopDetect die s := rfl
theorem exec_droopRecover (die : Nat) (s : State) : exec (.droopRecover die) s = execDroopRecover die s := rfl
theorem exec_marginReplan (plan : MarginStep) (s : State) : exec (.marginReplan plan) s = execMarginReplan plan s := rfl
theorem exec_hotRowThrottle (stack row : Nat) (s : State) : exec (.hotRowThrottle stack row) s = execHotRowThrottle stack row s := rfl
theorem exec_targetedRefresh (stack row : Nat) (s : State) : exec (.targetedRefresh stack row) s = execTargetedRefresh stack row s := rfl
theorem exec_throttleInterval (stack row : Nat) (s : State) : exec (.throttleInterval stack row) s = execThrottleInterval stack row s := rfl
theorem exec_phaseComplete (op : Nat) (s : State) : exec (.phaseComplete op) s = execPhaseComplete op s := rfl
theorem exec_cmaintComplete (op : Nat) (s : State) : exec (.cmaintComplete op) s = execCmaintComplete op s := rfl
theorem exec_accumulatorComplete (op : Nat) (s : State) : exec (.accumulatorComplete op) s = execAccumulatorComplete op s := rfl
theorem exec_cxlCacheSnoop (die sector : Nat) (update : Option (List Byte)) (s : State) : exec (.cxlCacheSnoop die sector update) s = execCxlCacheSnoop die sector update s := rfl
theorem exec_startSucceeds (s : State) : exec (.startSucceeds) s = execStartSucceeds s := rfl
theorem exec_imageReportsReady (s : State) : exec (.imageReportsReady) s = execImageReportsReady s := rfl
theorem exec_thermalThrottleEnd (die : Nat) (s : State) : exec (.thermalThrottleEnd die) s = execThermalThrottleEnd die s := rfl
theorem exec_powerShareReached (die : Nat) (s : State) : exec (.powerShareReached die) s = execPowerShareReached die s := rfl

end Sys2Proof.Machine
end

