-- ==== Sys2Proof/Laws/Issue.lean ====
section
/-! SUPPORT. What the shared courses of an issue can do: one lemma for the common course, one for the fixed-latency results. -/

namespace Sys2Proof

/-! ### Tables and rows -/

@[simp] theorem FMap.get?_set {α : Type} (m : FMap α) (k j : Nat) (v : α) :
    FMap.get? (FMap.set m k v) j = if j = k then some v else FMap.get? m j := by
  induction m with
  | nil => simp only [FMap.set, FMap.get?, eq_comm]
  | cons e t ih =>
    obtain ⟨i, u⟩ := e
    unfold FMap.set
    split
    · simp [FMap.get?, eq_comm]
    · split
      · subst i; by_cases h : j = k
        · simp [FMap.get?, h]
        · simp [FMap.get?, h, Ne.symm h]
      · by_cases hi : i = j
        · subst hi; simp [FMap.get?]; intro h; contradiction
        · simp [FMap.get?, hi, ih]

@[simp] theorem FMap.getD_set {α : Type} (m : FMap α) (k j : Nat) (v d : α) :
    FMap.getD (FMap.set m k v) j d = if j = k then v else FMap.getD m j d := by
  unfold FMap.getD; rw [FMap.get?_set]; split <;> rfl

@[simp] theorem Row.lane_ofLanes (f : Nat → Word) (L : Nat) : Row.lane (Row.ofLanes f) L = if L < 32 then f L else 0 := by
  unfold Row.lane Row.ofLanes laneNums
  split <;> rename_i h
  · simp [List.getD, h]
  · simp [List.getD, h]

@[simp] theorem Row.lane_merge (m : LaneMask) (a b : Row) (L : Nat) (h : L < 32) :
    Row.lane (Row.merge m a b) L = if m.getLsbD L then Row.lane b L else Row.lane a L := by
  simp [Row.merge, h]

namespace Machine

/-! ### The common course (R34, R41) -/

/-- An instruction that issues answers a next state: that of its own effect at its issue. -/
theorem onIssue_of_issues {c : Ctl} {ds : List Nat} {s : State} {x : Issue} (f : Issue → State) (h : Issues c ds s x) :
    onIssue c ds s f = .next (f x) := by
  obtain ⟨w, cl, hw, hc, hb, hx, hd⟩ := h
  unfold onIssue
  simp only [hw, hc]
  by_cases h1 : c.cf.toNat < 12
  · simp only [h1, hb h1, decide_true, Bool.and_false, Bool.false_eq_true, if_false, if_true]
    simp only [issueOf, h1, if_true] at hx
    subst hx
    rw [if_neg (by simpa using hd)]
  · simp only [h1, decide_false, Bool.false_and, Bool.false_eq_true, if_false]
    simp only [issueOf, h1, if_false] at hx
    subst hx
    rw [if_neg (by simpa using hd)]

/-! ### What the clause has written (R39, R60) -/

theorem logOver_getD (log : List FixedWrite) (r : Nat) (m : FMap Row) :
    FMap.getD (log.foldl (fun m e => FMap.set m e.reg (Row.merge e.lanes (FMap.getD m e.reg Row.zero) e.row)) m) r Row.zero =
      logOver log r (fun _ => true) (FMap.getD m r Row.zero) := by
  induction log generalizing m with
  | nil => rfl
  | cons e t ih =>
    simp only [List.foldl_cons, logOver, Bool.and_true, beq_iff_eq] at ih ⊢
    rw [ih, FMap.getD_set]
    by_cases h : r = e.reg
    · subst h; simp
    · simp [h, Ne.symm h]

/-- The end of a clause writes what its instructions have left. -/
theorem Wave.drain_value (w : Wave) (r L : Nat) : w.drain.value r L = w.value r L := by
  unfold Wave.value Wave.latest Wave.drain
  cases h : w.clause with
  | none => simp [h]
  | some cl => simp only [Wave.base]; rw [logOver_getD]

theorem Wave.drain_status (w : Wave) : w.drain.statusSoFar = w.statusSoFar := by
  unfold Wave.statusSoFar Wave.drain
  cases h : w.clause with
  | none => simp [h]
  | some cl => rfl

/-! ### Accepting a hold, register by register (R41) -/

/-- What register `r` holds in lane `L` once its hold, if it has one with a result, is accepted. -/
def Wave.acceptedValue (w : Wave) (r L : Nat) : Word :=
  match w.hold? r with
  | some h => match h.result with
    | some v => if h.lanes.getLsbD L then Row.lane v L else Row.lane h.pre L
    | none => w.value r L
  | none => w.value r L

/-- The status that accepting register `r` brings. -/
def Wave.acceptedStatus (w : Wave) (r : Nat) : BitVec 12 :=
  match w.hold? r with
  | some h => match h.result with | some _ => h.raised | none => 0
  | none => 0

theorem logOver_filter (log : List FixedWrite) (r d : Nat) (v : Row) (h : r ≠ d) :
    logOver (log.filter fun e => e.reg != d) r (fun _ => true) v = logOver log r (fun _ => true) v := by
  induction log generalizing v with
  | nil => rfl
  | cons e t ih =>
    simp only [logOver, Bool.and_true, beq_iff_eq] at ih ⊢
    by_cases he : e.reg = d
    · simp [he, Ne.symm h, ih]
    · simp [he, ih]

theorem logOver_gone (log : List FixedWrite) (d : Nat) (v : Row) :
    logOver (log.filter fun e => e.reg != d) d (fun _ => true) v = v := by
  induction log generalizing v with
  | nil => rfl
  | cons e t ih =>
    simp only [logOver, Bool.and_true, beq_iff_eq] at ih ⊢
    by_cases he : e.reg = d <;> simp [he, ih]

theorem Wave.accept_some (w : Wave) (d : Nat) (h : Hold) (v : Row) (hh : w.hold? d = some h) (hr : h.result = some v) :
    w.accept d = (({ w with regs := FMap.set w.regs d (Row.merge h.lanes h.pre v), holds := w.holds.filter fun x => x.reg != d } : Wave).forget
      d).raise h.raised := by
  simp only [Wave.accept, hh, hr]

theorem Wave.accept_none (w : Wave) (d : Nat) (h : ∀ x v, w.hold? d = some x → x.result ≠ some v) : w.accept d = w := by
  unfold Wave.accept
  split
  · split
    · rename_i h1 _ _ h2; exact absurd h2 (h _ _ h1)
    · rfl
  · rfl

theorem Wave.accept_value (w : Wave) (d r L : Nat) (hL : L < 32) :
    (w.accept d).value r L = if r = d then w.acceptedValue d L else w.value r L := by
  cases hh : w.hold? d with
  | none => rw [w.accept_none d (by simp [hh])]; by_cases h : r = d <;> simp [h, Wave.acceptedValue, hh]
  | some h =>
    cases hr : h.result with
    | none =>
      rw [w.accept_none d (by rintro _ v h1; cases hh.symm.trans h1; simp [hr])]; by_cases h : r = d <;> simp [hr, h, Wave.acceptedValue, hh]
    | some v =>
      rw [w.accept_some d h v hh hr]
      simp only [Wave.value, Wave.latest, Wave.raise, Wave.forget, Wave.base, Wave.acceptedValue, hh, hr]
      cases hc : w.clause with
      | none =>
        by_cases h1 : r = d
        · subst h1; simp [hL]
        · simp [h1]
      | some cl =>
        by_cases h1 : r = d
        · subst h1; simp [logOver_gone, hL]
        · simp [h1, logOver_filter _ _ _ _ h1]

theorem Wave.accept_hold? (w : Wave) (d r : Nat) (h : r ≠ d) : (w.accept d).hold? r = w.hold? r := by
  cases hh : w.hold? d with
  | none => rw [w.accept_none d (by simp [hh])]
  | some x =>
    cases hr : x.result with
    | none => rw [w.accept_none d (by rintro _ v h1; cases hh.symm.trans h1; simp [hr])]
    | some v =>
      rw [w.accept_some d x v hh hr]
      simp only [Wave.hold?, Wave.raise, Wave.forget]
      clear hh
      induction w.holds with
      | nil => rfl
      | cons a t ih =>
        by_cases h1 : a.reg = d
        · have h2 : ¬ d = r := fun h2 => h h2.symm
          simp [h1, h2, ih]
        · by_cases h2 : a.reg = r
          · simp [h2, h]
          · simp [h1, h2, ih]

theorem or_foldl (l : List (Nat × BitVec 12)) (a b : BitVec 12) :
    l.foldl (fun acc p => acc ||| p.2) (a ||| b) = l.foldl (fun acc p => acc ||| p.2) a ||| b := by
  induction l generalizing a with
  | nil => rfl
  | cons p t ih =>
    simp only [List.foldl_cons]
    rw [show a ||| b ||| p.2 = (a ||| p.2) ||| b by rw [BitVec.or_assoc, BitVec.or_comm b, BitVec.or_assoc], ih]

theorem Wave.accept_status (w : Wave) (d : Nat) : (w.accept d).statusSoFar = w.statusSoFar ||| w.acceptedStatus d := by
  cases hh : w.hold? d with
  | none => rw [w.accept_none d (by simp [hh])]; simp [Wave.acceptedStatus, hh]
  | some x =>
    cases hr : x.result with
    | none => rw [w.accept_none d (by rintro _ v h1; cases hh.symm.trans h1; simp [hr])]; simp [Wave.acceptedStatus, hh, hr]
    | some v =>
      rw [w.accept_some d x v hh hr]
      simp only [Wave.statusSoFar, Wave.raise, Wave.forget, Wave.acceptedStatus, hh, hr]
      cases hc : w.clause with
      | none => simp
      | some cl => simp [or_foldl]

/-- Accepting changes registers, holds, `WSTAT` and the clause's log, and nothing else of a wave. -/
theorem Wave.accept_frame (w : Wave) (d : Nat) :
    ∃ log : Clause → List FixedWrite, (w.accept d).clause = w.clause.map (fun cl => { cl with log := log cl }) ∧
      w.accept d = { w with regs := (w.accept d).regs, holds := (w.accept d).holds, wstat := (w.accept d).wstat, clause := (w.accept d).clause } := by
  cases hh : w.hold? d with
  | none => rw [w.accept_none d (by simp [hh])]; exact ⟨Clause.log, by simp, rfl⟩
  | some x =>
    cases hr : x.result with
    | none => rw [w.accept_none d (by rintro _ v h1; cases hh.symm.trans h1; simp [hr])]; exact ⟨Clause.log, by simp, rfl⟩
    | some v => rw [w.accept_some d x v hh hr]; exact ⟨fun cl => cl.log.filter fun e => e.reg != d, rfl, rfl⟩

/-! ### Fixed-latency writes (R39) -/

theorem Wave.fixedWrite_skip (w : Wave) (slot : Nat) (act : LaneMask) (d : Nat) (row : Row) (h : d = 255 ∨ act = 0) :
    w.fixedWrite slot act d row = w := by
  unfold Wave.fixedWrite; rw [if_pos h]

theorem Wave.fixedWrite_eq (w : Wave) (slot : Nat) (act : LaneMask) (d : Nat) (row : Row) (h : ¬(d = 255 ∨ act = 0)) :
    w.fixedWrite slot act d row =
      { w.accept d with clause := (w.accept d).clause.map fun cl => { cl with log := cl.log ++ [⟨slot, d, act, row⟩] } } := by
  unfold Wave.fixedWrite; rw [if_neg h]

/-- A fixed-latency write is what its register holds in the lanes written; a hold on it is accepted first. -/
theorem Wave.fixedWrite_value (w : Wave) (hc : w.clause.isSome = true) (slot : Nat) (act : LaneMask) (d : Nat) (row : Row)
    (hd : ¬(d = 255 ∨ act = 0)) (r L : Nat) (hL : L < 32) :
    (w.fixedWrite slot act d row).value r L = if r = d ∧ act.getLsbD L = true then Row.lane row L else (w.accept d).value r L := by
  obtain ⟨log, hl, -⟩ := w.accept_frame d
  obtain ⟨cl, hcl⟩ := Option.isSome_iff_exists.1 hc
  rw [Wave.fixedWrite_eq _ _ _ _ _ hd]
  simp only [hcl, Option.map_some] at hl
  simp only [Wave.value, Wave.latest, hl, Option.map_some, logOver, List.foldl_append, List.foldl_cons, List.foldl_nil, Wave.base]
  by_cases h : r = d
  · subst h; simp [hL]
  · simp [h, Ne.symm h]

theorem Wave.fixedWrite_hold? (w : Wave) (slot : Nat) (act : LaneMask) (d : Nat) (row : Row) (r : Nat) (h : r ≠ d) :
    (w.fixedWrite slot act d row).hold? r = w.hold? r := by
  by_cases hd : d = 255 ∨ act = 0
  · rw [Wave.fixedWrite_skip _ _ _ _ _ hd]
  · rw [Wave.fixedWrite_eq _ _ _ _ _ hd]
    exact w.accept_hold? d r h

theorem Wave.fixedWrite_status (w : Wave) (slot : Nat) (act : LaneMask) (d : Nat) (row : Row) (hd : ¬(d = 255 ∨ act = 0)) :
    (w.fixedWrite slot act d row).statusSoFar = (w.accept d).statusSoFar := by
  rw [Wave.fixedWrite_eq _ _ _ _ _ hd]
  unfold Wave.statusSoFar
  cases (w.accept d).clause <;> rfl

/-- A fixed-latency write changes registers, holds, `WSTAT` and the clause's log, and nothing else of a wave. -/
theorem Wave.fixedWrite_frame (w : Wave) (slot : Nat) (act : LaneMask) (d : Nat) (row : Row) :
    ∃ log : Clause → List FixedWrite,
      (w.fixedWrite slot act d row).clause = w.clause.map (fun cl => { cl with log := log cl }) ∧
      w.fixedWrite slot act d row = { w with
        regs := (w.fixedWrite slot act d row).regs, holds := (if d = 255 ∨ act = 0 then w else w.accept d).holds,
        wstat := (w.fixedWrite slot act d row).wstat, clause := (w.fixedWrite slot act d row).clause } := by
  by_cases hd : d = 255 ∨ act = 0
  · rw [Wave.fixedWrite_skip _ _ _ _ _ hd, if_pos hd]; exact ⟨Clause.log, by simp, rfl⟩
  · rw [Wave.fixedWrite_eq _ _ _ _ _ hd, if_neg hd]
    obtain ⟨log, hl, hf⟩ := w.accept_frame d
    refine ⟨fun cl => log cl ++ [⟨slot, d, act, row⟩], ?_, ?_⟩
    · simp only [hl, Option.map_map]; rfl
    · rw [hf]

theorem Wave.acceptedValue_congr (w u : Wave) (d L : Nat) (h : w.hold? d = u.hold? d) (hv : w.value d L = u.value d L) :
    w.acceptedValue d L = u.acceptedValue d L := by
  unfold Wave.acceptedValue; rw [h, hv]

/-- What the fixed-latency writes of one instruction leave of its wave, before its slot ends. -/
structure Written (w : Wave) (act : LaneMask) (d : Reg) (n : Nat) (row : Nat → Row) (u : Wave) : Prop where
  clause : ∃ log : Clause → List FixedWrite, u.clause = w.clause.map fun cl => { cl with log := log cl }
  frame : u = { w with regs := u.regs, holds := (if act = 0 then w else w.acceptAll (dstRegs d n)).holds, wstat := u.wstat, clause := u.clause }
  hit : ∀ k L, k < n → d ≠ 255 → d.toNat + k < 255 → act.getLsbD L = true → u.value (d.toNat + k) L = Row.lane (row k) L
  miss : ∀ r L, L < 32 → ¬(r ∈ dstRegs d n ∧ act.getLsbD L = true) →
    u.value r L = (if act = 0 then w else w.acceptAll (dstRegs d n)).value r L
  status : u.statusSoFar = (if act = 0 then w else w.acceptAll (dstRegs d n)).statusSoFar

theorem Written.refl_of (w : Wave) (act : LaneMask) (d : Reg) (n : Nat) (row : Nat → Row) (h : act = 0 ∨ d = 255) :
    Written w act d n row w := by
  have hk : (if act = 0 then w else w.acceptAll (dstRegs d n)) = w := by
    rcases h with h | h
    · simp [h]
    · subst h; simp [dstRegs, dstGroup, Wave.acceptAll]
  refine ⟨⟨Clause.log, by simp⟩, by rw [hk], ?_, ?_, by rw [hk]⟩
  · intro k L hk1 hk2 hk3 hk4
    rcases h with h | h
    · subst h; simp at hk4
    · exact absurd h hk2
  · intro r L hL hn; rw [hk]

theorem reg_lt {d : Reg} (h : d ≠ 255) : d.toNat < 255 := by
  have h1 := d.isLt
  rcases Nat.lt_or_ge d.toNat 255 with h2 | h2
  · exact h2
  · exfalso; apply h; apply BitVec.eq_of_toNat_eq; simp; omega

theorem lane_lt {m : LaneMask} {L : Nat} (h : m.getLsbD L = true) : L < 32 := by
  rcases Nat.lt_or_ge L 32 with h2 | h2
  · exact h2
  · rw [BitVec.getLsbD_of_ge _ _ h2] at h; cases h

/-- One destination register. -/
theorem Written.one (w : Wave) (hc : w.clause.isSome = true) (slot : Nat) (act : LaneMask) (d : Reg) (row : Nat → Row) :
    Written w act d 1 row ((dstGroup d 1).zipIdx.foldl (fun w p => w.fixedWrite slot act p.1 (row p.2)) w) := by
  by_cases hz : act = 0 ∨ d = 255
  · have : (dstGroup d 1).zipIdx.foldl (fun w p => w.fixedWrite slot act p.1 (row p.2)) w = w := by
      rcases hz with h | h
      · unfold dstGroup; split
        · rfl
        · exact Wave.fixedWrite_skip _ _ _ _ _ (.inr h)
      · subst h; rfl
    rw [this]; exact Written.refl_of w act d 1 row hz
  · obtain ⟨ha, hd⟩ := not_or.1 hz
    have hlt := reg_lt hd
    have h255 : ¬(d.toNat = 255 ∨ act = 0) := not_or.2 ⟨by omega, ha⟩
    have hg : dstGroup d 1 = [d.toNat] := by unfold dstGroup; rw [if_neg hd]; rfl
    have hr : dstRegs d 1 = [d.toNat] := by simp [dstRegs, hg, hlt]
    simp only [hg, List.zipIdx_cons, List.zipIdx_nil, List.foldl_cons, List.foldl_nil]
    obtain ⟨log, h1, h2⟩ := w.fixedWrite_frame slot act d.toNat (row 0)
    refine ⟨⟨log, h1⟩, ?_, ?_, ?_, ?_⟩
    · simp only [if_neg h255] at h2
      simp only [ha, if_false, hr, Wave.acceptAll, List.foldl_cons, List.foldl_nil]
      exact h2
    · intro k L hk _ _ hL
      obtain rfl : k = 0 := by omega
      rw [Nat.add_zero, w.fixedWrite_value hc slot act d.toNat (row 0) h255 _ L (lane_lt hL)]
      simp [hL]
    · intro r L hL hn
      rw [w.fixedWrite_value hc slot act d.toNat (row 0) h255 _ L hL]
      simp only [hr, List.mem_singleton] at hn
      simp only [ha, if_false, hr, Wave.acceptAll, List.foldl_cons, List.foldl_nil, if_neg hn]
    · simp only [ha, if_false, hr, Wave.acceptAll, List.foldl_cons, List.foldl_nil]
      exact w.fixedWrite_status slot act d.toNat (row 0) h255

/-- A pair of destination registers. -/
theorem Written.two (w : Wave) (hc : w.clause.isSome = true) (slot : Nat) (act : LaneMask) (d : Reg) (row : Nat → Row) :
    Written w act d 2 row ((dstGroup d 2).zipIdx.foldl (fun w p => w.fixedWrite slot act p.1 (row p.2)) w) := by
  by_cases hz : act = 0 ∨ d = 255
  · have : (dstGroup d 2).zipIdx.foldl (fun w p => w.fixedWrite slot act p.1 (row p.2)) w = w := by
      rcases hz with h | h
      · unfold dstGroup; split
        · rfl
        · exact (Wave.fixedWrite_skip _ _ _ _ _ (.inr h)).trans (Wave.fixedWrite_skip _ _ _ _ _ (.inr h))
      · subst h; rfl
    rw [this]; exact Written.refl_of w act d 2 row hz
  · obtain ⟨ha, hd⟩ := not_or.1 hz
    have hlt := reg_lt hd
    have h255 : ¬(d.toNat = 255 ∨ act = 0) := not_or.2 ⟨by omega, ha⟩
    have hg : dstGroup d 2 = [d.toNat, d.toNat + 1] := by unfold dstGroup; rw [if_neg hd]; rfl
    simp only [hg, List.zipIdx_cons, List.zipIdx_nil, List.foldl_cons, List.foldl_nil]
    obtain ⟨log, h1, h2⟩ := w.fixedWrite_frame slot act d.toNat (row 0)
    have hc1 : (w.fixedWrite slot act d.toNat (row 0)).clause.isSome = true := by rw [h1]; simpa using hc
    simp only [if_neg h255] at h2
    by_cases hl : d.toNat + 1 = 255
    · have hr : dstRegs d 2 = [d.toNat] := by simp [dstRegs, hg, hlt, hl]
      rw [Wave.fixedWrite_skip _ _ _ _ _ (.inl hl)]
      refine ⟨⟨log, h1⟩, ?_, ?_, ?_, ?_⟩
      · simp only [ha, if_false, hr, Wave.acceptAll, List.foldl_cons, List.foldl_nil]; exact h2
      · intro k L hk _ hk2 hL
        obtain rfl : k = 0 := by omega
        rw [Nat.add_zero, w.fixedWrite_value hc slot act d.toNat (row 0) h255 _ L (lane_lt hL)]
        simp [hL]
      · intro r L hL hn
        rw [w.fixedWrite_value hc slot act d.toNat (row 0) h255 _ L hL]
        simp only [hr, List.mem_singleton] at hn
        simp only [ha, if_false, hr, Wave.acceptAll, List.foldl_cons, List.foldl_nil, if_neg hn]
      · simp only [ha, if_false, hr, Wave.acceptAll, List.foldl_cons, List.foldl_nil]
        exact w.fixedWrite_status slot act d.toNat (row 0) h255
    · have hr : dstRegs d 2 = [d.toNat, d.toNat + 1] := by
        have : d.toNat + 1 < 255 := by omega
        simp [dstRegs, hg, hlt, this]
      have h255' : ¬(d.toNat + 1 = 255 ∨ act = 0) := not_or.2 ⟨hl, ha⟩
      have hne : d.toNat + 1 ≠ d.toNat := by omega
      obtain ⟨log', h1', h2'⟩ := (w.fixedWrite slot act d.toNat (row 0)).fixedWrite_frame slot act (d.toNat + 1) (row 1)
      simp only [if_neg h255'] at h2'
      -- a register is accepted alike before and after the first write
      have hhold : (w.fixedWrite slot act d.toNat (row 0)).hold? (d.toNat + 1) = (w.accept d.toNat).hold? (d.toNat + 1) := by
        rw [w.fixedWrite_hold? _ _ _ _ _ hne, w.accept_hold? _ _ hne]
      have hholds : (w.fixedWrite slot act d.toNat (row 0)).holds = (w.accept d.toNat).holds := by rw [h2]
      have hacc : ((w.fixedWrite slot act d.toNat (row 0)).accept (d.toNat + 1)).holds = ((w.accept d.toNat).accept (d.toNat + 1)).holds := by
        cases hx : (w.accept d.toNat).hold? (d.toNat + 1) with
        | none =>
          rw [Wave.accept_none _ _ (by simp [hhold, hx]), Wave.accept_none _ _ (by simp [hx]), hholds]
        | some h =>
          cases hv : h.result with
          | none =>
            rw [Wave.accept_none _ _ (by rintro _ v e; rw [hhold, hx] at e; cases e; simp [hv]),
              Wave.accept_none _ _ (by rintro _ v e; rw [hx] at e; cases e; simp [hv]), hholds]
          | some v =>
            rw [Wave.accept_some _ _ h v (hhold.trans hx) hv, Wave.accept_some _ _ h v hx hv]
            simp only [Wave.raise, Wave.forget, hholds]
      have hst : (w.fixedWrite slot act d.toNat (row 0)).acceptedStatus (d.toNat + 1) = (w.accept d.toNat).acceptedStatus (d.toNat + 1) := by
        unfold Wave.acceptedStatus; rw [hhold]
      refine ⟨⟨fun cl => log' { cl with log := log cl }, by rw [h1', h1, Option.map_map]; rfl⟩, ?_, ?_, ?_, ?_⟩
      · simp only [ha, if_false, hr, Wave.acceptAll, List.foldl_cons, List.foldl_nil, ← hacc]
        rw [h2'] ; rw [h2]
      · intro k L hk _ _ hL
        have hL' := lane_lt hL
        rw [Wave.fixedWrite_value _ hc1 slot act (d.toNat + 1) (row 1) h255' _ L hL']
        obtain rfl | rfl : k = 0 ∨ k = 1 := by omega
        · rw [if_neg (by omega), Wave.accept_value _ _ _ _ hL', if_neg (by omega), Nat.add_zero,
            w.fixedWrite_value hc slot act d.toNat (row 0) h255 _ L hL']
          simp [hL]
        · simp [hL]
      · intro r L hL hn
        rw [Wave.fixedWrite_value _ hc1 slot act (d.toNat + 1) (row 1) h255' _ L hL]
        simp only [hr, List.mem_cons, List.not_mem_nil, or_false] at hn
        simp only [ha, if_false, hr, Wave.acceptAll, List.foldl_cons, List.foldl_nil]
        rw [if_neg (by tauto), Wave.accept_value _ _ _ _ hL, Wave.accept_value _ _ _ _ hL]
        by_cases h3 : r = d.toNat + 1
        · simp only [h3, if_true]
          apply Wave.acceptedValue_congr _ _ _ _ hhold
          rw [w.fixedWrite_value hc slot act d.toNat (row 0) h255 _ L hL, if_neg (by omega)]
        · simp only [h3, if_false]
          rw [w.fixedWrite_value hc slot act d.toNat (row 0) h255 _ L hL, if_neg (by tauto)]
      · simp only [ha, if_false, hr, Wave.acceptAll, List.foldl_cons, List.foldl_nil]
        rw [Wave.fixedWrite_status _ slot act (d.toNat + 1) (row 1) h255', Wave.accept_status, Wave.accept_status,
          w.fixedWrite_status slot act d.toNat (row 0) h255, hst]

/-! ### A fixed-latency instruction (R38, R39, R60) -/

theorem Wave.acceptAll_clause (rs : List Nat) (w : Wave) (cl : Clause) (h : w.clause = some cl) :
    ∃ cl', (w.acceptAll rs).clause = some cl' := by
  induction rs generalizing w cl with
  | nil => exact ⟨cl, h⟩
  | cons r t ih =>
    obtain ⟨log, h1, -⟩ := w.accept_frame r
    rw [h] at h1
    exact ih _ _ h1

/-- At an issue the clause in progress is the one the issue names. -/
theorem Issues.clause {c : Ctl} {ds : List Nat} {s : State} {x : Issue} (h : Issues c ds s x) : x.w.clause = some x.cl := by
  obtain ⟨w, cl, -, hc, -, rfl, -⟩ := h
  simp only [issueOf]
  by_cases h1 : c.cf.toNat < 12
  · simp only [h1, if_true]
    obtain ⟨cl', h2⟩ := Wave.acceptAll_clause ((w.holds.filter fun h => h.flag == some c.cf.toNat).map Hold.reg) w cl hc
    simp only [Wave.acceptFlag, h2, Option.getD_some]
  · simp only [h1, if_false, hc, Option.getD_some]

/-- An issue is that of the wave `cur`. -/
theorem Issues.key {c : Ctl} {ds : List Nat} {s : State} {x : Issue} (h : Issues c ds s x) : x.key = s.cur := by
  obtain ⟨w, cl, -, -, -, rfl, -⟩ := h; rfl

theorem Wave.fixedFlags_value (w : Wave) (slot : Nat) (f : BitVec 12) (r L : Nat) : (w.fixedFlags slot f).value r L = w.value r L := by
  unfold Wave.fixedFlags; split
  · rfl
  · unfold Wave.value Wave.latest; cases w.clause <;> rfl

theorem Wave.fixedFlags_status (w : Wave) (hc : w.clause.isSome = true) (slot : Nat) (f : BitVec 12) :
    (w.fixedFlags slot f).statusSoFar = w.statusSoFar ||| f := by
  obtain ⟨cl, hcl⟩ := Option.isSome_iff_exists.1 hc
  unfold Wave.fixedFlags; split
  · rename_i h; simp [h]
  · simp [Wave.statusSoFar, hcl]

theorem Wave.fixedFlags_frame (w : Wave) (slot : Nat) (f : BitVec 12) :
    ∃ fp : Clause → List (Nat × BitVec 12), (w.fixedFlags slot f).clause = w.clause.map (fun cl => { cl with fp := fp cl }) ∧
      w.fixedFlags slot f = { w with clause := (w.fixedFlags slot f).clause } := by
  unfold Wave.fixedFlags; split
  · exact ⟨Clause.fp, by simp, rfl⟩
  · exact ⟨fun cl => cl.fp ++ [(slot, f)], rfl, rfl⟩

theorem Wave.setPcs_value (w : Wave) (m : LaneMask) (f : Nat → PcEntry → PcEntry) (r L : Nat) :
    (w.setPcs m f).value r L = w.value r L := rfl

theorem Wave.endSlot_value (w : Wave) (cl : Clause) (r L : Nat) : (w.endSlot cl).value r L = w.value r L := by
  unfold Wave.endSlot; split
  · unfold Wave.value Wave.latest; cases w.clause <;> rfl
  · exact (Wave.setPcs_value _ _ _ _ _).trans (w.drain_value r L)

theorem Wave.endSlot_status (w : Wave) (cl : Clause) : (w.endSlot cl).statusSoFar = w.statusSoFar := by
  unfold Wave.endSlot; split
  · unfold Wave.statusSoFar; cases w.clause <;> rfl
  · exact (show (w.endClause cl _).statusSoFar = w.drain.statusSoFar from rfl).trans w.drain_status

/-- The end of a slot changes registers, `WSTAT`, the clause and the PC table, and nothing else of a wave. -/
theorem Wave.endSlot_frame (w : Wave) (cl : Clause) :
    w.endSlot cl = { w with regs := (w.endSlot cl).regs, wstat := (w.endSlot cl).wstat, clause := (w.endSlot cl).clause,
                            pct := (w.endSlot cl).pct } := by
  unfold Wave.endSlot; split
  · rfl
  · unfold Wave.endClause Wave.setPcs Wave.drain; cases w.clause <;> rfl

/-- The slot of an issue ends in a wave whose clause has changed only in what it has written. -/
theorem slotOver_endSlot (x : Issue) (w : Wave) (t : Nat) (hp : w.pct = x.w.pct)
    (hc : ∃ log fp, w.clause = some { x.cl with log := log, fp := fp }) : SlotOver x { w.endSlot x.cl with lastIssue := t } := by
  obtain ⟨log, fp, hc⟩ := hc
  unfold SlotOver Wave.endSlot
  by_cases h : x.cl.slot + 1 < x.cl.n
  · simp only [h, if_true]
    exact ⟨hp, { x.cl with log := log, fp := fp, slot := x.cl.slot + 1 }, by rw [hc]; rfl, rfl⟩
  · simp only [h, if_false, Wave.endClause, Wave.setPcs]
    refine ⟨?_, ?_⟩
    · simp [Wave.drain, hc]
    · have : w.drain.pct = x.w.pct := by simp [Wave.drain, hc, hp]
      rw [this]

/-- A fixed-latency instruction of one or two result registers completes at its issue, and leaves what `FixedDone` says. -/
theorem fixedOp_done {c : Ctl} {d : Reg} {n : Nat} (hn : n = 1 ∨ n = 2) {s : State} {x : Issue} (f : Issue → Nat → Nat → Word)
    (fl : Issue → Nat → BitVec 12) (h : Issues c (dstGroup d n) s x) :
    ∃ t, fixedOp c d n s f fl = .next t ∧ FixedDone s x d n (f x) (fl x) t := by
  have hcl := h.clause
  have hkey := h.key
  refine ⟨_, onIssue_of_issues _ h, ?_⟩
  have hs : x.w.clause.isSome = true := by rw [hcl]; rfl
  have W := show Written x.w x.act d n (fun k => Row.ofLanes fun L => if x.act.getLsbD L then f x k L else 0) _ from
    (by rcases hn with rfl | rfl
        · exact Written.one x.w hs x.cl.slot x.act d _
        · exact Written.two x.w hs x.cl.slot x.act d _ :
      Written x.w x.act d n (fun k => Row.ofLanes fun L => if x.act.getLsbD L then f x k L else 0)
        ((dstGroup d n).zipIdx.foldl
          (fun w p => w.fixedWrite x.cl.slot x.act p.1 (Row.ofLanes fun L => if x.act.getLsbD L then f x p.2 L else 0)) x.w))
  obtain ⟨⟨log, hlog⟩, hfr, hhit, hmiss, hst⟩ := W
  generalize (dstGroup d n).zipIdx.foldl
    (fun w p => w.fixedWrite x.cl.slot x.act p.1 (Row.ofLanes fun L => if x.act.getLsbD L then f x p.2 L else 0)) x.w = u at *
  simp only [hcl, Option.map_some] at hlog
  obtain ⟨fp, hfp, hff⟩ := u.fixedFlags_frame x.cl.slot (x.flags (fl x))
  refine ⟨{ (u.fixedFlags x.cl.slot (x.flags (fl x))).endSlot x.cl with lastIssue := s.tick }, ?_, ?_, ?_, ?_, ?_, ?_⟩
  · show x.done s (u.fixedFlags x.cl.slot (x.flags (fl x))) = _
    unfold Issue.done State.setWave; rw [hkey]
  · show ({ (u.fixedFlags x.cl.slot (x.flags (fl x))).endSlot x.cl with lastIssue := s.tick } : Wave) = _
    rw [Wave.endSlot_frame, hff]
    rw [hfr]
    rfl
  · intro k L h1 h2 h3 h4
    show ((u.fixedFlags x.cl.slot (x.flags (fl x))).endSlot x.cl).value _ _ = _
    rw [Wave.endSlot_value, Wave.fixedFlags_value, hhit k L h1 h2 h3 h4, Row.lane_ofLanes, if_pos (lane_lt h4), if_pos h4]
  · intro r L hL hr
    show ((u.fixedFlags x.cl.slot (x.flags (fl x))).endSlot x.cl).value _ _ = _
    rw [Wave.endSlot_value, Wave.fixedFlags_value, hmiss r L hL hr]; rfl
  · show ((u.fixedFlags x.cl.slot (x.flags (fl x))).endSlot x.cl).statusSoFar = _
    rw [Wave.endSlot_status, Wave.fixedFlags_status _ (by rw [hlog]; rfl), hst]; rfl
  · refine slotOver_endSlot x _ _ ?_ ⟨log x.cl, fp { x.cl with log := log x.cl }, by rw [hfp, hlog]; rfl⟩
    rw [hff]; show u.pct = _; rw [hfr]

/-! ### Operations that outlive their issue (R40, R41) -/

/-- A variable-latency instruction whose results are known completes its issue: it is listed with them. -/
theorem varOp_done {c : Ctl} {i : Instr} {d : Reg} {n : Nat} {s : State} {x : Issue} (f : Issue → List Row × BitVec 12)
    (h : IssuesLater c (dstGroup d n) s x) :
    ∃ t, varOp c i d n s f = .next t ∧ Listed s x c i (dstGroup d n) [] (f x).1 (f x).2 0 true t := by
  refine ⟨_, onIssue_of_issues _ h.1, ?_⟩
  unfold Listed
  by_cases ha : x.act = 0
  · simp only [ha, if_true]
  · simp only [ha, if_false, h.2 ha, Bool.not_true, Bool.false_eq_true]

/-- An operation that is performed later, and that no check stops, completes its issue: it is listed with its captured sources. -/
theorem laterOp_done {c : Ctl} {i : Instr} {ds : List Nat} {s : State} {x : Issue} (srcs : Issue → List Row) (aux : Issue → Nat)
    (check : Issue → Option (Nat × Nat)) (after : Nat → Issue → State → State) (h : IssuesLater c ds s x)
    (hk : x.act ≠ 0 → check x = none) :
    laterOp c i ds s srcs aux check after = .next (if x.act = 0 then x.done s x.w
      else let p := x.addOp s c i ds (srcs x) (List.replicate ds.length Row.zero) 0 (aux x) false; after p.1 x p.2) := by
  unfold laterOp
  rw [onIssue_of_issues _ h.1]
  by_cases ha : x.act = 0
  · simp only [ha, if_true]
  · simp only [ha, if_false, hk ha, h.2 ha, Bool.not_true, Bool.false_eq_true]

end Machine
end Sys2Proof
end

