-- ==== Sys2Proof/Laws/Memory.lean ====
section
/-! SUPPORT. Memory as a canonical list of cells: every operation keeps the form, and a byte reads as it was last written. -/

namespace Sys2Proof.Machine

/-- Every address of a memory lies above `a`. -/
def Memory.above (a : Nat) : Memory → Prop
  | [] => True
  | (b, _) :: _ => a < b

theorem Memory.wf_cons (a : Nat) (v : Byte) (m : Memory) :
    Memory.wf ((a, v) :: m) = true ↔ v ≠ Memory.unlisted ∧ Memory.above a m ∧ Memory.wf m = true := by
  cases m with
  | nil => simp [Memory.wf, Memory.above]
  | cons e t => obtain ⟨b, w⟩ := e; simp [Memory.wf, Memory.above, and_assoc]

theorem Memory.above_trans {a b : Nat} (h : a < b) : ∀ {m : Memory}, Memory.above b m → Memory.above a m
  | [], _ => trivial
  | (_, _) :: _, h1 => Nat.lt_trans h h1

/-- Below the first address of a canonical memory nothing is listed. -/
theorem Memory.get_above {a : Nat} {m : Memory} (hw : Memory.wf m = true) (h : Memory.above a m) : Memory.get m a = Memory.unlisted := by
  induction m with
  | nil => rfl
  | cons e t ih =>
    obtain ⟨b, w⟩ := e
    obtain ⟨-, h1, h2⟩ := (Memory.wf_cons b w t).1 hw
    have hb : a < b := h
    rw [Memory.get, if_neg (by omega)]
    exact ih h2 (Memory.above_trans hb h1)

theorem Memory.above_put {b a : Nat} {v : Byte} {m : Memory} (hw : Memory.wf m = true) (hm : Memory.above b m) (ha : b < a) :
    Memory.above b (Memory.put m a v) := by
  cases m with
  | nil => unfold Memory.put; split <;> simp [Memory.above, ha]
  | cons e t =>
    obtain ⟨j, w⟩ := e
    have hj : b < j := hm
    obtain ⟨-, h1, -⟩ := (Memory.wf_cons j w t).1 hw
    unfold Memory.put
    split
    · split
      · exact hj
      · exact ha
    · split
      · split
        · exact Memory.above_trans hj h1
        · exact ha
      · exact hj

/-- A write keeps the canonical form. -/
theorem Memory.wf_put {m : Memory} (hw : Memory.wf m = true) (a : Nat) (v : Byte) : Memory.wf (Memory.put m a v) = true := by
  induction m with
  | nil => unfold Memory.put; split <;> simp_all [Memory.wf]
  | cons e t ih =>
    obtain ⟨j, w⟩ := e
    obtain ⟨h0, h1, h2⟩ := (Memory.wf_cons j w t).1 hw
    unfold Memory.put
    split
    · rename_i hlt
      split
      · exact hw
      · rename_i hv; exact (Memory.wf_cons _ _ _).2 ⟨hv, hlt, hw⟩
    · split
      · rename_i _ he
        subst he
        split
        · exact h2
        · rename_i hv; exact (Memory.wf_cons _ _ _).2 ⟨hv, h1, h2⟩
      · exact (Memory.wf_cons _ _ _).2 ⟨h0, Memory.above_put h2 h1 (by omega), ih h2⟩

/-- A byte reads as it was written, and a write leaves every other byte alone. -/
theorem Memory.get_put {m : Memory} (hw : Memory.wf m = true) (a b : Nat) (v : Byte) :
    Memory.get (Memory.put m a v) b = if b = a then v else Memory.get m b := by
  induction m with
  | nil =>
    unfold Memory.put
    by_cases hv : v = Memory.unlisted <;> by_cases hb : b = a <;> simp [hv, hb, Memory.get, eq_comm]
    exact fun h => absurd h.symm hb
  | cons e t ih =>
    obtain ⟨j, w⟩ := e
    obtain ⟨h0, h1, h2⟩ := (Memory.wf_cons j w t).1 hw
    unfold Memory.put
    split
    · rename_i hlt
      split
      · rename_i hv
        by_cases hb : b = a
        · subst hb; rw [if_pos rfl, hv]; exact Memory.get_above hw hlt
        · rw [if_neg hb]
      · rw [Memory.get]
        by_cases hb : b = a
        · rw [if_pos hb.symm, if_pos hb]
        · rw [if_neg (Ne.symm hb), if_neg hb]
    · split
      · rename_i _ he
        subst he
        split
        · rename_i hv
          by_cases hb : b = j
          · subst hb; rw [if_pos rfl, hv]; exact Memory.get_above h2 h1
          · rw [if_neg hb, Memory.get, if_neg (Ne.symm hb)]
        · by_cases hb : b = j
          · rw [Memory.get, if_pos hb.symm, if_pos hb]
          · rw [Memory.get, if_neg (Ne.symm hb), if_neg hb, Memory.get, if_neg (Ne.symm hb)]
      · rename_i hne
        rw [Memory.get, Memory.get, ih h2]
        by_cases hj : j = b
        · subst hj; rw [if_pos rfl, if_neg hne, if_pos rfl]
        · rw [if_neg hj, if_neg hj]

/-- Bytes written keep the canonical form. -/
theorem Memory.wf_write (bs : List Byte) {m : Memory} (hw : Memory.wf m = true) (a : Nat) : Memory.wf (Memory.write m a bs) = true := by
  induction bs generalizing m a with
  | nil => exact hw
  | cons b t ih => exact ih (Memory.wf_put hw a b) (a + 1)

/-- Bytes written read back, and every other byte is as it was. -/
theorem Memory.get_write (bs : List Byte) {m : Memory} (hw : Memory.wf m = true) (a b : Nat) :
    Memory.get (Memory.write m a bs) b = if a ≤ b ∧ b < a + bs.length then List.getD bs (b - a) 0 else Memory.get m b := by
  induction bs generalizing m a with
  | nil => simp [Memory.write]
  | cons x t ih =>
    rw [Memory.write, ih (Memory.wf_put hw a x), Memory.get_put hw]
    by_cases h : b = a
    · subst h; simp
    · by_cases h1 : a + 1 ≤ b ∧ b < a + 1 + t.length
      · rw [if_pos h1, if_pos (by simp only [List.length_cons]; omega)]
        obtain ⟨k, rfl⟩ := Nat.exists_eq_add_of_le h1.1
        rw [show a + 1 + k - a = k + 1 by omega, show a + 1 + k - (a + 1) = k by omega, List.getD_cons_succ]
      · rw [if_neg h1, if_neg h, if_neg (by simp only [List.length_cons]; omega)]

/-- A canonical memory is determined by what its bytes read as. -/
theorem Memory.ext_get {m n : Memory} (hm : Memory.wf m = true) (hn : Memory.wf n = true)
    (h : ∀ a, Memory.get m a = Memory.get n a) : m = n := by
  induction m generalizing n with
  | nil =>
    cases n with
    | nil => rfl
    | cons e t =>
      obtain ⟨j, w⟩ := e
      obtain ⟨h0, -, -⟩ := (Memory.wf_cons j w t).1 hn
      exact absurd (by simpa [Memory.get] using (h j).symm) h0
  | cons e t ih =>
    obtain ⟨i, v⟩ := e
    obtain ⟨h0, h1, h2⟩ := (Memory.wf_cons i v t).1 hm
    cases n with
    | nil => exact absurd (by simpa [Memory.get] using h i) h0
    | cons e' u =>
      obtain ⟨j, w⟩ := e'
      obtain ⟨g0, g1, g2⟩ := (Memory.wf_cons j w u).1 hn
      rcases Nat.lt_trichotomy i j with hl | rfl | hl
      · have := h i
        rw [Memory.get_above hn hl, Memory.get, if_pos rfl] at this
        exact absurd this h0
      · have hv : v = w := by simpa [Memory.get] using h i
        subst hv
        rw [ih h2 g2]
        intro a
        by_cases ha : i = a
        · subst ha; rw [Memory.get_above h2 h1, Memory.get_above g2 g1]
        · simpa [Memory.get, ha] using h a
      · have := h j
        rw [Memory.get_above hm hl, Memory.get, if_pos rfl] at this
        exact absurd this.symm g0

/-- Memory at reset has the form: nothing is listed. -/
theorem Memory.wf_reset : Memory.wf State.reset.mem = true ∧ Memory.wf State.reset.hostMem = true := ⟨rfl, rfl⟩

/-! ### Little-endian bytes (R4) -/

@[simp] theorem length_leBytes (n v : Nat) : (leBytes n v).length = n := by
  induction n generalizing v with
  | zero => rfl
  | succ n ih => simp [leBytes, ih]

theorem leNat_leBytes (n v : Nat) : leNat (leBytes n v) = v % 256 ^ n := by
  induction n generalizing v with
  | zero => simp [leBytes, leNat, Nat.mod_one]
  | succ n ih =>
    simp only [leBytes, leNat, ih, BitVec.toNat_ofNat]
    have e : (256 : Nat) ^ (n + 1) = 256 * 256 ^ n := Nat.pow_succ'
    rw [e, Nat.mod_mul]

end Sys2Proof.Machine
end

