-- ==== Sys2Proof/Laws/PerInstr.lean ====
section
/-! SUPPORT. Per-instruction facts, one lemma per constructor: an instruction has a word of the program, an event has none (R73, R81). -/

namespace Sys2Proof.Laws.Worded

/-- An event has no word, and every other instruction has one. -/
def Statement (i : Instr) : Prop := Machine.isEvent i = (encode? i).isNone

theorem hdr (n : BitVec 4) (pipes : BitVec 3) (wait : BitVec 12) (setA setB : BitVec 4) : Statement (.hdr n pipes wait setA setB) := rfl
theorem nop (c : Ctl) : Statement (.nop c) := rfl
theorem bra (c : Ctl) (hint : Hint) (off : BitVec 16) : Statement (.bra c hint off) := rfl
theorem jmp (c : CtlL) (off : BitVec 32) : Statement (.jmp c off) := rfl
theorem jmpi (c : Ctl) (a : Reg) : Statement (.jmpi c a) := rfl
theorem call (c : CtlL) (d : Reg) (off : BitVec 32) : Statement (.call c d off) := rfl
theorem calli (c : Ctl) (d a : Reg) : Statement (.calli c d a) := rfl
theorem ret (c : Ctl) (a : Reg) : Statement (.ret c a) := rfl
theorem exit (c : Ctl) : Statement (.exit c) := rfl
theorem waitf (c : Ctl) (mask : BitVec 12) : Statement (.waitf c mask) := rfl
theorem yieldI (c : Ctl) : Statement (.yieldI c) := rfl
theorem bar (c : Ctl) (sel : BarSel) : Statement (.bar c sel) := rfl
theorem bara (c : Ctl) (sel : BarSel) : Statement (.bara c sel) := rfl
theorem barw (c : Ctl) (sel : BarSel) : Statement (.barw c sel) := rfl
theorem swait (c : Ctl) (cmp : SwCmp) (dbl : Bool) (d : Reg) (m : MemRef) : Statement (.swait c cmp dbl d m) := rfl
theorem swake (c : Ctl) (m : MemRef) : Statement (.swake c m) := rfl
theorem cvset (c : Ctl) (cv : BitVec 4) (a : Reg) : Statement (.cvset c cv a) := rfl
theorem cvsign (c : Ctl) (cv : BitVec 4) : Statement (.cvsign c cv) := rfl
theorem getid (c : Ctl) (w : Bool) (d : Reg) (s : SrcSel) : Statement (.getid c w d s) := rfl
theorem getenv (c : Ctl) (w : Bool) (d : Reg) (s : SrcSel) : Statement (.getenv c w d s) := rfl
theorem claim (c : Ctl) (d : Reg) : Statement (.claim c d) := rfl
theorem tret (c : Ctl) (abn : Bool) (a : Reg) : Statement (.tret c abn a) := rfl
theorem schrd (c : Ctl) (sh : Bool) (d : Reg) (n : BitVec 4) : Statement (.schrd c sh d n) := rfl
theorem schwr (c : Ctl) (n : BitVec 4) (a : Reg) : Statement (.schwr c n a) := rfl
theorem schcm (c : Ctl) (d : Reg) : Statement (.schcm c d) := rfl
theorem spawn (c : Ctl) (d a b : Reg) : Statement (.spawn c d a b) := rfl
theorem brk (c : Ctl) (imm : BitVec 16) : Statement (.brk c imm) := rfl
theorem trap (c : Ctl) (imm : BitVec 16) : Statement (.trap c imm) := rfl
theorem errrd (c : Ctl) (d : Reg) (s : SrcSel) : Statement (.errrd c d s) := rfl
theorem iadd (c : Ctl) (t : ITy) (d a : Reg) (b : SrcB) : Statement (.iadd c t d a b) := rfl
theorem isub (c : Ctl) (t : ITy) (d a : Reg) (b : SrcB) : Statement (.isub c t d a b) := rfl
theorem isum (c : Ctl) (t : ITy) (d a : Reg) (b : SrcB) (r : Reg) : Statement (.isum c t d a b r) := rfl
theorem iadds (c : Ctl) (sub : Bool) (t : ITy) (d a : Reg) (b : SrcB) : Statement (.iadds c sub t d a b) := rfl
theorem imul (c : Ctl) (t : ITy) (d a : Reg) (b : SrcB) : Statement (.imul c t d a b) := rfl
theorem imulh (c : Ctl) (t : ITy) (d a : Reg) (b : SrcB) : Statement (.imulh c t d a b) := rfl
theorem imad (c : Ctl) (t : ITy) (d a : Reg) (b : SrcB) (r : Reg) : Statement (.imad c t d a b r) := rfl
theorem imadw (c : Ctl) (t : ITy) (d a : Reg) (b : SrcB) (r : Reg) : Statement (.imadw c t d a b r) := rfl
theorem iadd64 (c : Ctl) (x : Ext64) (d a : Reg) (b : SrcB) : Statement (.iadd64 c x d a b) := rfl
theorem isub64 (c : Ctl) (x : Ext64) (d a : Reg) (b : SrcB) : Statement (.isub64 c x d a b) := rfl
theorem imin (c : Ctl) (t : ITy) (d a : Reg) (b : SrcB) : Statement (.imin c t d a b) := rfl
theorem imax (c : Ctl) (t : ITy) (d a : Reg) (b : SrcB) : Statement (.imax c t d a b) := rfl
theorem iabs (c : Ctl) (sat : Bool) (t : ITy) (d a : Reg) : Statement (.iabs c sat t d a) := rfl
theorem ineg (c : Ctl) (sat : Bool) (t : ITy) (d a : Reg) : Statement (.ineg c sat t d a) := rfl
theorem idiv (c : Ctl) (t : ITy) (d a : Reg) (b : SrcB) : Statement (.idiv c t d a b) := rfl
theorem irem (c : Ctl) (t : ITy) (d a : Reg) (b : SrcB) : Statement (.irem c t d a b) := rfl
theorem and (c : Ctl) (d a : Reg) (b : SrcB) : Statement (.and c d a b) := rfl
theorem or (c : Ctl) (d a : Reg) (b : SrcB) : Statement (.or c d a b) := rfl
theorem xor (c : Ctl) (d a : Reg) (b : SrcB) : Statement (.xor c d a b) := rfl
theorem andn (c : Ctl) (d a : Reg) (b : SrcB) : Statement (.andn c d a b) := rfl
theorem blut (c : Ctl) (lut : BitVec 8) (d a b r : Reg) : Statement (.blut c lut d a b r) := rfl
theorem shl (c : Ctl) (d a : Reg) (b : SrcB) : Statement (.shl c d a b) := rfl
theorem shr (c : Ctl) (d a : Reg) (b : SrcB) : Statement (.shr c d a b) := rfl
theorem sar (c : Ctl) (d a : Reg) (b : SrcB) : Statement (.sar c d a b) := rfl
theorem rot (c : Ctl) (right : Bool) (d a : Reg) (b : SrcB) : Statement (.rot c right d a b) := rfl
theorem fshf (c : Ctl) (left : Bool) (d a : Reg) (b : SrcB) (r : Reg) : Statement (.fshf c left d a b r) := rfl
theorem bfx (c : Ctl) (signed : Bool) (d a : Reg) (b : SrcB) : Statement (.bfx c signed d a b) := rfl
theorem bfi (c : Ctl) (d a : Reg) (b : SrcB) (r : Reg) : Statement (.bfi c d a b r) := rfl
theorem popc (c : Ctl) (d a : Reg) : Statement (.popc c d a) := rfl
theorem clz (c : Ctl) (d a : Reg) : Statement (.clz c d a) := rfl
theorem ctz (c : Ctl) (d a : Reg) : Statement (.ctz c d a) := rfl
theorem brev (c : Ctl) (d a : Reg) : Statement (.brev c d a) := rfl
theorem icmp (c : Ctl) (t : ITy) (cmp : ICmp) (comb : Comb) (bit : BitVec 5) (d a : Reg) (b : SrcB) : Statement (.icmp c t cmp comb bit d a b) := rfl
theorem sel (c : Ctl) (bit : BitVec 5) (d a : Reg) (b : SrcB) (r : Reg) : Statement (.sel c bit d a b r) := rfl
theorem lea (c : Ctl) (x3 z : Bool) (s : BitVec 3) (d a : Reg) (b : SrcB) : Statement (.lea c x3 z s d a b) := rfl
theorem mov (c : Ctl) (d : Reg) (s : MovSrc) : Statement (.mov c d s) := by cases s <;> rfl
theorem movi (c : CtlL) (d : Reg) (imm : BitVec 32) : Statement (.movi c d imm) := rfl
theorem pset (c : Ctl) (z : Bool) (comb : Comb) (bit : BitVec 5) (d a : Reg) (b : SrcB) : Statement (.pset c z comb bit d a b) := rfl
theorem bmsk (c : Ctl) (d a : Reg) (b : SrcB) : Statement (.bmsk c d a b) := rfl
theorem fadd (c : Ctl) (m : RMode) (d a : Reg) (b : SrcB) : Statement (.fadd c m d a b) := rfl
theorem fsub (c : Ctl) (m : RMode) (d a : Reg) (b : SrcB) : Statement (.fsub c m d a b) := rfl
theorem fmul (c : Ctl) (m : RMode) (d a : Reg) (b : SrcB) : Statement (.fmul c m d a b) := rfl
theorem ffma (c : Ctl) (m : RMode) (d a : Reg) (b : SrcB) (r : Reg) : Statement (.ffma c m d a b r) := rfl
theorem fmin (c : Ctl) (d a : Reg) (b : SrcB) : Statement (.fmin c d a b) := rfl
theorem fmax (c : Ctl) (d a : Reg) (b : SrcB) : Statement (.fmax c d a b) := rfl
theorem fcmp (c : Ctl) (cmp : FCmp) (comb : Comb) (bit : BitVec 5) (d a : Reg) (b : SrcB) : Statement (.fcmp c cmp comb bit d a b) := rfl
theorem fclass (c : Ctl) (comb : Comb) (bit : BitVec 5) (d a : Reg) (b : SrcB) : Statement (.fclass c comb bit d a b) := rfl
theorem frnd (c : Ctl) (m : RMode) (d a : Reg) (b : SrcB) : Statement (.frnd c m d a b) := rfl
theorem fscalb (c : Ctl) (m : RMode) (d a : Reg) (b : SrcB) : Statement (.fscalb c m d a b) := rfl
theorem fclamp (c : Ctl) (d a : Reg) (b : SrcB) (r : Reg) : Statement (.fclamp c d a b r) := rfl
theorem frcp (c : Ctl) (m : RMode) (d a : Reg) : Statement (.frcp c m d a) := rfl
theorem frsq (c : Ctl) (m : RMode) (d a : Reg) : Statement (.frsq c m d a) := rfl
theorem fsqrt (c : Ctl) (m : RMode) (d a : Reg) : Statement (.fsqrt c m d a) := rfl
theorem fdiv (c : Ctl) (m : RMode) (d a b : Reg) : Statement (.fdiv c m d a b) := rfl
theorem fex2 (c : Ctl) (d a : Reg) : Statement (.fex2 c d a) := rfl
theorem flg2 (c : Ctl) (d a : Reg) : Statement (.flg2 c d a) := rfl
theorem fsin (c : Ctl) (d a : Reg) : Statement (.fsin c d a) := rfl
theorem fcos (c : Ctl) (d a : Reg) : Statement (.fcos c d a) := rfl
theorem ftanh (c : Ctl) (d a : Reg) : Statement (.ftanh c d a) := rfl
theorem fsigm (c : Ctl) (d a : Reg) : Statement (.fsigm c d a) := rfl
theorem hadd2 (c : Ctl) (bf : Bool) (m : RMode) (d a b : Reg) : Statement (.hadd2 c bf m d a b) := rfl
theorem hmul2 (c : Ctl) (bf : Bool) (m : RMode) (d a b : Reg) : Statement (.hmul2 c bf m d a b) := rfl
theorem hfma2 (c : Ctl) (bf : Bool) (m : RMode) (d a b r : Reg) : Statement (.hfma2 c bf m d a b r) := rfl
theorem hmnmx2 (c : Ctl) (max bf : Bool) (d a b : Reg) : Statement (.hmnmx2 c max bf d a b) := rfl
theorem hcmp2 (c : Ctl) (bf : Bool) (cmp : FCmp) (comb : Comb) (bit : BitVec 5) (d a b : Reg) : Statement (.hcmp2 c bf cmp comb bit d a b) := rfl
theorem dadd (c : Ctl) (m : RMode) (d a b : Reg) : Statement (.dadd c m d a b) := rfl
theorem dmul (c : Ctl) (m : RMode) (d a b : Reg) : Statement (.dmul c m d a b) := rfl
theorem dfma (c : Ctl) (m : RMode) (d a b r : Reg) : Statement (.dfma c m d a b r) := rfl
theorem dmnmx (c : Ctl) (max : Bool) (d a b : Reg) : Statement (.dmnmx c max d a b) := rfl
theorem dcmp (c : Ctl) (cmp : FCmp) (comb : Comb) (bit : BitVec 5) (d a b : Reg) : Statement (.dcmp c cmp comb bit d a b) := rfl
theorem drnd (c : Ctl) (m : RMode) (d a : Reg) : Statement (.drnd c m d a) := rfl
theorem fcvt (c : Ctl) (dst src : FFmt) (sat : Bool) (m : RMode) (dsel ssel : BitVec 2) (d a : Reg) : Statement (.fcvt c dst src sat m dsel ssel d a) := rfl
theorem f2i (c : Ctl) (it : IFmt) (ft : FFmt) (m : RMode) (ssel : BitVec 2) (d a : Reg) : Statement (.f2i c it ft m ssel d a) := rfl
theorem i2f (c : Ctl) (ft : FFmt) (it : IFmt) (sat : Bool) (m : RMode) (dsel : BitVec 2) (d a : Reg) : Statement (.i2f c ft it sat m dsel d a) := rfl
theorem dot2 (c : Ctl) (bf : Bool) (m : RMode) (d a b r : Reg) : Statement (.dot2 c bf m d a b r) := rfl
theorem dot4 (c : Ctl) (ae5 be5 : Bool) (m : RMode) (d a b r : Reg) : Statement (.dot4 c ae5 be5 m d a b r) := rfl
theorem shfl (c : Ctl) (mode : ShflMode) (w : BitVec 3) (d a : Reg) (b : SrcB) : Statement (.shfl c mode w d a b) := rfl
theorem vote (c : Ctl) (mode : VoteMode) (bit : BitVec 5) (d a : Reg) : Statement (.vote c mode bit d a) := rfl
theorem bcast (c : Ctl) (w : Bool) (d a : Reg) (b : SrcB) : Statement (.bcast c w d a b) := rfl
theorem lred (c : Ctl) (op : RedOp) (s : Bool) (m : RMode) (d a : Reg) : Statement (.lred c op s m d a) := rfl
theorem lscan (c : Ctl) (op : RedOp) (exc s : Bool) (m : RMode) (d a : Reg) : Statement (.lscan c op exc s m d a) := rfl
theorem matchL (c : Ctl) (dbl : Bool) (d a : Reg) : Statement (.matchL c dbl d a) := rfl
theorem actm (c : Ctl) (d : Reg) : Statement (.actm c d) := rfl
theorem ldg (c : Ctl) (size : Size) (na : Bool) (d : Reg) (m : MemRef) : Statement (.ldg c size na d m) := rfl
theorem stg (c : Ctl) (size : Size) (d : Reg) (m : MemRef) : Statement (.stg c size d m) := rfl
theorem lds (c : Ctl) (size : Size) (d : Reg) (m : MemRef) : Statement (.lds c size d m) := rfl
theorem sts (c : Ctl) (size : Size) (d : Reg) (m : MemRef) : Statement (.sts c size d m) := rfl
theorem ldr (c : Ctl) (size : Size) (d : Reg) (m : MemRef) : Statement (.ldr c size d m) := rfl
theorem str (c : Ctl) (size : Size) (d : Reg) (m : MemRef) : Statement (.str c size d m) := rfl
theorem atomg (c : Ctl) (op : AtomOp) (dbl : Bool) (scope : Scope) (ntf : Bool) (d a b n : Reg) : Statement (.atomg c op dbl scope ntf d a b n) := rfl
theorem redg (c : Ctl) (op : AtomOp) (dbl : Bool) (scope : Scope) (ntf : Bool) (a b : Reg) : Statement (.redg c op dbl scope ntf a b) := rfl
theorem atoms (c : Ctl) (op : AtomOp) (dbl : Bool) (d a b n : Reg) : Statement (.atoms c op dbl d a b n) := rfl
theorem phase (c : Ctl) (opt : PhaseOpt) (scope : Scope) : Statement (.phase c opt scope) := rfl
theorem cmaint (c : Ctl) (op : MaintOp) (lvl : MaintLevel) (a b : Reg) : Statement (.cmaint c op lvl a b) := rfl
theorem pref (c : Ctl) (l2 : Bool) (m : MemRef) : Statement (.pref c l2 m) := rfl
theorem waycfg (c : Ctl) (d : Reg) (b : SrcB) : Statement (.waycfg c d b) := rfl
theorem spmark (c : Ctl) (st : LineState) (a : Reg) (b : SrcB) : Statement (.spmark c st a b) := rfl
theorem sptest (c : Ctl) (d : Reg) (b : SrcB) : Statement (.sptest c d b) := rfl
theorem accld (c : Ctl) (a b r : Reg) : Statement (.accld c a b r) := rfl
theorem accst (c : Ctl) (a b r : Reg) : Statement (.accst c a b r) := rfl
theorem accz (c : Ctl) (a : Reg) : Statement (.accz c a) := rfl
theorem acccp (c : Ctl) (a b : Reg) : Statement (.acccp c a b) := rfl
theorem acccv (c : Ctl) (fmt : FFmt) (sat : Bool) (m : RMode) (a b r : Reg) : Statement (.acccv c fmt sat m a b r) := rfl
theorem mmaf (c : Ctl) (cv : BitVec 4) (a b : Reg) : Statement (.mmaf c cv a b) := rfl
theorem mmab (c : Ctl) (cv : BitVec 4) (a b : Reg) : Statement (.mmab c cv a b) := rfl
theorem mmah (c : Ctl) (cv : BitVec 4) (a b : Reg) : Statement (.mmah c cv a b) := rfl
theorem mmae4 (c : Ctl) (sc : Bool) (cv : BitVec 4) (ba bb : BitVec 2) (a b r d : Reg) : Statement (.mmae4 c sc cv ba bb a b r d) := rfl
theorem mmae5 (c : Ctl) (sc : Bool) (cv : BitVec 4) (ba bb : BitVec 2) (a b r d : Reg) : Statement (.mmae5 c sc cv ba bb a b r d) := rfl
theorem mman (c : Ctl) (ka kb : BitVec 3) (cv : BitVec 4) (ba bb : BitVec 2) (a b r d : Reg) : Statement (.mman c ka kb cv ba bb a b r d) := rfl
theorem merr (c : Ctl) (d : Reg) : Statement (.merr c d) := rfl
theorem plpack (c : Ctl) (p : BitVec 3) (d a : Reg) : Statement (.plpack c p d a) := rfl
theorem plunpk (c : Ctl) (k : BitVec 3) (val : Bool) (d a : Reg) (stride : BitVec 8) (chunk : BitVec 3) : Statement (.plunpk c k val d a stride chunk) := rfl
theorem bscale (c : Ctl) (tgt : ScaleTgt) (d a : Reg) : Statement (.bscale c tgt d a) := rfl
theorem sccv (c : Ctl) (tgt : ScaleTgt) (sat : Bool) (m : RMode) (dby sby : BitVec 2) (d a b : Reg) : Statement (.sccv c tgt sat m dby sby d a b) := rfl
theorem mred (c : Ctl) (bf init : Bool) (d a b r : Reg) : Statement (.mred c bf init d a b r) := rfl
theorem mrsc (c : Ctl) (bf : Bool) (a b r : Reg) : Statement (.mrsc c bf a b r) := rfl
theorem qpush (c : Ctl) (q : Queue) (a : Reg) : Statement (.qpush c q a) := rfl
theorem qpop (c : Ctl) (d : Reg) (q : Queue) : Statement (.qpop c d q) := rfl
theorem qtry (c : Ctl) (d : Reg) (q : Queue) : Statement (.qtry c d q) := rfl
theorem qlvl (c : Ctl) (d : Reg) (q : Queue) : Statement (.qlvl c d q) := rfl
theorem cpyt (c : Ctl) (st : Bool) (a b r d : Reg) : Statement (.cpyt c st a b r d) := rfl
theorem cpyl (c : Ctl) (dir : CopyDir) (a b r d : Reg) : Statement (.cpyl c dir a b r d) := rfl
theorem cpyh (c : Ctl) (put : Bool) (a b r : Reg) : Statement (.cpyh c put a b r) := rfl
theorem gath (c : Ctl) (l2 : Bool) (a b : Reg) : Statement (.gath c l2 a b) := rfl
theorem scat (c : Ctl) (a b : Reg) : Statement (.scat c a b) := rfl
theorem layx (c : Ctl) (a b : Reg) : Statement (.layx c a b) := rfl
theorem waitc (c : Ctl) (cls : CntClass) (n : BitVec 6) : Statement (.waitc c cls n) := rfl
theorem send (c : Ctl) (g : Bool) (a b : Reg) : Statement (.send c g a b) := rfl
theorem sendl (c : Ctl) (g : Bool) (a b : Reg) : Statement (.sendl c g a b) := rfl
theorem postr (c : Ctl) (d a : Reg) : Statement (.postr c d a) := rfl
theorem canrv (c : Ctl) (d a : Reg) : Statement (.canrv c d a) := rfl
theorem probe (c : Ctl) (d a : Reg) : Statement (.probe c d a) := rfl
theorem mfsr (c : Ctl) (w : Bool) (d : Reg) (num : BitVec 16) : Statement (.mfsr c w d num) := rfl
theorem mtsr (c : Ctl) (w : Bool) (num : BitVec 16) (a : Reg) : Statement (.mtsr c w num a) := rfl
theorem rte (c : Ctl) (act : RteAct) (d a : Reg) : Statement (.rte c act d a) := rfl
theorem ctxsv (c : Ctl) (d a b : Reg) : Statement (.ctxsv c d a b) := rfl
theorem ctxld (c : Ctl) (d a b : Reg) : Statement (.ctxld c d a b) := rfl
theorem tinv (c : Ctl) (d a : Reg) : Statement (.tinv c d a) := rfl
theorem prsrs (c : Ctl) (act : ResAct) (d a : Reg) : Statement (.prsrs c act d a) := rfl
theorem halt (c : Ctl) (d a : Reg) : Statement (.halt c d a) := rfl
theorem idle (c : Ctl) (d : Reg) : Statement (.idle c d) := rfl
theorem fwsig (c : Ctl) (d a : Reg) : Statement (.fwsig c d a) := rfl
theorem keyld (c : Ctl) (d a b : Reg) : Statement (.keyld c d a b) := rfl
theorem tckt (c : Ctl) (clr : Bool) (d a b : Reg) : Statement (.tckt c clr d a b) := rfl
theorem scrub (c : Ctl) (tgt : ScrubTgt) (d a b : Reg) : Statement (.scrub c tgt d a b) := rfl
theorem dbgrd (c : Ctl) (d a b : Reg) : Statement (.dbgrd c d a b) := rfl
theorem dbgwr (c : Ctl) (d a b r : Reg) : Statement (.dbgwr c d a b r) := rfl
theorem variableResultReturn (op : Nat) : Statement (.variableResultReturn op) := rfl
theorem engineOperandRelease (cmd : Nat) : Statement (.engineOperandRelease cmd) := rfl
theorem matrixOperandRead (mop core q : Nat) : Statement (.matrixOperandRead mop core q) := rfl
theorem matrixComplete (mop : Nat) (errs : List MatErr) : Statement (.matrixComplete mop errs) := rfl
theorem waycfgComplete (op : Nat) : Statement (.waycfgComplete op) := rfl
theorem engineTake (cmd : Nat) : Statement (.engineTake cmd) := rfl
theorem engineComplete (cmd : Nat) : Statement (.engineComplete cmd) := rfl
theorem mergeTableFullRetry (die : Nat) : Statement (.mergeTableFullRetry die) := rfl
theorem faultRecordWrite (die : Nat) : Statement (.faultRecordWrite die) := rfl
theorem overflowMoveIn (die : Nat) : Statement (.overflowMoveIn die) := rfl
theorem ingressHeldEnterRing (die : Nat) : Statement (.ingressHeldEnterRing die) := rfl
theorem resolveReplay (fn die : Nat) (w : WinWrite) : Statement (.resolveReplay fn die w) := rfl
theorem resolvePoison (fn die : Nat) (w : WinWrite) : Statement (.resolvePoison fn die w) := rfl
theorem resolveKill (fn die : Nat) (w : WinWrite) : Statement (.resolveKill fn die w) := rfl
theorem resolutionDiscard (fn die : Nat) (w : WinWrite) : Statement (.resolutionDiscard fn die w) := rfl
theorem faultQueueTailWrite (fn die : Nat) (w : WinWrite) : Statement (.faultQueueTailWrite fn die w) := rfl
theorem requesterReplay (die entry : Nat) : Statement (.requesterReplay die entry) := rfl
theorem sealedPageImport (die req : Nat) : Statement (.sealedPageImport die req) := rfl
theorem swaitTableFullRecheck (die wave lane : Nat) : Statement (.swaitTableFullRecheck die wave lane) := rfl
theorem swappedRecheck (wg wave lane : Nat) : Statement (.swappedRecheck wg wave lane) := rfl
theorem swapOut (node : Nat) : Statement (.swapOut node) := rfl
theorem swapRestore (node die : Nat) (cores : List (List Nat)) : Statement (.swapRestore node die cores) := rfl
theorem doorbellWrite (fn ctx q : Nat) (count : BitVec 64) : Statement (.doorbellWrite fn ctx q count) := rfl
theorem commandTake (ctx q : Nat) : Statement (.commandTake ctx q) := rfl
theorem semaphoreRecheck (node : Nat) : Statement (.semaphoreRecheck node) := rfl
theorem nodeEligible (node : Nat) : Statement (.nodeEligible node) := rfl
theorem dispatch : Statement (.dispatch) := rfl
theorem workgroupPlace (node die : Nat) (cores : List (List Nat)) : Statement (.workgroupPlace node die cores) := rfl
theorem threadStart (gang : Nat) : Statement (.threadStart gang) := rfl
theorem workgroupRetire (wg : Nat) : Statement (.workgroupRetire wg) := rfl
theorem preemptVictim (node : Nat) : Statement (.preemptVictim node) := rfl
theorem graceExpiry (node : Nat) : Statement (.graceExpiry node) := rfl
theorem preclaimRefill (die node : Nat) : Statement (.preclaimRefill die node) := rfl
theorem headerArrival (msg : Nat) : Statement (.headerArrival msg) := rfl
theorem headerAccept (msg : Nat) : Statement (.headerAccept msg) := rfl
theorem headerRefuse (msg : Nat) : Statement (.headerRefuse msg) := rfl
theorem headerRetry (msg : Nat) : Statement (.headerRetry msg) := rfl
theorem payloadBlockArrival (msg block : Nat) : Statement (.payloadBlockArrival msg block) := rfl
theorem endMarkerArrival (msg : Nat) : Statement (.endMarkerArrival msg) := rfl
theorem endAcknowledgement (msg : Nat) : Statement (.endAcknowledgement msg) := rfl
theorem receiveCompletionRelease (wave : Nat) : Statement (.receiveCompletionRelease wave) := rfl
theorem wcbDrain (core idx : Nat) : Statement (.wcbDrain core idx) := rfl
theorem fabricAccessArrival (acc : FabricAccess) : Statement (.fabricAccessArrival acc) := rfl
theorem flitReceive (port : Nat) (flit : List Byte) : Statement (.flitReceive port flit) := rfl
theorem nackReceive (port cls seq : Nat) : Statement (.nackReceive port cls seq) := rfl
theorem replayTimeout (port cls : Nat) : Statement (.replayTimeout port cls) := rfl
theorem ackInterval (port cls : Nat) : Statement (.ackInterval port cls) := rfl
theorem portFail (port cause : Nat) : Statement (.portFail port cause) := rfl
theorem linkTraining (port : Nat) (trained : Bool) (peer : Nat) (report : PeerReport) (share sig : List Byte) : Statement (.linkTraining port trained peer report share sig) := rfl
theorem keyEpochSwitch (die kind slot : Nat) : Statement (.keyEpochSwitch die kind slot) := rfl
theorem eviction (at_ : CacheAt) (sector : Nat) : Statement (.eviction at_ sector) := rfl
theorem hostCxlAccess (write : Bool) (target : CxlAddr) (data : List Byte) : Statement (.hostCxlAccess write target data) := rfl
theorem trbTailWrite (die : Nat) (v : BitVec 32) : Statement (.trbTailWrite die v) := rfl
theorem evpendWrite (die : Nat) (v : BitVec 32) : Statement (.evpendWrite die v) := rfl
theorem timerExpiry (die : Nat) : Statement (.timerExpiry die) := rfl
theorem registerWrite (fn : Nat) (r : HostReg) (v : BitVec 64) : Statement (.registerWrite fn r v) := rfl
theorem ident (fn : Nat) : Statement (.ident fn) := rfl
theorem attest (fn : Nat) (nonce : List Byte) (addr : Nat) : Statement (.attest fn nonce addr) := rfl
theorem ctxcrt (fn : Nat) : Statement (.ctxcrt fn) := rfl
theorem ctxend (fn ctx : Nat) : Statement (.ctxend fn ctx) := rfl
theorem asidrt (fn vmid asid : Nat) : Statement (.asidrt fn vmid asid) := rfl
theorem s2root (fn vmid root : Nat) : Statement (.s2root fn vmid root) := rfl
theorem pageout (fn ctx va addr : Nat) : Statement (.pageout fn ctx va addr) := rfl
theorem partset (fn : Nat) (parts : List (List Nat)) : Statement (.partset fn parts) := rfl
theorem hrun (fn : Nat) (runs : List HostRun) : Statement (.hrun fn runs) := rfl
theorem pamtld (fn : Nat) (ranges : List PamtRange) : Statement (.pamtld fn ranges) := rfl
theorem apert (fn ctx idx : Nat) (desc : Aperture) : Statement (.apert fn ctx idx desc) := rfl
theorem exportWin (fn win : Nat) (entry : ImportEntry) : Statement (.exportWin fn win entry) := rfl
theorem revoke (fn win : Nat) : Statement (.revoke fn win) := rfl
theorem sopen (fn : Nat) (ctxs : List Nat) (hbt grc : Option Nat) (verifierKey : List Byte) : Statement (.sopen fn ctxs hbt grc verifierKey) := rfl
theorem sbeat (fn : Nat) (counter : BitVec 64) (tag : List Byte) : Statement (.sbeat fn counter tag) := rfl
theorem sresume (fn : Nat) (counter : BitVec 64) (tag : List Byte) : Statement (.sresume fn counter tag) := rfl
theorem sclose (fn : Nat) : Statement (.sclose fn) := rfl
theorem stage (fn kind idx : Nat) (img : Image) : Statement (.stage fn kind idx img) := rfl
theorem activateLive (fn kind idx : Nat) : Statement (.activateLive fn kind idx) := rfl
theorem activateNextReset (fn kind idx : Nat) : Statement (.activateNextReset fn kind idx) := rfl
theorem manifest (fn : Nat) (m : Manifest) : Statement (.manifest fn m) := rfl
theorem floor (fn : Nat) : Statement (.floor fn) := rfl
theorem sreg (fn die : Nat) (write : Bool) (num : Nat) (value : BitVec 64) : Statement (.sreg fn die write num value) := rfl
theorem lossdrop (fn : Nat) (value : BitVec 128) : Statement (.lossdrop fn value) := rfl
theorem telem (fn : Nat) : Statement (.telem fn) := rfl
theorem hrtset (fn : Nat) (stack : Option Nat) (value : Nat) : Statement (.hrtset fn stack value) := rfl
theorem mailboxUnknownCommand (fn : Nat) : Statement (.mailboxUnknownCommand fn) := rfl
theorem activationWatchdog : Statement (.activationWatchdog) := rfl
theorem heartbeatExpiry (session : Nat) : Statement (.heartbeatExpiry session) := rfl
theorem sessionGraceEnd (session : Nat) : Statement (.sessionGraceEnd session) := rfl
theorem start (cold : Bool) : Statement (.start cold) := rfl
theorem startFail (reason kind : Nat) (failed : FailedUnits) : Statement (.startFail reason kind failed) := rfl
theorem thermalThrottle (die : Nat) : Statement (.thermalThrottle die) := rfl
theorem thermalShutdown (chiplet : Nat) : Statement (.thermalShutdown chiplet) := rfl
theorem droopDetect (die : Nat) : Statement (.droopDetect die) := rfl
theorem droopRecover (die : Nat) : Statement (.droopRecover die) := rfl
theorem marginReplan (plan : MarginStep) : Statement (.marginReplan plan) := rfl
theorem hotRowThrottle (stack row : Nat) : Statement (.hotRowThrottle stack row) := rfl
theorem targetedRefresh (stack row : Nat) : Statement (.targetedRefresh stack row) := rfl
theorem throttleInterval (stack row : Nat) : Statement (.throttleInterval stack row) := rfl
theorem phaseComplete (op : Nat) : Statement (.phaseComplete op) := rfl
theorem cmaintComplete (op : Nat) : Statement (.cmaintComplete op) := rfl
theorem accumulatorComplete (op : Nat) : Statement (.accumulatorComplete op) := rfl
theorem cxlCacheSnoop (die sector : Nat) (update : Option (List Byte)) : Statement (.cxlCacheSnoop die sector update) := rfl
theorem startSucceeds : Statement (.startSucceeds) := rfl
theorem imageReportsReady : Statement (.imageReportsReady) := rfl
theorem thermalThrottleEnd (die : Nat) : Statement (.thermalThrottleEnd die) := rfl
theorem powerShareReached (die : Nat) : Statement (.powerShareReached die) := rfl

end Sys2Proof.Laws.Worded
end

