-- ==== Sys2Proof/Laws/Placement.lean ====
section
/-! SUPPORT. What a ticket is (R410). -/

namespace Sys2Proof.Machine

/-- A ticket is never 0 (R410). -/
theorem freshTicket_ne_zero (given : List (BitVec 64)) (drawn : BitVec 64) : freshTicket given drawn ≠ 0 := by
  unfold freshTicket
  split
  · rename_i h; simp at h; exact h.1
  · cases h : ((List.range (given.length + 1)).map fun k => BitVec.ofNat 64 (k + 1)).find? fun x => x != 0 && !given.contains x with
    | none => simp
    | some v => have := List.find?_some h; simp at this; simpa using this.1

/-- A ticket is none of those given before (R410). -/
theorem freshTicket_not_given (given : List (BitVec 64)) (drawn : BitVec 64) (hg : given.length + 1 < 2 ^ 64) :
    freshTicket given drawn ∉ given := by
  unfold freshTicket
  split
  · rename_i h; simp at h; exact h.2
  · cases h : ((List.range (given.length + 1)).map fun k => BitVec.ofNat 64 (k + 1)).find? fun x => x != 0 && !given.contains x with
    | some v => have := List.find?_some h; simp at this; simpa using this.2
    | none =>
      exfalso
      have hn : ((List.range (given.length + 1)).map fun k => BitVec.ofNat 64 (k + 1)).Nodup := by
        refine List.Nodup.map_on ?_ List.nodup_range
        intro a ha b hb e
        have := congrArg BitVec.toNat e
        simp only [BitVec.toNat_ofNat, List.mem_range] at *
        omega
      have hs : ((List.range (given.length + 1)).map fun k => BitVec.ofNat 64 (k + 1)) ⊆ given := by
        intro x hx
        have h1 := List.find?_eq_none.mp h x hx
        obtain ⟨k, hk, rfl⟩ := List.mem_map.mp hx
        by_contra hc
        apply h1
        simp only [List.contains_eq_mem, hc, decide_false, Bool.not_false, Bool.and_true, bne_iff_ne, ne_eq]
        intro e
        have := congrArg BitVec.toNat e
        rw [List.mem_range] at hk
        rw [BitVec.toNat_ofNat, Nat.mod_eq_of_lt (by omega)] at this
        simp at this
      have := (hn.subperm hs).length_le
      simp at this

end Sys2Proof.Machine
end

