-- ==== Sys2Proof/Laws/Rows.lean ====
section
/-! SUPPORT. What a side queue can do to a request (R404), and what a step of a link end can be (R413). -/

namespace Sys2Proof.Machine

/-- A row changed touches nothing else. -/
theorem State.modRow_eq (s : State) (stack row : Nat) (f : HotRow → HotRow) :
    s.modRow stack row f = { s with hotRows := s.hotRows.map fun h => if h.1 = stack ∧ h.2.row = row then (h.1, f h.2) else h } := rfl

/-- Where no row is throttled, a change of one changes nothing. -/
@[simp] theorem State.modRow_none {s : State} (h : s.hotRows = []) (stack row : Nat) (f : HotRow → HotRow) : s.modRow stack row f = s := by
  cases s; simp_all [State.modRow]

/-- Where no row is throttled, no request waits for one. -/
@[simp] theorem State.rowShut_none {s : State} (h : s.hotRows = []) (who : ReqKind) (a : Nat) : s.rowShut who a = false := by
  unfold State.rowShut; cases s.rowOf? a <;> simp [h]

/-- Where no row is throttled, no request enters a side queue. -/
@[simp] theorem State.joinRow_none {s : State} (h : s.hotRows = []) (who : ReqKind) (a : Nat) : s.joinRow who a = s := by
  unfold State.joinRow; cases s.rowOf? a <;> simp [h]

/-- Where no row is throttled, an activation is only counted. -/
theorem State.activate_none {s : State} (h : s.hotRows = []) (a : Nat) :
    s.activate a = match s.rowOf? a with | some (stack, row) => s.countRow stack row | none => s := by
  unfold State.activate; cases s.rowOf? a <;> simp [h]

/-- Where no row is throttled, a request for ranges of bytes goes on, and its rows are activated. -/
theorem State.rowGate_none {s : State} (h : s.hotRows = []) (who : ReqKind) (l : List (Nat × Nat)) :
    s.rowGate who l = (true, (s.rowAddrs l).foldl State.activate s) := by
  have e : (s.rowAddrs l).filter (s.rowShut who) = [] := by simp [List.filter_eq_nil_iff, h]
  simp only [State.rowGate, e]

/-- Every step of a link end: none, a switch of what it sends, or the old key dropped for the next. -/
theorem KeySlot.step_cases (me far : KeySlot) :
    me.step far = me ∨ (∃ e, me.nxt = some e ∧ far.has e.1 = true ∧ me.step far = { me with sending := true }) ∨
      ∃ e, me.nxt = some e ∧ far.sends e.1 = true ∧ me.step far = ⟨some e, none, false⟩ := by
  unfold KeySlot.step
  cases hn : me.nxt with
  | none => exact .inl rfl
  | some e =>
    cases hs : far.sends e.1 with
    | true => exact .inr (.inr ⟨e, rfl, hs, by simp [hs]⟩)
    | false =>
      cases hh : far.has e.1 with
      | true => exact .inr (.inl ⟨e, rfl, hh, by simp [hs, hh]⟩)
      | false => exact .inl (by simp [hs, hh])

end Sys2Proof.Machine
end

