-- ==== Sys2Proof/Laws/State.lean ====
section
/-! SUPPORT. What each update of the state leaves of each field: true by unfolding, so that no later proof unfolds a record update. -/

namespace Sys2Proof.Machine

/-! ### When a wave is replaced -/

@[simp] theorem State.setWave_tick (s : State) (k : Nat) (w : Wave) : (s.setWave k w).tick = s.tick := rfl
@[simp] theorem State.setWave_agenda (s : State) (k : Nat) (w : Wave) : (s.setWave k w).agenda = s.agenda := rfl
@[simp] theorem State.setWave_cur (s : State) (k : Nat) (w : Wave) : (s.setWave k w).cur = s.cur := rfl
@[simp] theorem State.setWave_nextId (s : State) (k : Nat) (w : Wave) : (s.setWave k w).nextId = s.nextId := rfl
@[simp] theorem State.setWave_waves (s : State) (k : Nat) (w : Wave) : (s.setWave k w).waves = FMap.set s.waves k w := rfl
@[simp] theorem State.setWave_ops (s : State) (k : Nat) (w : Wave) : (s.setWave k w).ops = s.ops := rfl
@[simp] theorem State.setWave_wgs (s : State) (k : Nat) (w : Wave) : (s.setWave k w).wgs = s.wgs := rfl
@[simp] theorem State.setWave_gangs (s : State) (k : Nat) (w : Wave) : (s.setWave k w).gangs = s.gangs := rfl
@[simp] theorem State.setWave_cores (s : State) (k : Nat) (w : Wave) : (s.setWave k w).cores = s.cores := rfl
@[simp] theorem State.setWave_dies (s : State) (k : Nat) (w : Wave) : (s.setWave k w).dies = s.dies := rfl
@[simp] theorem State.setWave_frames (s : State) (k : Nat) (w : Wave) : (s.setWave k w).frames = s.frames := rfl
@[simp] theorem State.setWave_cmds (s : State) (k : Nat) (w : Wave) : (s.setWave k w).cmds = s.cmds := rfl
@[simp] theorem State.setWave_locks (s : State) (k : Nat) (w : Wave) : (s.setWave k w).locks = s.locks := rfl
@[simp] theorem State.setWave_mops (s : State) (k : Nat) (w : Wave) : (s.setWave k w).mops = s.mops := rfl
@[simp] theorem State.setWave_ctxs (s : State) (k : Nat) (w : Wave) : (s.setWave k w).ctxs = s.ctxs := rfl
@[simp] theorem State.setWave_nodes (s : State) (k : Nat) (w : Wave) : (s.setWave k w).nodes = s.nodes := rfl
@[simp] theorem State.setWave_msgs (s : State) (k : Nat) (w : Wave) : (s.setWave k w).msgs = s.msgs := rfl
@[simp] theorem State.setWave_mem (s : State) (k : Nat) (w : Wave) : (s.setWave k w).mem = s.mem := rfl
@[simp] theorem State.setWave_hostMem (s : State) (k : Nat) (w : Wave) : (s.setWave k w).hostMem = s.hostMem := rfl
@[simp] theorem State.setWave_hostCopies (s : State) (k : Nat) (w : Wave) : (s.setWave k w).hostCopies = s.hostCopies := rfl
@[simp] theorem State.setWave_pamt (s : State) (k : Nat) (w : Wave) : (s.setWave k w).pamt = s.pamt := rfl
@[simp] theorem State.setWave_runs (s : State) (k : Nat) (w : Wave) : (s.setWave k w).runs = s.runs := rfl
@[simp] theorem State.setWave_imports (s : State) (k : Nat) (w : Wave) : (s.setWave k w).imports = s.imports := rfl
@[simp] theorem State.setWave_revoking (s : State) (k : Nat) (w : Wave) : (s.setWave k w).revoking = s.revoking := rfl
@[simp] theorem State.setWave_s2roots (s : State) (k : Nat) (w : Wave) : (s.setWave k w).s2roots = s.s2roots := rfl
@[simp] theorem State.setWave_asids (s : State) (k : Nat) (w : Wave) : (s.setWave k w).asids = s.asids := rfl
@[simp] theorem State.setWave_parts (s : State) (k : Nat) (w : Wave) : (s.setWave k w).parts = s.parts := rfl
@[simp] theorem State.setWave_fns (s : State) (k : Nat) (w : Wave) : (s.setWave k w).fns = s.fns := rfl
@[simp] theorem State.setWave_irqs (s : State) (k : Nat) (w : Wave) : (s.setWave k w).irqs = s.irqs := rfl
@[simp] theorem State.setWave_pkg (s : State) (k : Nat) (w : Wave) : (s.setWave k w).pkg = s.pkg := rfl
@[simp] theorem State.setWave_ports (s : State) (k : Nat) (w : Wave) : (s.setWave k w).ports = s.ports := rfl
@[simp] theorem State.setWave_flitsOut (s : State) (k : Nat) (w : Wave) : (s.setWave k w).flitsOut = s.flitsOut := rfl
@[simp] theorem State.setWave_flitsWait (s : State) (k : Nat) (w : Wave) : (s.setWave k w).flitsWait = s.flitsWait := rfl
@[simp] theorem State.setWave_flows (s : State) (k : Nat) (w : Wave) : (s.setWave k w).flows = s.flows := rfl
@[simp] theorem State.setWave_eseqTx (s : State) (k : Nat) (w : Wave) : (s.setWave k w).eseqTx = s.eseqTx := rfl
@[simp] theorem State.setWave_eseqAck (s : State) (k : Nat) (w : Wave) : (s.setWave k w).eseqAck = s.eseqAck := rfl
@[simp] theorem State.setWave_early (s : State) (k : Nat) (w : Wave) : (s.setWave k w).early = s.early := rfl
@[simp] theorem State.setWave_heldFlits (s : State) (k : Nat) (w : Wave) : (s.setWave k w).heldFlits = s.heldFlits := rfl
@[simp] theorem State.setWave_cxlLinks (s : State) (k : Nat) (w : Wave) : (s.setWave k w).cxlLinks = s.cxlLinks := rfl
@[simp] theorem State.setWave_tickets (s : State) (k : Nat) (w : Wave) : (s.setWave k w).tickets = s.tickets := rfl
@[simp] theorem State.setWave_replanStep (s : State) (k : Nat) (w : Wave) : (s.setWave k w).replanStep = s.replanStep := rfl
@[simp] theorem State.setWave_eseqRx (s : State) (k : Nat) (w : Wave) : (s.setWave k w).eseqRx = s.eseqRx := rfl
@[simp] theorem State.setWave_fabricReqs (s : State) (k : Nat) (w : Wave) : (s.setWave k w).fabricReqs = s.fabricReqs := rfl
@[simp] theorem State.setWave_unitFabric (s : State) (k : Nat) (w : Wave) : (s.setWave k w).unitFabric = s.unitFabric := rfl
@[simp] theorem State.setWave_fabricAnswers (s : State) (k : Nat) (w : Wave) : (s.setWave k w).fabricAnswers = s.fabricAnswers := rfl
@[simp] theorem State.setWave_lossdrop (s : State) (k : Nat) (w : Wave) : (s.setWave k w).lossdrop = s.lossdrop := rfl
@[simp] theorem State.setWave_telem (s : State) (k : Nat) (w : Wave) : (s.setWave k w).telem = s.telem := rfl
@[simp] theorem State.setWave_units (s : State) (k : Nat) (w : Wave) : (s.setWave k w).units = s.units := rfl
@[simp] theorem State.setWave_manifest (s : State) (k : Nat) (w : Wave) : (s.setWave k w).manifest = s.manifest := rfl
@[simp] theorem State.setWave_floors (s : State) (k : Nat) (w : Wave) : (s.setWave k w).floors = s.floors := rfl
@[simp] theorem State.setWave_activation (s : State) (k : Nat) (w : Wave) : (s.setWave k w).activation = s.activation := rfl
@[simp] theorem State.setWave_heldBells (s : State) (k : Nat) (w : Wave) : (s.setWave k w).heldBells = s.heldBells := rfl
@[simp] theorem State.setWave_sessions (s : State) (k : Nat) (w : Wave) : (s.setWave k w).sessions = s.sessions := rfl
@[simp] theorem State.setWave_drawn (s : State) (k : Nat) (w : Wave) : (s.setWave k w).drawn = s.drawn := rfl
@[simp] theorem State.setWave_keyWraps (s : State) (k : Nat) (w : Wave) : (s.setWave k w).keyWraps = s.keyWraps := rfl
@[simp] theorem State.setWave_ioKeys (s : State) (k : Nat) (w : Wave) : (s.setWave k w).ioKeys = s.ioKeys := rfl
@[simp] theorem State.setWave_baseKeys (s : State) (k : Nat) (w : Wave) : (s.setWave k w).baseKeys = s.baseKeys := rfl
@[simp] theorem State.setWave_bootCount (s : State) (k : Nat) (w : Wave) : (s.setWave k w).bootCount = s.bootCount := rfl
@[simp] theorem State.setWave_boot (s : State) (k : Nat) (w : Wave) : (s.setWave k w).boot = s.boot := rfl
@[simp] theorem State.setWave_startDue (s : State) (k : Nat) (w : Wave) : (s.setWave k w).startDue = s.startDue := rfl
@[simp] theorem State.setWave_replanDue (s : State) (k : Nat) (w : Wave) : (s.setWave k w).replanDue = s.replanDue := rfl
@[simp] theorem State.setWave_minimal (s : State) (k : Nat) (w : Wave) : (s.setWave k w).minimal = s.minimal := rfl
@[simp] theorem State.setWave_fails (s : State) (k : Nat) (w : Wave) : (s.setWave k w).fails = s.fails := rfl
@[simp] theorem State.setWave_bootRecord (s : State) (k : Nat) (w : Wave) : (s.setWave k w).bootRecord = s.bootRecord := rfl
@[simp] theorem State.setWave_hrt (s : State) (k : Nat) (w : Wave) : (s.setWave k w).hrt = s.hrt := rfl
@[simp] theorem State.setWave_rowActs (s : State) (k : Nat) (w : Wave) : (s.setWave k w).rowActs = s.rowActs := rfl
@[simp] theorem State.setWave_hotRows (s : State) (k : Nat) (w : Wave) : (s.setWave k w).hotRows = s.hotRows := rfl
@[simp] theorem State.setWave_powerOff (s : State) (k : Nat) (w : Wave) : (s.setWave k w).powerOff = s.powerOff := rfl
@[simp] theorem State.setWave_usec (s : State) (k : Nat) (w : Wave) : (s.setWave k w).usec = s.usec := rfl

/-! ### When a core is changed -/

@[simp] theorem State.modCore_tick (s : State) (k : Nat) (f : Core → Core) : (s.modCore k f).tick = s.tick := rfl
@[simp] theorem State.modCore_agenda (s : State) (k : Nat) (f : Core → Core) : (s.modCore k f).agenda = s.agenda := rfl
@[simp] theorem State.modCore_cur (s : State) (k : Nat) (f : Core → Core) : (s.modCore k f).cur = s.cur := rfl
@[simp] theorem State.modCore_nextId (s : State) (k : Nat) (f : Core → Core) : (s.modCore k f).nextId = s.nextId := rfl
@[simp] theorem State.modCore_waves (s : State) (k : Nat) (f : Core → Core) : (s.modCore k f).waves = s.waves := rfl
@[simp] theorem State.modCore_ops (s : State) (k : Nat) (f : Core → Core) : (s.modCore k f).ops = s.ops := rfl
@[simp] theorem State.modCore_wgs (s : State) (k : Nat) (f : Core → Core) : (s.modCore k f).wgs = s.wgs := rfl
@[simp] theorem State.modCore_gangs (s : State) (k : Nat) (f : Core → Core) : (s.modCore k f).gangs = s.gangs := rfl
@[simp] theorem State.modCore_cores (s : State) (k : Nat) (f : Core → Core) : (s.modCore k f).cores = FMap.set s.cores k (f (s.core k)) := rfl
@[simp] theorem State.modCore_dies (s : State) (k : Nat) (f : Core → Core) : (s.modCore k f).dies = s.dies := rfl
@[simp] theorem State.modCore_frames (s : State) (k : Nat) (f : Core → Core) : (s.modCore k f).frames = s.frames := rfl
@[simp] theorem State.modCore_cmds (s : State) (k : Nat) (f : Core → Core) : (s.modCore k f).cmds = s.cmds := rfl
@[simp] theorem State.modCore_locks (s : State) (k : Nat) (f : Core → Core) : (s.modCore k f).locks = s.locks := rfl
@[simp] theorem State.modCore_mops (s : State) (k : Nat) (f : Core → Core) : (s.modCore k f).mops = s.mops := rfl
@[simp] theorem State.modCore_ctxs (s : State) (k : Nat) (f : Core → Core) : (s.modCore k f).ctxs = s.ctxs := rfl
@[simp] theorem State.modCore_nodes (s : State) (k : Nat) (f : Core → Core) : (s.modCore k f).nodes = s.nodes := rfl
@[simp] theorem State.modCore_msgs (s : State) (k : Nat) (f : Core → Core) : (s.modCore k f).msgs = s.msgs := rfl
@[simp] theorem State.modCore_mem (s : State) (k : Nat) (f : Core → Core) : (s.modCore k f).mem = s.mem := rfl
@[simp] theorem State.modCore_hostMem (s : State) (k : Nat) (f : Core → Core) : (s.modCore k f).hostMem = s.hostMem := rfl
@[simp] theorem State.modCore_hostCopies (s : State) (k : Nat) (f : Core → Core) : (s.modCore k f).hostCopies = s.hostCopies := rfl
@[simp] theorem State.modCore_pamt (s : State) (k : Nat) (f : Core → Core) : (s.modCore k f).pamt = s.pamt := rfl
@[simp] theorem State.modCore_runs (s : State) (k : Nat) (f : Core → Core) : (s.modCore k f).runs = s.runs := rfl
@[simp] theorem State.modCore_imports (s : State) (k : Nat) (f : Core → Core) : (s.modCore k f).imports = s.imports := rfl
@[simp] theorem State.modCore_revoking (s : State) (k : Nat) (f : Core → Core) : (s.modCore k f).revoking = s.revoking := rfl
@[simp] theorem State.modCore_s2roots (s : State) (k : Nat) (f : Core → Core) : (s.modCore k f).s2roots = s.s2roots := rfl
@[simp] theorem State.modCore_asids (s : State) (k : Nat) (f : Core → Core) : (s.modCore k f).asids = s.asids := rfl
@[simp] theorem State.modCore_parts (s : State) (k : Nat) (f : Core → Core) : (s.modCore k f).parts = s.parts := rfl
@[simp] theorem State.modCore_fns (s : State) (k : Nat) (f : Core → Core) : (s.modCore k f).fns = s.fns := rfl
@[simp] theorem State.modCore_irqs (s : State) (k : Nat) (f : Core → Core) : (s.modCore k f).irqs = s.irqs := rfl
@[simp] theorem State.modCore_pkg (s : State) (k : Nat) (f : Core → Core) : (s.modCore k f).pkg = s.pkg := rfl
@[simp] theorem State.modCore_ports (s : State) (k : Nat) (f : Core → Core) : (s.modCore k f).ports = s.ports := rfl
@[simp] theorem State.modCore_flitsOut (s : State) (k : Nat) (f : Core → Core) : (s.modCore k f).flitsOut = s.flitsOut := rfl
@[simp] theorem State.modCore_flitsWait (s : State) (k : Nat) (f : Core → Core) : (s.modCore k f).flitsWait = s.flitsWait := rfl
@[simp] theorem State.modCore_flows (s : State) (k : Nat) (f : Core → Core) : (s.modCore k f).flows = s.flows := rfl
@[simp] theorem State.modCore_eseqTx (s : State) (k : Nat) (f : Core → Core) : (s.modCore k f).eseqTx = s.eseqTx := rfl
@[simp] theorem State.modCore_eseqAck (s : State) (k : Nat) (f : Core → Core) : (s.modCore k f).eseqAck = s.eseqAck := rfl
@[simp] theorem State.modCore_early (s : State) (k : Nat) (f : Core → Core) : (s.modCore k f).early = s.early := rfl
@[simp] theorem State.modCore_heldFlits (s : State) (k : Nat) (f : Core → Core) : (s.modCore k f).heldFlits = s.heldFlits := rfl
@[simp] theorem State.modCore_cxlLinks (s : State) (k : Nat) (f : Core → Core) : (s.modCore k f).cxlLinks = s.cxlLinks := rfl
@[simp] theorem State.modCore_tickets (s : State) (k : Nat) (f : Core → Core) : (s.modCore k f).tickets = s.tickets := rfl
@[simp] theorem State.modCore_replanStep (s : State) (k : Nat) (f : Core → Core) : (s.modCore k f).replanStep = s.replanStep := rfl
@[simp] theorem State.modCore_eseqRx (s : State) (k : Nat) (f : Core → Core) : (s.modCore k f).eseqRx = s.eseqRx := rfl
@[simp] theorem State.modCore_fabricReqs (s : State) (k : Nat) (f : Core → Core) : (s.modCore k f).fabricReqs = s.fabricReqs := rfl
@[simp] theorem State.modCore_unitFabric (s : State) (k : Nat) (f : Core → Core) : (s.modCore k f).unitFabric = s.unitFabric := rfl
@[simp] theorem State.modCore_fabricAnswers (s : State) (k : Nat) (f : Core → Core) : (s.modCore k f).fabricAnswers = s.fabricAnswers := rfl
@[simp] theorem State.modCore_lossdrop (s : State) (k : Nat) (f : Core → Core) : (s.modCore k f).lossdrop = s.lossdrop := rfl
@[simp] theorem State.modCore_telem (s : State) (k : Nat) (f : Core → Core) : (s.modCore k f).telem = s.telem := rfl
@[simp] theorem State.modCore_units (s : State) (k : Nat) (f : Core → Core) : (s.modCore k f).units = s.units := rfl
@[simp] theorem State.modCore_manifest (s : State) (k : Nat) (f : Core → Core) : (s.modCore k f).manifest = s.manifest := rfl
@[simp] theorem State.modCore_floors (s : State) (k : Nat) (f : Core → Core) : (s.modCore k f).floors = s.floors := rfl
@[simp] theorem State.modCore_activation (s : State) (k : Nat) (f : Core → Core) : (s.modCore k f).activation = s.activation := rfl
@[simp] theorem State.modCore_heldBells (s : State) (k : Nat) (f : Core → Core) : (s.modCore k f).heldBells = s.heldBells := rfl
@[simp] theorem State.modCore_sessions (s : State) (k : Nat) (f : Core → Core) : (s.modCore k f).sessions = s.sessions := rfl
@[simp] theorem State.modCore_drawn (s : State) (k : Nat) (f : Core → Core) : (s.modCore k f).drawn = s.drawn := rfl
@[simp] theorem State.modCore_keyWraps (s : State) (k : Nat) (f : Core → Core) : (s.modCore k f).keyWraps = s.keyWraps := rfl
@[simp] theorem State.modCore_ioKeys (s : State) (k : Nat) (f : Core → Core) : (s.modCore k f).ioKeys = s.ioKeys := rfl
@[simp] theorem State.modCore_baseKeys (s : State) (k : Nat) (f : Core → Core) : (s.modCore k f).baseKeys = s.baseKeys := rfl
@[simp] theorem State.modCore_bootCount (s : State) (k : Nat) (f : Core → Core) : (s.modCore k f).bootCount = s.bootCount := rfl
@[simp] theorem State.modCore_boot (s : State) (k : Nat) (f : Core → Core) : (s.modCore k f).boot = s.boot := rfl
@[simp] theorem State.modCore_startDue (s : State) (k : Nat) (f : Core → Core) : (s.modCore k f).startDue = s.startDue := rfl
@[simp] theorem State.modCore_replanDue (s : State) (k : Nat) (f : Core → Core) : (s.modCore k f).replanDue = s.replanDue := rfl
@[simp] theorem State.modCore_minimal (s : State) (k : Nat) (f : Core → Core) : (s.modCore k f).minimal = s.minimal := rfl
@[simp] theorem State.modCore_fails (s : State) (k : Nat) (f : Core → Core) : (s.modCore k f).fails = s.fails := rfl
@[simp] theorem State.modCore_bootRecord (s : State) (k : Nat) (f : Core → Core) : (s.modCore k f).bootRecord = s.bootRecord := rfl
@[simp] theorem State.modCore_hrt (s : State) (k : Nat) (f : Core → Core) : (s.modCore k f).hrt = s.hrt := rfl
@[simp] theorem State.modCore_rowActs (s : State) (k : Nat) (f : Core → Core) : (s.modCore k f).rowActs = s.rowActs := rfl
@[simp] theorem State.modCore_hotRows (s : State) (k : Nat) (f : Core → Core) : (s.modCore k f).hotRows = s.hotRows := rfl
@[simp] theorem State.modCore_powerOff (s : State) (k : Nat) (f : Core → Core) : (s.modCore k f).powerOff = s.powerOff := rfl
@[simp] theorem State.modCore_usec (s : State) (k : Nat) (f : Core → Core) : (s.modCore k f).usec = s.usec := rfl

/-! ### When a die is changed -/

@[simp] theorem State.modDie_tick (s : State) (k : Nat) (f : Die → Die) : (s.modDie k f).tick = s.tick := rfl
@[simp] theorem State.modDie_agenda (s : State) (k : Nat) (f : Die → Die) : (s.modDie k f).agenda = s.agenda := rfl
@[simp] theorem State.modDie_cur (s : State) (k : Nat) (f : Die → Die) : (s.modDie k f).cur = s.cur := rfl
@[simp] theorem State.modDie_nextId (s : State) (k : Nat) (f : Die → Die) : (s.modDie k f).nextId = s.nextId := rfl
@[simp] theorem State.modDie_waves (s : State) (k : Nat) (f : Die → Die) : (s.modDie k f).waves = s.waves := rfl
@[simp] theorem State.modDie_ops (s : State) (k : Nat) (f : Die → Die) : (s.modDie k f).ops = s.ops := rfl
@[simp] theorem State.modDie_wgs (s : State) (k : Nat) (f : Die → Die) : (s.modDie k f).wgs = s.wgs := rfl
@[simp] theorem State.modDie_gangs (s : State) (k : Nat) (f : Die → Die) : (s.modDie k f).gangs = s.gangs := rfl
@[simp] theorem State.modDie_cores (s : State) (k : Nat) (f : Die → Die) : (s.modDie k f).cores = s.cores := rfl
@[simp] theorem State.modDie_dies (s : State) (k : Nat) (f : Die → Die) : (s.modDie k f).dies = FMap.set s.dies k (f (s.die k)) := rfl
@[simp] theorem State.modDie_frames (s : State) (k : Nat) (f : Die → Die) : (s.modDie k f).frames = s.frames := rfl
@[simp] theorem State.modDie_cmds (s : State) (k : Nat) (f : Die → Die) : (s.modDie k f).cmds = s.cmds := rfl
@[simp] theorem State.modDie_locks (s : State) (k : Nat) (f : Die → Die) : (s.modDie k f).locks = s.locks := rfl
@[simp] theorem State.modDie_mops (s : State) (k : Nat) (f : Die → Die) : (s.modDie k f).mops = s.mops := rfl
@[simp] theorem State.modDie_ctxs (s : State) (k : Nat) (f : Die → Die) : (s.modDie k f).ctxs = s.ctxs := rfl
@[simp] theorem State.modDie_nodes (s : State) (k : Nat) (f : Die → Die) : (s.modDie k f).nodes = s.nodes := rfl
@[simp] theorem State.modDie_msgs (s : State) (k : Nat) (f : Die → Die) : (s.modDie k f).msgs = s.msgs := rfl
@[simp] theorem State.modDie_mem (s : State) (k : Nat) (f : Die → Die) : (s.modDie k f).mem = s.mem := rfl
@[simp] theorem State.modDie_hostMem (s : State) (k : Nat) (f : Die → Die) : (s.modDie k f).hostMem = s.hostMem := rfl
@[simp] theorem State.modDie_hostCopies (s : State) (k : Nat) (f : Die → Die) : (s.modDie k f).hostCopies = s.hostCopies := rfl
@[simp] theorem State.modDie_pamt (s : State) (k : Nat) (f : Die → Die) : (s.modDie k f).pamt = s.pamt := rfl
@[simp] theorem State.modDie_runs (s : State) (k : Nat) (f : Die → Die) : (s.modDie k f).runs = s.runs := rfl
@[simp] theorem State.modDie_imports (s : State) (k : Nat) (f : Die → Die) : (s.modDie k f).imports = s.imports := rfl
@[simp] theorem State.modDie_revoking (s : State) (k : Nat) (f : Die → Die) : (s.modDie k f).revoking = s.revoking := rfl
@[simp] theorem State.modDie_s2roots (s : State) (k : Nat) (f : Die → Die) : (s.modDie k f).s2roots = s.s2roots := rfl
@[simp] theorem State.modDie_asids (s : State) (k : Nat) (f : Die → Die) : (s.modDie k f).asids = s.asids := rfl
@[simp] theorem State.modDie_parts (s : State) (k : Nat) (f : Die → Die) : (s.modDie k f).parts = s.parts := rfl
@[simp] theorem State.modDie_fns (s : State) (k : Nat) (f : Die → Die) : (s.modDie k f).fns = s.fns := rfl
@[simp] theorem State.modDie_irqs (s : State) (k : Nat) (f : Die → Die) : (s.modDie k f).irqs = s.irqs := rfl
@[simp] theorem State.modDie_pkg (s : State) (k : Nat) (f : Die → Die) : (s.modDie k f).pkg = s.pkg := rfl
@[simp] theorem State.modDie_ports (s : State) (k : Nat) (f : Die → Die) : (s.modDie k f).ports = s.ports := rfl
@[simp] theorem State.modDie_flitsOut (s : State) (k : Nat) (f : Die → Die) : (s.modDie k f).flitsOut = s.flitsOut := rfl
@[simp] theorem State.modDie_flitsWait (s : State) (k : Nat) (f : Die → Die) : (s.modDie k f).flitsWait = s.flitsWait := rfl
@[simp] theorem State.modDie_flows (s : State) (k : Nat) (f : Die → Die) : (s.modDie k f).flows = s.flows := rfl
@[simp] theorem State.modDie_eseqTx (s : State) (k : Nat) (f : Die → Die) : (s.modDie k f).eseqTx = s.eseqTx := rfl
@[simp] theorem State.modDie_eseqAck (s : State) (k : Nat) (f : Die → Die) : (s.modDie k f).eseqAck = s.eseqAck := rfl
@[simp] theorem State.modDie_early (s : State) (k : Nat) (f : Die → Die) : (s.modDie k f).early = s.early := rfl
@[simp] theorem State.modDie_heldFlits (s : State) (k : Nat) (f : Die → Die) : (s.modDie k f).heldFlits = s.heldFlits := rfl
@[simp] theorem State.modDie_cxlLinks (s : State) (k : Nat) (f : Die → Die) : (s.modDie k f).cxlLinks = s.cxlLinks := rfl
@[simp] theorem State.modDie_tickets (s : State) (k : Nat) (f : Die → Die) : (s.modDie k f).tickets = s.tickets := rfl
@[simp] theorem State.modDie_replanStep (s : State) (k : Nat) (f : Die → Die) : (s.modDie k f).replanStep = s.replanStep := rfl
@[simp] theorem State.modDie_eseqRx (s : State) (k : Nat) (f : Die → Die) : (s.modDie k f).eseqRx = s.eseqRx := rfl
@[simp] theorem State.modDie_fabricReqs (s : State) (k : Nat) (f : Die → Die) : (s.modDie k f).fabricReqs = s.fabricReqs := rfl
@[simp] theorem State.modDie_unitFabric (s : State) (k : Nat) (f : Die → Die) : (s.modDie k f).unitFabric = s.unitFabric := rfl
@[simp] theorem State.modDie_fabricAnswers (s : State) (k : Nat) (f : Die → Die) : (s.modDie k f).fabricAnswers = s.fabricAnswers := rfl
@[simp] theorem State.modDie_lossdrop (s : State) (k : Nat) (f : Die → Die) : (s.modDie k f).lossdrop = s.lossdrop := rfl
@[simp] theorem State.modDie_telem (s : State) (k : Nat) (f : Die → Die) : (s.modDie k f).telem = s.telem := rfl
@[simp] theorem State.modDie_units (s : State) (k : Nat) (f : Die → Die) : (s.modDie k f).units = s.units := rfl
@[simp] theorem State.modDie_manifest (s : State) (k : Nat) (f : Die → Die) : (s.modDie k f).manifest = s.manifest := rfl
@[simp] theorem State.modDie_floors (s : State) (k : Nat) (f : Die → Die) : (s.modDie k f).floors = s.floors := rfl
@[simp] theorem State.modDie_activation (s : State) (k : Nat) (f : Die → Die) : (s.modDie k f).activation = s.activation := rfl
@[simp] theorem State.modDie_heldBells (s : State) (k : Nat) (f : Die → Die) : (s.modDie k f).heldBells = s.heldBells := rfl
@[simp] theorem State.modDie_sessions (s : State) (k : Nat) (f : Die → Die) : (s.modDie k f).sessions = s.sessions := rfl
@[simp] theorem State.modDie_drawn (s : State) (k : Nat) (f : Die → Die) : (s.modDie k f).drawn = s.drawn := rfl
@[simp] theorem State.modDie_keyWraps (s : State) (k : Nat) (f : Die → Die) : (s.modDie k f).keyWraps = s.keyWraps := rfl
@[simp] theorem State.modDie_ioKeys (s : State) (k : Nat) (f : Die → Die) : (s.modDie k f).ioKeys = s.ioKeys := rfl
@[simp] theorem State.modDie_baseKeys (s : State) (k : Nat) (f : Die → Die) : (s.modDie k f).baseKeys = s.baseKeys := rfl
@[simp] theorem State.modDie_bootCount (s : State) (k : Nat) (f : Die → Die) : (s.modDie k f).bootCount = s.bootCount := rfl
@[simp] theorem State.modDie_boot (s : State) (k : Nat) (f : Die → Die) : (s.modDie k f).boot = s.boot := rfl
@[simp] theorem State.modDie_startDue (s : State) (k : Nat) (f : Die → Die) : (s.modDie k f).startDue = s.startDue := rfl
@[simp] theorem State.modDie_replanDue (s : State) (k : Nat) (f : Die → Die) : (s.modDie k f).replanDue = s.replanDue := rfl
@[simp] theorem State.modDie_minimal (s : State) (k : Nat) (f : Die → Die) : (s.modDie k f).minimal = s.minimal := rfl
@[simp] theorem State.modDie_fails (s : State) (k : Nat) (f : Die → Die) : (s.modDie k f).fails = s.fails := rfl
@[simp] theorem State.modDie_bootRecord (s : State) (k : Nat) (f : Die → Die) : (s.modDie k f).bootRecord = s.bootRecord := rfl
@[simp] theorem State.modDie_hrt (s : State) (k : Nat) (f : Die → Die) : (s.modDie k f).hrt = s.hrt := rfl
@[simp] theorem State.modDie_rowActs (s : State) (k : Nat) (f : Die → Die) : (s.modDie k f).rowActs = s.rowActs := rfl
@[simp] theorem State.modDie_hotRows (s : State) (k : Nat) (f : Die → Die) : (s.modDie k f).hotRows = s.hotRows := rfl
@[simp] theorem State.modDie_powerOff (s : State) (k : Nat) (f : Die → Die) : (s.modDie k f).powerOff = s.powerOff := rfl
@[simp] theorem State.modDie_usec (s : State) (k : Nat) (f : Die → Die) : (s.modDie k f).usec = s.usec := rfl

/-! ### When a function is changed -/

@[simp] theorem State.modFn_tick (s : State) (k : Nat) (f : Func → Func) : (s.modFn k f).tick = s.tick := rfl
@[simp] theorem State.modFn_agenda (s : State) (k : Nat) (f : Func → Func) : (s.modFn k f).agenda = s.agenda := rfl
@[simp] theorem State.modFn_cur (s : State) (k : Nat) (f : Func → Func) : (s.modFn k f).cur = s.cur := rfl
@[simp] theorem State.modFn_nextId (s : State) (k : Nat) (f : Func → Func) : (s.modFn k f).nextId = s.nextId := rfl
@[simp] theorem State.modFn_waves (s : State) (k : Nat) (f : Func → Func) : (s.modFn k f).waves = s.waves := rfl
@[simp] theorem State.modFn_ops (s : State) (k : Nat) (f : Func → Func) : (s.modFn k f).ops = s.ops := rfl
@[simp] theorem State.modFn_wgs (s : State) (k : Nat) (f : Func → Func) : (s.modFn k f).wgs = s.wgs := rfl
@[simp] theorem State.modFn_gangs (s : State) (k : Nat) (f : Func → Func) : (s.modFn k f).gangs = s.gangs := rfl
@[simp] theorem State.modFn_cores (s : State) (k : Nat) (f : Func → Func) : (s.modFn k f).cores = s.cores := rfl
@[simp] theorem State.modFn_dies (s : State) (k : Nat) (f : Func → Func) : (s.modFn k f).dies = s.dies := rfl
@[simp] theorem State.modFn_frames (s : State) (k : Nat) (f : Func → Func) : (s.modFn k f).frames = s.frames := rfl
@[simp] theorem State.modFn_cmds (s : State) (k : Nat) (f : Func → Func) : (s.modFn k f).cmds = s.cmds := rfl
@[simp] theorem State.modFn_locks (s : State) (k : Nat) (f : Func → Func) : (s.modFn k f).locks = s.locks := rfl
@[simp] theorem State.modFn_mops (s : State) (k : Nat) (f : Func → Func) : (s.modFn k f).mops = s.mops := rfl
@[simp] theorem State.modFn_ctxs (s : State) (k : Nat) (f : Func → Func) : (s.modFn k f).ctxs = s.ctxs := rfl
@[simp] theorem State.modFn_nodes (s : State) (k : Nat) (f : Func → Func) : (s.modFn k f).nodes = s.nodes := rfl
@[simp] theorem State.modFn_msgs (s : State) (k : Nat) (f : Func → Func) : (s.modFn k f).msgs = s.msgs := rfl
@[simp] theorem State.modFn_mem (s : State) (k : Nat) (f : Func → Func) : (s.modFn k f).mem = s.mem := rfl
@[simp] theorem State.modFn_hostMem (s : State) (k : Nat) (f : Func → Func) : (s.modFn k f).hostMem = s.hostMem := rfl
@[simp] theorem State.modFn_hostCopies (s : State) (k : Nat) (f : Func → Func) : (s.modFn k f).hostCopies = s.hostCopies := rfl
@[simp] theorem State.modFn_pamt (s : State) (k : Nat) (f : Func → Func) : (s.modFn k f).pamt = s.pamt := rfl
@[simp] theorem State.modFn_runs (s : State) (k : Nat) (f : Func → Func) : (s.modFn k f).runs = s.runs := rfl
@[simp] theorem State.modFn_imports (s : State) (k : Nat) (f : Func → Func) : (s.modFn k f).imports = s.imports := rfl
@[simp] theorem State.modFn_revoking (s : State) (k : Nat) (f : Func → Func) : (s.modFn k f).revoking = s.revoking := rfl
@[simp] theorem State.modFn_s2roots (s : State) (k : Nat) (f : Func → Func) : (s.modFn k f).s2roots = s.s2roots := rfl
@[simp] theorem State.modFn_asids (s : State) (k : Nat) (f : Func → Func) : (s.modFn k f).asids = s.asids := rfl
@[simp] theorem State.modFn_parts (s : State) (k : Nat) (f : Func → Func) : (s.modFn k f).parts = s.parts := rfl
@[simp] theorem State.modFn_fns (s : State) (k : Nat) (f : Func → Func) : (s.modFn k f).fns = modAt s.fns k f := rfl
@[simp] theorem State.modFn_irqs (s : State) (k : Nat) (f : Func → Func) : (s.modFn k f).irqs = s.irqs := rfl
@[simp] theorem State.modFn_pkg (s : State) (k : Nat) (f : Func → Func) : (s.modFn k f).pkg = s.pkg := rfl
@[simp] theorem State.modFn_ports (s : State) (k : Nat) (f : Func → Func) : (s.modFn k f).ports = s.ports := rfl
@[simp] theorem State.modFn_flitsOut (s : State) (k : Nat) (f : Func → Func) : (s.modFn k f).flitsOut = s.flitsOut := rfl
@[simp] theorem State.modFn_flitsWait (s : State) (k : Nat) (f : Func → Func) : (s.modFn k f).flitsWait = s.flitsWait := rfl
@[simp] theorem State.modFn_flows (s : State) (k : Nat) (f : Func → Func) : (s.modFn k f).flows = s.flows := rfl
@[simp] theorem State.modFn_eseqTx (s : State) (k : Nat) (f : Func → Func) : (s.modFn k f).eseqTx = s.eseqTx := rfl
@[simp] theorem State.modFn_eseqAck (s : State) (k : Nat) (f : Func → Func) : (s.modFn k f).eseqAck = s.eseqAck := rfl
@[simp] theorem State.modFn_early (s : State) (k : Nat) (f : Func → Func) : (s.modFn k f).early = s.early := rfl
@[simp] theorem State.modFn_heldFlits (s : State) (k : Nat) (f : Func → Func) : (s.modFn k f).heldFlits = s.heldFlits := rfl
@[simp] theorem State.modFn_cxlLinks (s : State) (k : Nat) (f : Func → Func) : (s.modFn k f).cxlLinks = s.cxlLinks := rfl
@[simp] theorem State.modFn_tickets (s : State) (k : Nat) (f : Func → Func) : (s.modFn k f).tickets = s.tickets := rfl
@[simp] theorem State.modFn_replanStep (s : State) (k : Nat) (f : Func → Func) : (s.modFn k f).replanStep = s.replanStep := rfl
@[simp] theorem State.modFn_eseqRx (s : State) (k : Nat) (f : Func → Func) : (s.modFn k f).eseqRx = s.eseqRx := rfl
@[simp] theorem State.modFn_fabricReqs (s : State) (k : Nat) (f : Func → Func) : (s.modFn k f).fabricReqs = s.fabricReqs := rfl
@[simp] theorem State.modFn_unitFabric (s : State) (k : Nat) (f : Func → Func) : (s.modFn k f).unitFabric = s.unitFabric := rfl
@[simp] theorem State.modFn_fabricAnswers (s : State) (k : Nat) (f : Func → Func) : (s.modFn k f).fabricAnswers = s.fabricAnswers := rfl
@[simp] theorem State.modFn_lossdrop (s : State) (k : Nat) (f : Func → Func) : (s.modFn k f).lossdrop = s.lossdrop := rfl
@[simp] theorem State.modFn_telem (s : State) (k : Nat) (f : Func → Func) : (s.modFn k f).telem = s.telem := rfl
@[simp] theorem State.modFn_units (s : State) (k : Nat) (f : Func → Func) : (s.modFn k f).units = s.units := rfl
@[simp] theorem State.modFn_manifest (s : State) (k : Nat) (f : Func → Func) : (s.modFn k f).manifest = s.manifest := rfl
@[simp] theorem State.modFn_floors (s : State) (k : Nat) (f : Func → Func) : (s.modFn k f).floors = s.floors := rfl
@[simp] theorem State.modFn_activation (s : State) (k : Nat) (f : Func → Func) : (s.modFn k f).activation = s.activation := rfl
@[simp] theorem State.modFn_heldBells (s : State) (k : Nat) (f : Func → Func) : (s.modFn k f).heldBells = s.heldBells := rfl
@[simp] theorem State.modFn_sessions (s : State) (k : Nat) (f : Func → Func) : (s.modFn k f).sessions = s.sessions := rfl
@[simp] theorem State.modFn_drawn (s : State) (k : Nat) (f : Func → Func) : (s.modFn k f).drawn = s.drawn := rfl
@[simp] theorem State.modFn_keyWraps (s : State) (k : Nat) (f : Func → Func) : (s.modFn k f).keyWraps = s.keyWraps := rfl
@[simp] theorem State.modFn_ioKeys (s : State) (k : Nat) (f : Func → Func) : (s.modFn k f).ioKeys = s.ioKeys := rfl
@[simp] theorem State.modFn_baseKeys (s : State) (k : Nat) (f : Func → Func) : (s.modFn k f).baseKeys = s.baseKeys := rfl
@[simp] theorem State.modFn_bootCount (s : State) (k : Nat) (f : Func → Func) : (s.modFn k f).bootCount = s.bootCount := rfl
@[simp] theorem State.modFn_boot (s : State) (k : Nat) (f : Func → Func) : (s.modFn k f).boot = s.boot := rfl
@[simp] theorem State.modFn_startDue (s : State) (k : Nat) (f : Func → Func) : (s.modFn k f).startDue = s.startDue := rfl
@[simp] theorem State.modFn_replanDue (s : State) (k : Nat) (f : Func → Func) : (s.modFn k f).replanDue = s.replanDue := rfl
@[simp] theorem State.modFn_minimal (s : State) (k : Nat) (f : Func → Func) : (s.modFn k f).minimal = s.minimal := rfl
@[simp] theorem State.modFn_fails (s : State) (k : Nat) (f : Func → Func) : (s.modFn k f).fails = s.fails := rfl
@[simp] theorem State.modFn_bootRecord (s : State) (k : Nat) (f : Func → Func) : (s.modFn k f).bootRecord = s.bootRecord := rfl
@[simp] theorem State.modFn_hrt (s : State) (k : Nat) (f : Func → Func) : (s.modFn k f).hrt = s.hrt := rfl
@[simp] theorem State.modFn_rowActs (s : State) (k : Nat) (f : Func → Func) : (s.modFn k f).rowActs = s.rowActs := rfl
@[simp] theorem State.modFn_hotRows (s : State) (k : Nat) (f : Func → Func) : (s.modFn k f).hotRows = s.hotRows := rfl
@[simp] theorem State.modFn_powerOff (s : State) (k : Nat) (f : Func → Func) : (s.modFn k f).powerOff = s.powerOff := rfl
@[simp] theorem State.modFn_usec (s : State) (k : Nat) (f : Func → Func) : (s.modFn k f).usec = s.usec := rfl

/-! ### When a counter rises -/

@[simp] theorem State.count_tick (s : State) (k j : Nat) : (s.count k j).tick = s.tick := rfl
@[simp] theorem State.count_agenda (s : State) (k j : Nat) : (s.count k j).agenda = s.agenda := rfl
@[simp] theorem State.count_cur (s : State) (k j : Nat) : (s.count k j).cur = s.cur := rfl
@[simp] theorem State.count_nextId (s : State) (k j : Nat) : (s.count k j).nextId = s.nextId := rfl
@[simp] theorem State.count_waves (s : State) (k j : Nat) : (s.count k j).waves = s.waves := rfl
@[simp] theorem State.count_ops (s : State) (k j : Nat) : (s.count k j).ops = s.ops := rfl
@[simp] theorem State.count_wgs (s : State) (k j : Nat) : (s.count k j).wgs = s.wgs := rfl
@[simp] theorem State.count_gangs (s : State) (k j : Nat) : (s.count k j).gangs = s.gangs := rfl
@[simp] theorem State.count_cores (s : State) (k j : Nat) : (s.count k j).cores = s.cores := rfl
@[simp] theorem State.count_dies (s : State) (k j : Nat) : (s.count k j).dies = s.dies := rfl
@[simp] theorem State.count_frames (s : State) (k j : Nat) : (s.count k j).frames = s.frames := rfl
@[simp] theorem State.count_cmds (s : State) (k j : Nat) : (s.count k j).cmds = s.cmds := rfl
@[simp] theorem State.count_locks (s : State) (k j : Nat) : (s.count k j).locks = s.locks := rfl
@[simp] theorem State.count_mops (s : State) (k j : Nat) : (s.count k j).mops = s.mops := rfl
@[simp] theorem State.count_ctxs (s : State) (k j : Nat) : (s.count k j).ctxs = s.ctxs := rfl
@[simp] theorem State.count_nodes (s : State) (k j : Nat) : (s.count k j).nodes = s.nodes := rfl
@[simp] theorem State.count_msgs (s : State) (k j : Nat) : (s.count k j).msgs = s.msgs := rfl
@[simp] theorem State.count_mem (s : State) (k j : Nat) : (s.count k j).mem = s.mem := rfl
@[simp] theorem State.count_hostMem (s : State) (k j : Nat) : (s.count k j).hostMem = s.hostMem := rfl
@[simp] theorem State.count_hostCopies (s : State) (k j : Nat) : (s.count k j).hostCopies = s.hostCopies := rfl
@[simp] theorem State.count_pamt (s : State) (k j : Nat) : (s.count k j).pamt = s.pamt := rfl
@[simp] theorem State.count_runs (s : State) (k j : Nat) : (s.count k j).runs = s.runs := rfl
@[simp] theorem State.count_imports (s : State) (k j : Nat) : (s.count k j).imports = s.imports := rfl
@[simp] theorem State.count_revoking (s : State) (k j : Nat) : (s.count k j).revoking = s.revoking := rfl
@[simp] theorem State.count_s2roots (s : State) (k j : Nat) : (s.count k j).s2roots = s.s2roots := rfl
@[simp] theorem State.count_asids (s : State) (k j : Nat) : (s.count k j).asids = s.asids := rfl
@[simp] theorem State.count_parts (s : State) (k j : Nat) : (s.count k j).parts = s.parts := rfl
@[simp] theorem State.count_fns (s : State) (k j : Nat) : (s.count k j).fns = s.fns := rfl
@[simp] theorem State.count_irqs (s : State) (k j : Nat) : (s.count k j).irqs = s.irqs := rfl
@[simp] theorem State.count_pkg (s : State) (k j : Nat) : (s.count k j).pkg = s.pkg := rfl
@[simp] theorem State.count_ports (s : State) (k j : Nat) : (s.count k j).ports = s.ports := rfl
@[simp] theorem State.count_flitsOut (s : State) (k j : Nat) : (s.count k j).flitsOut = s.flitsOut := rfl
@[simp] theorem State.count_flitsWait (s : State) (k j : Nat) : (s.count k j).flitsWait = s.flitsWait := rfl
@[simp] theorem State.count_flows (s : State) (k j : Nat) : (s.count k j).flows = s.flows := rfl
@[simp] theorem State.count_eseqTx (s : State) (k j : Nat) : (s.count k j).eseqTx = s.eseqTx := rfl
@[simp] theorem State.count_eseqAck (s : State) (k j : Nat) : (s.count k j).eseqAck = s.eseqAck := rfl
@[simp] theorem State.count_early (s : State) (k j : Nat) : (s.count k j).early = s.early := rfl
@[simp] theorem State.count_heldFlits (s : State) (k j : Nat) : (s.count k j).heldFlits = s.heldFlits := rfl
@[simp] theorem State.count_cxlLinks (s : State) (k j : Nat) : (s.count k j).cxlLinks = s.cxlLinks := rfl
@[simp] theorem State.count_tickets (s : State) (k j : Nat) : (s.count k j).tickets = s.tickets := rfl
@[simp] theorem State.count_replanStep (s : State) (k j : Nat) : (s.count k j).replanStep = s.replanStep := rfl
@[simp] theorem State.count_eseqRx (s : State) (k j : Nat) : (s.count k j).eseqRx = s.eseqRx := rfl
@[simp] theorem State.count_fabricReqs (s : State) (k j : Nat) : (s.count k j).fabricReqs = s.fabricReqs := rfl
@[simp] theorem State.count_unitFabric (s : State) (k j : Nat) : (s.count k j).unitFabric = s.unitFabric := rfl
@[simp] theorem State.count_fabricAnswers (s : State) (k j : Nat) : (s.count k j).fabricAnswers = s.fabricAnswers := rfl
@[simp] theorem State.count_lossdrop (s : State) (k j : Nat) : (s.count k j).lossdrop = s.lossdrop := rfl
@[simp] theorem State.count_telem (s : State) (k j : Nat) : (s.count k j).telem = FMap.set s.telem (k * 4096 + j) (min (2 ^ 64 - 1) (FMap.getD s.telem (k * 4096 + j) 0 + 1)) := rfl
@[simp] theorem State.count_units (s : State) (k j : Nat) : (s.count k j).units = s.units := rfl
@[simp] theorem State.count_manifest (s : State) (k j : Nat) : (s.count k j).manifest = s.manifest := rfl
@[simp] theorem State.count_floors (s : State) (k j : Nat) : (s.count k j).floors = s.floors := rfl
@[simp] theorem State.count_activation (s : State) (k j : Nat) : (s.count k j).activation = s.activation := rfl
@[simp] theorem State.count_heldBells (s : State) (k j : Nat) : (s.count k j).heldBells = s.heldBells := rfl
@[simp] theorem State.count_sessions (s : State) (k j : Nat) : (s.count k j).sessions = s.sessions := rfl
@[simp] theorem State.count_drawn (s : State) (k j : Nat) : (s.count k j).drawn = s.drawn := rfl
@[simp] theorem State.count_keyWraps (s : State) (k j : Nat) : (s.count k j).keyWraps = s.keyWraps := rfl
@[simp] theorem State.count_ioKeys (s : State) (k j : Nat) : (s.count k j).ioKeys = s.ioKeys := rfl
@[simp] theorem State.count_baseKeys (s : State) (k j : Nat) : (s.count k j).baseKeys = s.baseKeys := rfl
@[simp] theorem State.count_bootCount (s : State) (k j : Nat) : (s.count k j).bootCount = s.bootCount := rfl
@[simp] theorem State.count_boot (s : State) (k j : Nat) : (s.count k j).boot = s.boot := rfl
@[simp] theorem State.count_startDue (s : State) (k j : Nat) : (s.count k j).startDue = s.startDue := rfl
@[simp] theorem State.count_replanDue (s : State) (k j : Nat) : (s.count k j).replanDue = s.replanDue := rfl
@[simp] theorem State.count_minimal (s : State) (k j : Nat) : (s.count k j).minimal = s.minimal := rfl
@[simp] theorem State.count_fails (s : State) (k j : Nat) : (s.count k j).fails = s.fails := rfl
@[simp] theorem State.count_bootRecord (s : State) (k j : Nat) : (s.count k j).bootRecord = s.bootRecord := rfl
@[simp] theorem State.count_hrt (s : State) (k j : Nat) : (s.count k j).hrt = s.hrt := rfl
@[simp] theorem State.count_rowActs (s : State) (k j : Nat) : (s.count k j).rowActs = s.rowActs := rfl
@[simp] theorem State.count_hotRows (s : State) (k j : Nat) : (s.count k j).hotRows = s.hotRows := rfl
@[simp] theorem State.count_powerOff (s : State) (k j : Nat) : (s.count k j).powerOff = s.powerOff := rfl
@[simp] theorem State.count_usec (s : State) (k j : Nat) : (s.count k j).usec = s.usec := rfl

/-! ### When the host's copies of a line go -/

@[simp] theorem State.backInvalidate_tick (s : State) (k : Nat) : (s.backInvalidate k).tick = s.tick := rfl
@[simp] theorem State.backInvalidate_agenda (s : State) (k : Nat) : (s.backInvalidate k).agenda = s.agenda := rfl
@[simp] theorem State.backInvalidate_cur (s : State) (k : Nat) : (s.backInvalidate k).cur = s.cur := rfl
@[simp] theorem State.backInvalidate_nextId (s : State) (k : Nat) : (s.backInvalidate k).nextId = s.nextId := rfl
@[simp] theorem State.backInvalidate_waves (s : State) (k : Nat) : (s.backInvalidate k).waves = s.waves := rfl
@[simp] theorem State.backInvalidate_ops (s : State) (k : Nat) : (s.backInvalidate k).ops = s.ops := rfl
@[simp] theorem State.backInvalidate_wgs (s : State) (k : Nat) : (s.backInvalidate k).wgs = s.wgs := rfl
@[simp] theorem State.backInvalidate_gangs (s : State) (k : Nat) : (s.backInvalidate k).gangs = s.gangs := rfl
@[simp] theorem State.backInvalidate_cores (s : State) (k : Nat) : (s.backInvalidate k).cores = s.cores := rfl
@[simp] theorem State.backInvalidate_dies (s : State) (k : Nat) : (s.backInvalidate k).dies = s.dies := rfl
@[simp] theorem State.backInvalidate_frames (s : State) (k : Nat) : (s.backInvalidate k).frames = s.frames := rfl
@[simp] theorem State.backInvalidate_cmds (s : State) (k : Nat) : (s.backInvalidate k).cmds = s.cmds := rfl
@[simp] theorem State.backInvalidate_locks (s : State) (k : Nat) : (s.backInvalidate k).locks = s.locks := rfl
@[simp] theorem State.backInvalidate_mops (s : State) (k : Nat) : (s.backInvalidate k).mops = s.mops := rfl
@[simp] theorem State.backInvalidate_ctxs (s : State) (k : Nat) : (s.backInvalidate k).ctxs = s.ctxs := rfl
@[simp] theorem State.backInvalidate_nodes (s : State) (k : Nat) : (s.backInvalidate k).nodes = s.nodes := rfl
@[simp] theorem State.backInvalidate_msgs (s : State) (k : Nat) : (s.backInvalidate k).msgs = s.msgs := rfl
@[simp] theorem State.backInvalidate_mem (s : State) (k : Nat) : (s.backInvalidate k).mem = s.mem := rfl
@[simp] theorem State.backInvalidate_hostMem (s : State) (k : Nat) : (s.backInvalidate k).hostMem = s.hostMem := rfl
@[simp] theorem State.backInvalidate_hostCopies (s : State) (k : Nat) : (s.backInvalidate k).hostCopies = s.hostCopies.filter fun l => l != secAddr k / 192 := rfl
@[simp] theorem State.backInvalidate_pamt (s : State) (k : Nat) : (s.backInvalidate k).pamt = s.pamt := rfl
@[simp] theorem State.backInvalidate_runs (s : State) (k : Nat) : (s.backInvalidate k).runs = s.runs := rfl
@[simp] theorem State.backInvalidate_imports (s : State) (k : Nat) : (s.backInvalidate k).imports = s.imports := rfl
@[simp] theorem State.backInvalidate_revoking (s : State) (k : Nat) : (s.backInvalidate k).revoking = s.revoking := rfl
@[simp] theorem State.backInvalidate_s2roots (s : State) (k : Nat) : (s.backInvalidate k).s2roots = s.s2roots := rfl
@[simp] theorem State.backInvalidate_asids (s : State) (k : Nat) : (s.backInvalidate k).asids = s.asids := rfl
@[simp] theorem State.backInvalidate_parts (s : State) (k : Nat) : (s.backInvalidate k).parts = s.parts := rfl
@[simp] theorem State.backInvalidate_fns (s : State) (k : Nat) : (s.backInvalidate k).fns = s.fns := rfl
@[simp] theorem State.backInvalidate_irqs (s : State) (k : Nat) : (s.backInvalidate k).irqs = s.irqs := rfl
@[simp] theorem State.backInvalidate_pkg (s : State) (k : Nat) : (s.backInvalidate k).pkg = s.pkg := rfl
@[simp] theorem State.backInvalidate_ports (s : State) (k : Nat) : (s.backInvalidate k).ports = s.ports := rfl
@[simp] theorem State.backInvalidate_flitsOut (s : State) (k : Nat) : (s.backInvalidate k).flitsOut = s.flitsOut := rfl
@[simp] theorem State.backInvalidate_flitsWait (s : State) (k : Nat) : (s.backInvalidate k).flitsWait = s.flitsWait := rfl
@[simp] theorem State.backInvalidate_flows (s : State) (k : Nat) : (s.backInvalidate k).flows = s.flows := rfl
@[simp] theorem State.backInvalidate_eseqTx (s : State) (k : Nat) : (s.backInvalidate k).eseqTx = s.eseqTx := rfl
@[simp] theorem State.backInvalidate_eseqAck (s : State) (k : Nat) : (s.backInvalidate k).eseqAck = s.eseqAck := rfl
@[simp] theorem State.backInvalidate_early (s : State) (k : Nat) : (s.backInvalidate k).early = s.early := rfl
@[simp] theorem State.backInvalidate_heldFlits (s : State) (k : Nat) : (s.backInvalidate k).heldFlits = s.heldFlits := rfl
@[simp] theorem State.backInvalidate_cxlLinks (s : State) (k : Nat) : (s.backInvalidate k).cxlLinks = s.cxlLinks := rfl
@[simp] theorem State.backInvalidate_tickets (s : State) (k : Nat) : (s.backInvalidate k).tickets = s.tickets := rfl
@[simp] theorem State.backInvalidate_replanStep (s : State) (k : Nat) : (s.backInvalidate k).replanStep = s.replanStep := rfl
@[simp] theorem State.backInvalidate_eseqRx (s : State) (k : Nat) : (s.backInvalidate k).eseqRx = s.eseqRx := rfl
@[simp] theorem State.backInvalidate_fabricReqs (s : State) (k : Nat) : (s.backInvalidate k).fabricReqs = s.fabricReqs := rfl
@[simp] theorem State.backInvalidate_unitFabric (s : State) (k : Nat) : (s.backInvalidate k).unitFabric = s.unitFabric := rfl
@[simp] theorem State.backInvalidate_fabricAnswers (s : State) (k : Nat) : (s.backInvalidate k).fabricAnswers = s.fabricAnswers := rfl
@[simp] theorem State.backInvalidate_lossdrop (s : State) (k : Nat) : (s.backInvalidate k).lossdrop = s.lossdrop := rfl
@[simp] theorem State.backInvalidate_telem (s : State) (k : Nat) : (s.backInvalidate k).telem = s.telem := rfl
@[simp] theorem State.backInvalidate_units (s : State) (k : Nat) : (s.backInvalidate k).units = s.units := rfl
@[simp] theorem State.backInvalidate_manifest (s : State) (k : Nat) : (s.backInvalidate k).manifest = s.manifest := rfl
@[simp] theorem State.backInvalidate_floors (s : State) (k : Nat) : (s.backInvalidate k).floors = s.floors := rfl
@[simp] theorem State.backInvalidate_activation (s : State) (k : Nat) : (s.backInvalidate k).activation = s.activation := rfl
@[simp] theorem State.backInvalidate_heldBells (s : State) (k : Nat) : (s.backInvalidate k).heldBells = s.heldBells := rfl
@[simp] theorem State.backInvalidate_sessions (s : State) (k : Nat) : (s.backInvalidate k).sessions = s.sessions := rfl
@[simp] theorem State.backInvalidate_drawn (s : State) (k : Nat) : (s.backInvalidate k).drawn = s.drawn := rfl
@[simp] theorem State.backInvalidate_keyWraps (s : State) (k : Nat) : (s.backInvalidate k).keyWraps = s.keyWraps := rfl
@[simp] theorem State.backInvalidate_ioKeys (s : State) (k : Nat) : (s.backInvalidate k).ioKeys = s.ioKeys := rfl
@[simp] theorem State.backInvalidate_baseKeys (s : State) (k : Nat) : (s.backInvalidate k).baseKeys = s.baseKeys := rfl
@[simp] theorem State.backInvalidate_bootCount (s : State) (k : Nat) : (s.backInvalidate k).bootCount = s.bootCount := rfl
@[simp] theorem State.backInvalidate_boot (s : State) (k : Nat) : (s.backInvalidate k).boot = s.boot := rfl
@[simp] theorem State.backInvalidate_startDue (s : State) (k : Nat) : (s.backInvalidate k).startDue = s.startDue := rfl
@[simp] theorem State.backInvalidate_replanDue (s : State) (k : Nat) : (s.backInvalidate k).replanDue = s.replanDue := rfl
@[simp] theorem State.backInvalidate_minimal (s : State) (k : Nat) : (s.backInvalidate k).minimal = s.minimal := rfl
@[simp] theorem State.backInvalidate_fails (s : State) (k : Nat) : (s.backInvalidate k).fails = s.fails := rfl
@[simp] theorem State.backInvalidate_bootRecord (s : State) (k : Nat) : (s.backInvalidate k).bootRecord = s.bootRecord := rfl
@[simp] theorem State.backInvalidate_hrt (s : State) (k : Nat) : (s.backInvalidate k).hrt = s.hrt := rfl
@[simp] theorem State.backInvalidate_rowActs (s : State) (k : Nat) : (s.backInvalidate k).rowActs = s.rowActs := rfl
@[simp] theorem State.backInvalidate_hotRows (s : State) (k : Nat) : (s.backInvalidate k).hotRows = s.hotRows := rfl
@[simp] theorem State.backInvalidate_powerOff (s : State) (k : Nat) : (s.backInvalidate k).powerOff = s.powerOff := rfl
@[simp] theorem State.backInvalidate_usec (s : State) (k : Nat) : (s.backInvalidate k).usec = s.usec := rfl

/-! ### When a number is drawn -/

@[simp] theorem State.fresh_tick (s : State) : s.fresh.2.tick = s.tick := rfl
@[simp] theorem State.fresh_agenda (s : State) : s.fresh.2.agenda = s.agenda := rfl
@[simp] theorem State.fresh_cur (s : State) : s.fresh.2.cur = s.cur := rfl
@[simp] theorem State.fresh_nextId (s : State) : s.fresh.2.nextId = s.nextId + 1 := rfl
@[simp] theorem State.fresh_waves (s : State) : s.fresh.2.waves = s.waves := rfl
@[simp] theorem State.fresh_ops (s : State) : s.fresh.2.ops = s.ops := rfl
@[simp] theorem State.fresh_wgs (s : State) : s.fresh.2.wgs = s.wgs := rfl
@[simp] theorem State.fresh_gangs (s : State) : s.fresh.2.gangs = s.gangs := rfl
@[simp] theorem State.fresh_cores (s : State) : s.fresh.2.cores = s.cores := rfl
@[simp] theorem State.fresh_dies (s : State) : s.fresh.2.dies = s.dies := rfl
@[simp] theorem State.fresh_frames (s : State) : s.fresh.2.frames = s.frames := rfl
@[simp] theorem State.fresh_cmds (s : State) : s.fresh.2.cmds = s.cmds := rfl
@[simp] theorem State.fresh_locks (s : State) : s.fresh.2.locks = s.locks := rfl
@[simp] theorem State.fresh_mops (s : State) : s.fresh.2.mops = s.mops := rfl
@[simp] theorem State.fresh_ctxs (s : State) : s.fresh.2.ctxs = s.ctxs := rfl
@[simp] theorem State.fresh_nodes (s : State) : s.fresh.2.nodes = s.nodes := rfl
@[simp] theorem State.fresh_msgs (s : State) : s.fresh.2.msgs = s.msgs := rfl
@[simp] theorem State.fresh_mem (s : State) : s.fresh.2.mem = s.mem := rfl
@[simp] theorem State.fresh_hostMem (s : State) : s.fresh.2.hostMem = s.hostMem := rfl
@[simp] theorem State.fresh_hostCopies (s : State) : s.fresh.2.hostCopies = s.hostCopies := rfl
@[simp] theorem State.fresh_pamt (s : State) : s.fresh.2.pamt = s.pamt := rfl
@[simp] theorem State.fresh_runs (s : State) : s.fresh.2.runs = s.runs := rfl
@[simp] theorem State.fresh_imports (s : State) : s.fresh.2.imports = s.imports := rfl
@[simp] theorem State.fresh_revoking (s : State) : s.fresh.2.revoking = s.revoking := rfl
@[simp] theorem State.fresh_s2roots (s : State) : s.fresh.2.s2roots = s.s2roots := rfl
@[simp] theorem State.fresh_asids (s : State) : s.fresh.2.asids = s.asids := rfl
@[simp] theorem State.fresh_parts (s : State) : s.fresh.2.parts = s.parts := rfl
@[simp] theorem State.fresh_fns (s : State) : s.fresh.2.fns = s.fns := rfl
@[simp] theorem State.fresh_irqs (s : State) : s.fresh.2.irqs = s.irqs := rfl
@[simp] theorem State.fresh_pkg (s : State) : s.fresh.2.pkg = s.pkg := rfl
@[simp] theorem State.fresh_ports (s : State) : s.fresh.2.ports = s.ports := rfl
@[simp] theorem State.fresh_flitsOut (s : State) : s.fresh.2.flitsOut = s.flitsOut := rfl
@[simp] theorem State.fresh_flitsWait (s : State) : s.fresh.2.flitsWait = s.flitsWait := rfl
@[simp] theorem State.fresh_flows (s : State) : s.fresh.2.flows = s.flows := rfl
@[simp] theorem State.fresh_eseqTx (s : State) : s.fresh.2.eseqTx = s.eseqTx := rfl
@[simp] theorem State.fresh_eseqAck (s : State) : s.fresh.2.eseqAck = s.eseqAck := rfl
@[simp] theorem State.fresh_early (s : State) : s.fresh.2.early = s.early := rfl
@[simp] theorem State.fresh_heldFlits (s : State) : s.fresh.2.heldFlits = s.heldFlits := rfl
@[simp] theorem State.fresh_cxlLinks (s : State) : s.fresh.2.cxlLinks = s.cxlLinks := rfl
@[simp] theorem State.fresh_tickets (s : State) : s.fresh.2.tickets = s.tickets := rfl
@[simp] theorem State.fresh_replanStep (s : State) : s.fresh.2.replanStep = s.replanStep := rfl
@[simp] theorem State.fresh_eseqRx (s : State) : s.fresh.2.eseqRx = s.eseqRx := rfl
@[simp] theorem State.fresh_fabricReqs (s : State) : s.fresh.2.fabricReqs = s.fabricReqs := rfl
@[simp] theorem State.fresh_unitFabric (s : State) : s.fresh.2.unitFabric = s.unitFabric := rfl
@[simp] theorem State.fresh_fabricAnswers (s : State) : s.fresh.2.fabricAnswers = s.fabricAnswers := rfl
@[simp] theorem State.fresh_lossdrop (s : State) : s.fresh.2.lossdrop = s.lossdrop := rfl
@[simp] theorem State.fresh_telem (s : State) : s.fresh.2.telem = s.telem := rfl
@[simp] theorem State.fresh_units (s : State) : s.fresh.2.units = s.units := rfl
@[simp] theorem State.fresh_manifest (s : State) : s.fresh.2.manifest = s.manifest := rfl
@[simp] theorem State.fresh_floors (s : State) : s.fresh.2.floors = s.floors := rfl
@[simp] theorem State.fresh_activation (s : State) : s.fresh.2.activation = s.activation := rfl
@[simp] theorem State.fresh_heldBells (s : State) : s.fresh.2.heldBells = s.heldBells := rfl
@[simp] theorem State.fresh_sessions (s : State) : s.fresh.2.sessions = s.sessions := rfl
@[simp] theorem State.fresh_drawn (s : State) : s.fresh.2.drawn = s.drawn := rfl
@[simp] theorem State.fresh_keyWraps (s : State) : s.fresh.2.keyWraps = s.keyWraps := rfl
@[simp] theorem State.fresh_ioKeys (s : State) : s.fresh.2.ioKeys = s.ioKeys := rfl
@[simp] theorem State.fresh_baseKeys (s : State) : s.fresh.2.baseKeys = s.baseKeys := rfl
@[simp] theorem State.fresh_bootCount (s : State) : s.fresh.2.bootCount = s.bootCount := rfl
@[simp] theorem State.fresh_boot (s : State) : s.fresh.2.boot = s.boot := rfl
@[simp] theorem State.fresh_startDue (s : State) : s.fresh.2.startDue = s.startDue := rfl
@[simp] theorem State.fresh_replanDue (s : State) : s.fresh.2.replanDue = s.replanDue := rfl
@[simp] theorem State.fresh_minimal (s : State) : s.fresh.2.minimal = s.minimal := rfl
@[simp] theorem State.fresh_fails (s : State) : s.fresh.2.fails = s.fails := rfl
@[simp] theorem State.fresh_bootRecord (s : State) : s.fresh.2.bootRecord = s.bootRecord := rfl
@[simp] theorem State.fresh_hrt (s : State) : s.fresh.2.hrt = s.hrt := rfl
@[simp] theorem State.fresh_rowActs (s : State) : s.fresh.2.rowActs = s.rowActs := rfl
@[simp] theorem State.fresh_hotRows (s : State) : s.fresh.2.hotRows = s.hotRows := rfl
@[simp] theorem State.fresh_powerOff (s : State) : s.fresh.2.powerOff = s.powerOff := rfl
@[simp] theorem State.fresh_usec (s : State) : s.fresh.2.usec = s.usec := rfl
@[simp] theorem State.fresh_number (s : State) : s.fresh.1 = s.nextId := rfl

end Sys2Proof.Machine
end

