-- ==== Sys2Proof/Laws/Tables.lean ====
section
/-! SUPPORT. What a write of anyone but the firmware leaves (R382). -/

namespace Sys2Proof.Machine

/-- As many bytes are written as there were. -/
@[simp] theorem State.kept_length (s : State) (pa : Nat) (bs : List Byte) : (s.kept pa bs).length = bs.length := by
  simp [State.kept]

/-- Outside the tables of protected contexts, the bytes are written as they are. -/
theorem State.kept_of_outside (s : State) (pa : Nat) (bs : List Byte) (h : ∀ i, i < bs.length → s.inTables (pa + i) = false) :
    s.kept pa bs = bs := by
  apply List.ext_getElem (s.kept_length pa bs)
  intro i h1 h2
  simp [State.kept, h i h2]

/-- Where no protected context lives, there are no such tables. -/
theorem State.inTables_of_unprotected (s : State) (pa : Nat) (h : ∀ c ∈ s.ctxs, c.2.prot = false ∨ c.2.ended = true) : s.inTables pa = false := by
  unfold State.inTables
  rw [List.any_eq_false]
  intro c hc
  rcases h c hc with e | e <;> simp [e]

end Sys2Proof.Machine
end

