-- ==== Sys2Proof/Tests/Slice0.lean ====
section
/-! SUPPORT. Tests on fixed values, from the spec's printed words and worked values; and for each obligation with hypotheses a state and operands that meet them. -/

namespace Sys2Proof.Tests

open Sys2Proof Sys2Proof.Machine

set_option Elab.async false

/-! ### Common pieces -/

/-- The common fields of an unpredicated instruction. -/
def plain : Ctl := ⟨0, 0, 15, 255, 0, false⟩
/-- The same, with flag A allocated. -/
def flagged : Ctl := ⟨0, 1, 15, 255, 0, false⟩

/-! ### Ill-formed terms are refused -/

/-- One term for each check of WellFormed: what it refuses. -/
def illFormed : List Instr :=
  [.nop ⟨0, 3, 15, 255, 0, false⟩, .nop flagged, .nop ⟨0, 0, 12, 255, 0, false⟩, .nop ⟨0, 0, 15, 255, 1, false⟩,
   .nop ⟨0, 0, 15, 255, 0, true⟩, .jmp ⟨0, 1, 15⟩ 0, .jmp ⟨0, 0, 13⟩ 0, .hdr 0 0 0 12 1, .hdr 0 0 0 1 14, .jmpi plain 3,
   .call ⟨0, 0, 15⟩ 5 0, .iadd64 plain .bs 2 4 (.imm 1), .iadd64 plain .pair 2 4 (.reg 7), .getid plain false 2 (.imm 0x7F),
   .getid plain true 3 (.imm 0x10), .claim flagged 12, .imulh plain .s16 2 3 (.reg 4), .iabs plain false .z32 2 3] ++
  [.lea plain false true 2 8 0 (.imm 7), .mov plain 3 (.pair 4), .fclass plain .none 0 2 3 (.imm 0x0400), .hcmp2 plain false .lt .none 3 2 3 4,
   .dadd plain .rn 3 4 6, .fcvt plain .f32 .f32 true .rn 0 0 2 3, .fcvt plain .f32 .f16 false .rn 0 2 2 3, .shfl plain .idx 6 2 3 (.reg 4),
   .shfl plain .idx 0 2 3 (.imm 32), .lred plain .add true .rn 2 3, .lred plain .min false .rz 2 3, .stg flagged .s8 2 ⟨4, 255, 0⟩,
   .ldg flagged .b64 false 3 ⟨4, 255, 0⟩, .ldg flagged .b32 false 3 ⟨5, 255, 0⟩, .atomg flagged .add false .core true 2 4 6 0,
   .atomg flagged .add false .dev false 2 4 6 8, .redg flagged .cas false .dev false 4 6, .redg flagged .xchg false .dev false 4 6] ++
  [.acccv flagged .f32 false .rn 2 3 4, .acccv flagged .f16 true .rn 2 3 4, .mmae4 flagged false 0 1 0 2 3 0 0, .mman flagged 7 0 0 0 0 2 3 4 5,
   .plpack flagged 0 2 12, .plpack flagged 0 2 255, .plunpk flagged 7 false 2 3 1 0, .plunpk flagged 0 false 2 3 0 0, .sccv flagged .n true .rn 0 0 2 3 4,
   .qpush flagged .qer 2, .qpop flagged 6 .qmx, .cpyt flagged false 2 3 4 5, .cpyl flagged .gs 2 3 4 5, .send flagged false 6 2,
   .mfsr flagged true 4 0x0110, .mfsr flagged false 4 0x0003, .mtsr plain false 0x0002 4, .scrub flagged .sp 2 3 4, .tinv flagged 2 6]

theorem test_ill_formed_refused : illFormed.all (fun i => !i.wf) = true := by decide +kernel

/-! ### Printed words (spec/04 to spec/12, spec/19, spec/23) -/

theorem test_decode_header : decode 0x003C0002400000000000 = .ok (.hdr 3 6 0 1 2) := by decide +kernel
theorem test_decode_control : decode 0x02049E0001FFF8120000 = .ok (.bra ⟨1, 0, 15, 9, 0, false⟩ .likely 0xFFFC) := by decide +kernel
theorem test_decode_press : decode 0x14003E40000001FE0000 = .ok (.claim flagged 32) := by decide +kernel
theorem test_decode_integer : decode 0x20901E06000003FE0000 = .ok (.iadd plain .s32 3 0 (.imm 1)) := by decide +kernel
theorem test_decode_compare : decode 0x40149E120E0A01FE0040 = .ok (.icmp ⟨1, 0, 15, 255, 0, false⟩ .z32 .lt .none 0 9 7 (.reg 5)) := by decide +kernel
theorem test_decode_address : decode 0x42481E10000E01FE0000 = .ok (.lea plain false true 2 8 0 (.reg 7)) := by decide +kernel
theorem test_decode_float : decode 0x4B841E08027E01FE0002 = .ok (.ffma plain .rz 4 1 (.imm 0x3F00) 2) := by decide +kernel
theorem test_decode_load : decode 0x88803E0605FE01FE0004 = .ok (.ldg flagged .b32 false 3 ⟨2, 255, 4⟩) := by decide +kernel
theorem test_decode_store : decode 0x89809E1C15FE01FE0000 = .ok (.stg ⟨1, 0, 15, 255, 0, false⟩ .b32 14 ⟨10, 255, 0⟩) := by decide +kernel
theorem test_decode_matrix : decode 0xA5483E30205029FE0000 = .ok (.mman flagged 2 2 0 0 0 16 40 20 24) := by decide +kernel
theorem test_decode_engine : decode 0xB4001E0028302DFE0000 = .ok (.cpyt plain false 20 24 22 0) := by decide +kernel
theorem test_decode_system : decode 0xE0803E08000221FE0000 = .ok (.mfsr flagged false 4 0x0110) := by decide +kernel
/-- Comparison combine code 3 is reserved (R138). -/
theorem test_decode_reserved : decode 0x40149E120E0A01FE0340 = .error .reservedCode := by decide +kernel
/-- The host's reading of a word gives what the decoder gives. -/
theorem test_table_word : decodeTableWord 80 0x20901E06000003FE0000 = some (.iadd plain .s32 3 0 (.imm 1)) := by decide +kernel

/-! ### Worked values of the spec -/

/-- R126: 100 + 100 in the types of the example. -/
theorem test_add_wraps : [ITy.s8, .z8, .s32].map (fun t => res (opnd 0x64 t + opnd 0x64 t) t) = [0xFFFFFFC8, 0xC8, 0xC8] := by decide +kernel
/-- R126: IABS of the most negative value. -/
theorem test_abs_saturates : (res |opnd 0x80000000 .s32| .s32, res (satI |opnd 0x80000000 .s32| 32 true) .s32) = (0x80000000, 0x7FFFFFFF) := by
  decide +kernel
/-- R129: the upper half of 0xFFFF_FFFF times 2 under both signs. -/
theorem test_mulh : [ITy.s32, .z32].map (fun t => BitVec.ofInt 32 (opnd 0xFFFFFFFF t * opnd 2 t / 2 ^ 32)) = [0xFFFFFFFF, 1] := by decide +kernel

/-- A privileged wave, in slot 0, that is about to issue the word, with the given registers in every lane. -/
def bench (word : BitVec 80) (regs : List (Nat × Word)) : State :=
  let s := State.reset.placeWord word
  { s with agenda := [], waves := s.waves.map fun p => (0, { p.2 with ctx := 0, regs := regs.map fun r => (r.1, Row.splat r.2) }) }

/-- Register `r` of lane `L` of wave 0 after the instruction. -/
def after (i : Instr) (s : State) (r L : Nat) : Word :=
  match exec i s with
  | .next t => match t.wave? 0 with | some w => w.value r L | none => 0
  | _ => 0

/-- The word of a well-formed instruction. -/
def wordOf (i : Instr) : BitVec 80 := (encode? i).getD 0

/-- R136: the field immediate 0x0507 of 0x0000_0F80. -/
theorem test_bit_fields :
    let go := fun (i : Instr) => after i (bench (wordOf i) [(0, 7), (1, 0xF80)])
    go (.bfx plain true 2 1 (.imm 0x0507)) 2 0 = 0xFFFFFFFF ∧ go (.bfx plain false 2 1 (.imm 0x0507)) 2 31 = 0x1F ∧
    go (.bfi plain 3 255 (.imm 0x0507) 1) 3 0 = 0 ∧ go (.bmsk plain 4 0 (.imm 5)) 4 0 = 0xF80 := by decide +kernel
/-- R140: line 5, and the line below the base. -/
theorem test_lea :
    let i : Instr := .lea plain true false 6 6 4 (.reg 2)
    let go := fun (v : Word) r => after i (bench (wordOf i) [(2, v), (4, 0), (5, 1)]) r 0
    go 5 6 = 0x3C0 ∧ go 5 7 = 1 ∧ go 0xFFFFFFFF 6 = 0xFFFFFF40 ∧ go 0xFFFFFFFF 7 = 0 := by decide +kernel
/-- R102: the step of a NOP placed for the next fetch ends its clause at the fall-through. -/
theorem test_step_nop : (match step (State.reset.withFetchWord 80 0x01001E00000001FE0000) with
    | .next t => (t.wave? (firmwareKey 0)).map fun w => (w.clause.isNone, w.pcOf 0)
    | _ => none) = some (true, 32) := by decide +kernel
/-- R85: the step of a reserved word traps with class 1. -/
theorem test_step_reserved : (match step (State.reset.withFetchWord 80 0xC0000000000000000000) with
    | .next t => (t.wave? (firmwareKey 0)).map fun w => w.stop
    | _ => none) = some .trapCheck := by decide +kernel

/-! ### Small states for the witnesses -/

/-- A kernel of one wave of 32 threads: levels of 5 and 4 bits. -/
def k0 : Kernel :=
  { entry := 0, widths := [5, 4], tlv := 1, thr := 32, crs := 1, gng := 1, regs := 248, cvn := 2, kind := 2, flg := 7, scr := 0, acr := 2,
    sch := List.replicate 15 0, clean := true }
/-- A press of two granules. -/
def press0 : Press :=
  { ext := [2], cmap := 0, init := true, loaded := true, map := [], regs := List.replicate 9 1 ++ 0 :: List.replicate 5 1, shadow := List.replicate 15 0, gen := 0, cur := 0,
    tiles := [], next := 1, writing := false }
/-- A running launch. -/
def node0 : Node :=
  { ctx := 0, q := 0, cmd := [], num := 1, preds := [], stage := .running, order := 0, prio := 0, packet := false, grace := 5,
    kernel := some k0, ext := [1], first := 0, total := 1, nextWg := 1, again := [], retired := 0, startedAt := some 0, coresUsed := [0],
    status := 0, reason := 0, killed := false, graceAt := none, parts := [0], press := some press0, poisoned := false, semaAt := none, semaMet := false, cleanTo := 0 }
/-- A context of function 0. -/
def ctx0 : Context :=
  { ptroot := 0, asid := 3, vmid := 0, homeIod := 0, prot := false, parts := 1, lrt := 0, lrtn := 0, qtab := 0, frb := 0, frs := 0, rxb := 0, rxn := 8,
    accept := [(0, 0)], owner := 0, queues := [⟨none, 0, 0, none, false, none, 0⟩], posted := [], unexpected := [], apertures := [], versions := [],
    pageKey := none, ended := false }
/-- A workgroup of one wave on core 0. -/
def wg0 : Workgroup :=
  { node := 0, ctx := 0, ordinal := 0, ident := 0, gang := 0, pos := 0, die := 0, cores := [0], slot := 0, waves := [0], threads := 32,
    spSizes := [49152], spBases := [0], sp := [], acc0 := 0, accN := 2, cvs := [⟨none, 0, []⟩, ⟨none, 0, []⟩], bars := [], ticket := 0, started := true,
    staging := [], killed := false, swappable := none, frozen := false, lapse := false }
/-- A full scratchpad line. -/
def fullLine : Line := ⟨.full, List.replicate 128 7⟩

/-- Wave 0 of workgroup 0 in a clause of one NOP, with the given registers. -/
def lab (regs : List (Nat × Word)) : State :=
  let s := bench 0x01001E00000001FE0000 regs
  { s with wgs := [(0, wg0)], nodes := [(0, node0)], ctxs := [(0, ctx0)], gangs := [(0, ⟨0, [0], [0], ⟨0, []⟩⟩)],
           pamt := modAt s.pamt 0 fun _ => fetchRange, cores := [(0, { Core.reset with spWays := 1 })] }
/-- The wave of a state. -/
def wave0 (s : State) : Wave := (s.wave? 0).getD fetchWave
/-- The issue of the wave of a state. -/
def issue0 (c : Ctl) (s : State) : Issue := issueOf c s.cur (wave0 s) ((wave0 s).clause.getD ⟨0, 0, 0, 0, 0, 0, [], [], []⟩)

/-- Whether wave 0 issues. -/
def issuesB (c : Ctl) (ds : List Nat) (s : State) : Bool :=
  match s.wave? s.cur with
  | some w =>
    match w.clause with
    | some cl => (!decide (c.cf.toNat < 12) || !w.busy c.cf.toNat) && ((issueOf c s.cur w cl).act == 0 || (issueOf c s.cur w cl).w.dstReady ds)
    | none => false
  | none => false

theorem issues_of {c : Ctl} {ds : List Nat} {s : State} (h0 : s.cur = 0) (h : issuesB c ds s = true) : Issues c ds s (issue0 c s) := by
  unfold issuesB at h
  cases hw : s.wave? s.cur with
  | none => simp [hw] at h
  | some w =>
    cases hc : w.clause with
    | none => simp [hw, hc] at h
    | some cl =>
      simp only [hw, hc, Bool.and_eq_true, Bool.or_eq_true, Bool.not_eq_true', decide_eq_false_iff_not, beq_iff_eq] at h
      have e : issue0 c s = issueOf c s.cur w cl := by
        unfold issue0 wave0; rw [← h0, hw]; simp [hc]
      refine ⟨w, cl, hw, hc, fun hf => ?_, e, fun ha => ?_⟩
      · rcases h.1 with h1 | h1
        · exact absurd hf h1
        · exact h1
      · rw [e] at ha ⊢; rcases h.2 with h1 | h1
        · exact absurd h1 ha
        · exact h1

/-- As `issuesB`, with room. -/
def laterB (c : Ctl) (ds : List Nat) (s : State) : Bool := issuesB c ds s && ((issue0 c s).act == 0 || (issue0 c s).w.roomReady ds)

theorem later_of {c : Ctl} {ds : List Nat} {s : State} (h0 : s.cur = 0) (h : laterB c ds s = true) : IssuesLater c ds s (issue0 c s) := by
  simp only [laterB, Bool.and_eq_true, Bool.or_eq_true, beq_iff_eq] at h
  refine ⟨issues_of h0 h.1, fun ha => ?_⟩
  rcases h.2 with h1 | h1
  · exact absurd h1 ha
  · exact h1

/-- What holds of 32 lanes holds of every active lane. -/
theorem active_all {m : LaneMask} {P : Nat → Prop} (h : ∀ L, L < 32 → P L) : ∀ L, m.getLsbD L = true → P L :=
  fun L hL => h L (lane_lt hL)

/-- A state with no die away from reset has reset dies. -/
theorem die_of_none {s : State} (h : s.dies = []) (e : Nat) : s.die e = Die.reset := by
  unfold State.die; rw [h]; rfl

/-- An operation of wave 0 listed as number 7. -/
def op0 (i : Instr) (srcs : List Row) : Op :=
  { wave := 0, gen := 0, wg := 0, core := 0, instr := i, lanes := LaneMask.all, cla := 0, flag := some 0, dsts := [2], srcs := srcs, vals := [Row.splat 5],
    todo := LaneMask.all, walkOn := [], raised := 0, aux := 0, done := false, ticket := 0 }
/-- The lab with that operation. -/
def labOp (o : Op) : State := { lab [] with ops := [(7, o)], nextId := 8 }

/-- The lab's operation alone: resident wave, not performed. -/
theorem sole_op (i : Instr) (srcs : List Row) : Sole (labOp (op0 i srcs)) 7 (op0 i srcs) i := ⟨rfl, rfl, rfl, wave0 (lab []), by rfl, rfl⟩

/-- Page tables at physical address 0: virtual page 0 is device memory at 0, with all permissions. -/
def tables : List Host.Cell :=
  Memory.write (Memory.write (Memory.write (Memory.write [] 0 (leBytes 8 0x2001)) 512 (leBytes 8 0x4001)) 1024 (leBytes 8 0x6001)) 1536 (leBytes 8 0x3B)
/-- The lab with page tables, and partition 0 on die 0. -/
def labMem (regs : List (Nat × Word)) : State := { lab regs with mem := tables, parts := [[0], [], [], [], [], [], [], []] }
/-- A parked load of the lab's operation 7 in virtual page 1. -/
def req0 : Req :=
  { kind := .op 7 1, vmid := 0, asid := 3, stage := 0, page := 1, vpage := 1, va := 49152, acc := 0, ctx := 0, wave := some 0, gen := 0, follows := none,
    place := .cellar, res := none, noEntry := false }
/-- A die with a request and a merge entry. -/
def dieWith (r : Req) : Die := { Die.reset with reqs := [(5, r)], merge := [⟨0, 3, 0, 1⟩] }


/-! ### Witnesses: instructions at their issue -/

/-- A wave issues with its 32 lanes active, into a pair that may be written, with room: every `Fixed` and `Variable` clause of
IntegerSums, IntegerProducts, WideSums, BitLogic, ShiftsAndFields, PredicatesAndMoves, SinglePrecision, PackedAndDouble, Conversions,
CrossLane, Identity and VariableArithmetic; no lane active below. -/
theorem witness_issue : IssuesLater plain (dstGroup 2 8) (lab []) (issue0 plain (lab [])) ∧ (issue0 plain (lab [])).act ≠ 0 :=
  ⟨later_of rfl (by decide +kernel), by decide +kernel⟩
/-- The same with a predicate that no lane meets. -/
theorem witness_idle_issue : let c : Ctl := ⟨0, 0, 15, 1, 0, false⟩
    IssuesLater c (dstGroup 2 8) (lab []) (issue0 c (lab [])) ∧ (issue0 c (lab [])).act = 0 :=
  ⟨later_of rfl (by decide +kernel), by decide +kernel⟩
/-- IntegerSums: a word type, an unsigned type. -/
theorem witness_IntegerSums : IssuesLater plain (dstGroup 2 8) (lab []) (issue0 plain (lab [])) ∧ ITy.z32.isWord = true ∧ ITy.z8.isSigned = false :=
  ⟨witness_issue.1, by decide⟩
theorem witness_IntegerProducts : ∃ s x, IssuesLater plain (dstGroup 2 8) s x ∧ x.act ≠ 0 := ⟨_, _, witness_issue⟩
theorem witness_WideSums : ∃ s x, IssuesLater plain (dstGroup 2 8) s x ∧ x.act ≠ 0 := ⟨_, _, witness_issue⟩
theorem witness_BitLogic : ∃ s x, IssuesLater plain (dstGroup 2 8) s x ∧ x.act ≠ 0 := ⟨_, _, witness_issue⟩
theorem witness_ShiftsAndFields : ∃ s x, IssuesLater plain (dstGroup 2 8) s x ∧ x.act ≠ 0 := ⟨_, _, witness_issue⟩
theorem witness_PredicatesAndMoves : ∃ s x, IssuesLater plain (dstGroup 2 8) s x ∧ x.act ≠ 0 := ⟨_, _, witness_issue⟩
theorem witness_SinglePrecision : ∃ s x, IssuesLater plain (dstGroup 2 8) s x ∧ x.act ≠ 0 := ⟨_, _, witness_issue⟩
theorem witness_PackedAndDouble : ∃ s x, IssuesLater plain (dstGroup 2 8) s x ∧ x.act ≠ 0 := ⟨_, _, witness_issue⟩
/-- Conversions: the elements selected. -/
theorem witness_Conversions : FFmt.selOk .f16 1 = true ∧ FFmt.selOk .f64 0 = true ∧ FFmt.selOk .f8e4 3 = true := by decide
/-- CrossLane: a slot with no wave, and another wave of the workgroup in the slot named. -/
theorem witness_CrossLane :
    let s := lab [(4, 0x0100)]
    let t : State := { s with waves := FMap.set s.waves 1 (wave0 s) }
    let x := issue0 plain s
    (∀ o, s.wave? (x.key - waveSlot x.key + 1) = some o → ¬(o.wg = x.w.wg ∧ o.priv = x.w.priv)) ∧
    (x.b (.reg 4) immZ x.low).toNat / 256 % 16 = 1 ∧
    (∃ o, t.wave? (x.key - waveSlot x.key + 1) = some o ∧ o.wg = x.w.wg ∧ o.priv = x.w.priv) ∧ waveSlot x.key ≠ 1 ∧
    IssuesLater plain (dstGroup 2 1) t (issue0 plain t) := by
  refine ⟨fun o h => ?_, by decide +kernel, ⟨wave0 (lab [(4, 0x0100)]), by decide +kernel, rfl, rfl⟩, by decide +kernel, later_of rfl (by decide +kernel)⟩
  have : (lab [(4, 0x0100)]).wave? (0 - 0 + 1) = none := by decide +kernel
  exact absurd (this.symm.trans h) (by simp)
/-- Identity: the wave's workgroup and kernel, and a level below the sixth. -/
theorem witness_Identity : let s := lab []
    s.wg? (issue0 plain s).w.wg = some wg0 ∧ s.kernelOf wg0 = some k0 ∧ k0.widths[1]? = some 4 := by decide +kernel
/-- VariableArithmetic: the bounds of the planes and of the result byte. -/
theorem witness_VariableArithmetic : ∃ x : Issue, IssuesLater plain (dstGroup 2 1) (lab [(1, 0x3F800000)]) x ∧ (6 : BitVec 3).toNat ≤ 6 ∧
    (sccvByte .e4 true .rn (x.v 1 31).toNat ((x.v 1 31).toNat / 2 ^ 24 % 2 ^ 8)).1 < 256 := by
  refine ⟨_, later_of rfl (by decide +kernel), by decide, by decide +kernel⟩

/-- ResultReturn: a performed operation of the wave with a hold, and one of an earlier allocation of the slot. -/
theorem witness_ResultReturn :
    let o : Op := { op0 (.ldg flagged .b32 false 2 ⟨4, 255, 0⟩) [] with done := true }
    let w : Wave := { wave0 (lab []) with holds := [⟨2, Row.zero, some 0, 7, none, LaneMask.all, 0⟩], flags := 1 :: List.replicate 11 0 }
    let s := (labOp o).setWave 0 w
    let t := labOp { o with gen := 1 }
    (FMap.get? s.ops 7 = some o ∧ o.done = true ∧ returns o.instr = true ∧ s.wave? o.wave = some w ∧ w.gen = o.gen ∧ w.holds[0]?.map Hold.op = some 7) ∧
    (FMap.get? t.ops 7 = some { o with gen := 1 } ∧ t.wave? 0 = some (wave0 t) ∧ (wave0 t).gen ≠ 1) := by decide +kernel

/-- Transfers: aligned targets, and a misaligned one in lane 0 with the rest aligned. -/
theorem witness_Transfers :
    let s := lab [(4, 0x40), (5, 1)]
    let t := lab [(4, 0x48), (5, 1)]
    Issues plain [] s (issue0 plain s) ∧ Issues plain (dstGroup 2 2) s (issue0 plain s) ∧
    (∀ L, (issue0 plain s).act.getLsbD L = true → (issue0 plain s).vd 4 L % 16 = 0) ∧
    Issues plain (dstGroup 2 2) t (issue0 plain t) ∧ (issue0 plain t).act.getLsbD 0 = true ∧ (issue0 plain t).vd 4 0 % 16 ≠ 0 :=
  ⟨issues_of rfl (by decide +kernel), issues_of rfl (by decide +kernel), active_all (by decide +kernel), issues_of rfl (by decide +kernel),
    by decide +kernel, by decide +kernel⟩
/-- CALL and JMP: the common fields they have. -/
theorem witness_long_transfers : let c : CtlL := ⟨0, 0, 15⟩
    Issues (CtlL.full c) (dstGroup 2 2) (lab []) (issue0 (CtlL.full c) (lab [])) := issues_of rfl (by decide +kernel)

/-- SlotControl: the flags of a mask clear, one busy, an active lane with a PC table of 32, and no active lane. -/
theorem witness_SlotControl :
    let s := lab []
    let t := s.setWave 0 { wave0 s with flags := 1 :: List.replicate 11 0 }
    let c : Ctl := ⟨0, 0, 15, 1, 0, false⟩
    (Issues plain [] s (issue0 plain s) ∧ (∀ f, f < 12 → (3 : BitVec 12).getLsbD f = true → (issue0 plain s).w.busy f = false) ∧
      (issue0 plain s).act ≠ 0 ∧ (issue0 plain s).w.pct.length = 32) ∧
    (Issues plain [] t (issue0 plain t) ∧ ∃ f, f < 12 ∧ (3 : BitVec 12).getLsbD f = true ∧ (issue0 plain t).w.busy f = true) ∧
    (Issues c [] s (issue0 c s) ∧ (issue0 c s).act = 0 ∧ (issue0 c s).w.pct.length = 32) :=
  ⟨⟨issues_of rfl (by decide +kernel), by decide +kernel, by decide +kernel, by decide +kernel⟩,
    ⟨issues_of rfl (by decide +kernel), 0, by decide +kernel, by decide +kernel, by decide +kernel⟩,
    ⟨issues_of rfl (by decide +kernel), by decide +kernel, by decide +kernel⟩⟩

/-- Barriers: an arrival of a wave of a workgroup whose earlier stores are published; a record, no record; a group not complete, and one
that is. -/
theorem witness_Barriers :
    let s := lab []
    let g : Workgroup := { wg0 with bars := [(2 ^ 14, ⟨0, List.range 32⟩)] }
    let t : State := { s with wgs := [(0, g)] }
    (Issues plain [] s (issue0 plain s) ∧ (issue0 plain s).act ≠ 0 ∧ s.wg? (issue0 plain s).w.wg = some wg0 ∧ s.kernelOf wg0 = some k0 ∧
      (∀ sc ∈ [Scope.core, .gang], s.barReady s.cur s.nextId (issue0 plain s).act sc true = true ∧ s.barReady s.cur s.nextId (issue0 plain s).act sc false = true) ∧
      (labOp (op0 (.phase plain .ref .core) [])).barReady 0 8 (issue0 plain s).act .core true = false ∧
      (labOp (op0 (.phase plain .ref .core) [])).barReady 0 8 (issue0 plain s).act .core false = false) ∧
    (s.wave? 0 = some (wave0 s) ∧ s.wg? (wave0 s).wg = some wg0 ∧ FMap.get? (wave0 s).pend 1 = none ∧
      (FMap.get? { wave0 s with pend := [(1, 0)] }.pend 1).isSome = true) ∧
    ((∃ r ∈ groupThreads k0 wg0 1 0, (r ∉ (FMap.getD wg0.bars (2 ^ 14) ⟨0, []⟩).arrived ∨ s.waveStopped (wg0.waves.getD (r / 32) 0) = true) ∧
        s.threadExited wg0 r = false) ∧
      t.wg? 0 = some g ∧ t.kernelOf g = some k0 ∧ (FMap.getD g.bars (2 ^ 14) ⟨0, []⟩).arrived ≠ [] ∧
      ∀ r ∈ groupThreads k0 g 1 0, (r ∈ (FMap.getD g.bars (2 ^ 14) ⟨0, []⟩).arrived ∧ t.waveStopped (g.waves.getD (r / 32) 0) = false) ∨ t.threadExited g r = true) :=
  ⟨⟨issues_of rfl (by decide +kernel), by decide +kernel, by decide +kernel, by decide +kernel, by decide +kernel, by decide +kernel⟩,
    by decide +kernel, by decide +kernel⟩

/-- Barriers: an arrival behind a phase of a thread that has one pending already. -/
theorem witness_second_arrival :
    let s0 := labOp (op0 (.phase plain .ref .core) [])
    let s := s0.setWave 0 { wave0 s0 with pend := [(1, 0)] }
    let x := issue0 plain s
    Issues plain [] s x ∧ x.act ≠ 0 ∧ s.wg? x.w.wg = some wg0 ∧ s.kernelOf wg0 = some k0 ∧ (∀ sc ∈ [Scope.core, .gang], s.barReady s.cur s.nextId x.act sc true = false) ∧
      x.act.getLsbD 0 = true ∧ (FMap.get? x.w.pend (0 * 8 + 1)).isSome = true :=
  ⟨issues_of rfl (by decide +kernel), by decide +kernel⟩
/-- WordWaits: behind a phase, and behind a store of the thread to the word. -/
theorem witness_wait_behind :
    let s := labOp (op0 (.phase plain .ref .core) [])
    let t := labOp (op0 (.stg plain .b32 2 ⟨4, 255, 0⟩) [Row.splat 0x40, Row.splat 0, Row.splat 1])
    (Issues plain [] s (issue0 plain s) ∧ (issue0 plain s).act ≠ 0 ∧ s.phasePending s.cur s.nextId = true) ∧
    (issue0 plain t).act.getLsbD 0 = true ∧ t.phasePending t.cur t.nextId = false ∧ t.waitBehind t.cur t.nextId 0 0x40 4 = true ∧
    ∀ L, L < 32 → (lab []).waitBehind 0 7 L 0x40 4 = false :=
  ⟨⟨issues_of rfl (by decide +kernel), by decide +kernel⟩, by decide +kernel⟩
/-- WordWaits: aligned words, a misaligned one, a condition that holds and one that does not, and a resident thread. -/
theorem witness_WordWaits :
    let s := lab [(4, 0x40)]
    let t := lab [(4, 0x42)]
    let x := issue0 plain s
    let y := issue0 plain t
    let m : MemRef := ⟨4, 255, 0⟩
    (Issues plain [] s x ∧ (∀ L, x.act.getLsbD L = true → x.eaG m 4 L % 4 = 0) ∧ x.act ≠ 0 ∧ s.phasePending s.cur s.nextId = false ∧
      x.w.pct.length = 32) ∧
    (Issues plain [] t y ∧ y.act.getLsbD 0 = true ∧ y.eaG m 4 0 % 4 ≠ 0) ∧
    (swCond .eq false (s.waitWord 0x40 false) 0 = true ∧ swCond .ne false (s.waitWord 0x40 false) 0 = false) ∧
    (s.wave? 0 = some (wave0 s) ∧ (wave0 s).pct[31]?.isSome = true) ∧ IssuesLater plain [] s x ∧ x.misaligned 4 (x.eaG m 4) = none ∧
    (y.misaligned 4 (y.eaG m 4)).isSome = true :=
  ⟨⟨issues_of rfl (by decide +kernel), active_all (by decide +kernel), by decide +kernel, by decide +kernel, by decide +kernel⟩,
    ⟨issues_of rfl (by decide +kernel), by decide +kernel, by decide +kernel⟩, by decide +kernel, by decide +kernel,
    later_of rfl (by decide +kernel), by decide +kernel, by decide +kernel⟩

/-- A context with an aperture onto window 4 of this package. -/
def ctxFab : Context := { ctx0 with apertures := [(0, ⟨0, true, 4, 5⟩)] }
/-- WordWaits: a word of fabric memory, and one of device memory. -/
theorem witness_fabric_wait :
    let s : State := { lab [] with ctxs := [(0, ctxFab)] }
    s.backing (15 * 2 ^ 48 + 0x40) = .fabric 0 0x40 ∧ s.backing 0x40 = .dev 0 ∧ s.wave? 0 = some (wave0 s) ∧
    s.aperture? (wave0 s).ctx (15 * 2 ^ 48 + 0x40) = some ⟨0, true, 4, 5⟩ ∧ s.fabricReqs = [] := by decide +kernel

/-- Convergence: an idle register and a legal mask, a mask of no core of the workgroup; a register not armed for the wave, and one armed. -/
theorem witness_Convergence :
    let s := lab [(4, 15), (5, 0xF0)]
    let x := issue0 plain s
    let g : Workgroup := { wg0 with cvs := [⟨some 15, 1, []⟩, ⟨none, 0, []⟩] }
    Issues plain [] s x ∧ x.act ≠ 0 ∧ s.wg? x.w.wg = some wg0 ∧ (cvMaskOk wg0 (x.u 4) = true ∧ (wg0.cv 0).armed = none ∧ 0 < wg0.cvs.length) ∧
    cvMaskOk wg0 (x.u 5) = false ∧ FMap.get? x.w.cvWait 0 = none ∧ (wg0.cv 0).armed = none ∧
    ((g.cv 0).armed = some 15 ∧ (15 : BitVec 16).getLsbD (4 * g.coreIdx (waveCore s.cur) + waveQtr s.cur) = true ∧
      FMap.get? (g.cv 0).members (4 * g.coreIdx (waveCore s.cur) + waveQtr s.cur) = none ∧ x.w.full 1 = false) :=
  ⟨issues_of rfl (by decide +kernel), by decide +kernel, by decide +kernel, by decide +kernel, by decide +kernel, by decide +kernel,
    by decide +kernel, by decide +kernel⟩

/-- TrapsAndStatus: active lanes, none, producer distance 0, and a wave of a context with a PC table of 32. -/
theorem witness_TrapsAndStatus :
    let s := lab []
    let x := issue0 plain s
    let c : Ctl := ⟨0, 0, 15, 1, 0, false⟩
    (Issues plain [] s x ∧ x.act ≠ 0) ∧ (Issues c [] s (issue0 c s) ∧ (issue0 c s).act = 0) ∧ (IssuesLater plain (dstGroup 2 1) s x ∧ x.pd = 0) ∧
    x.w.pct.length = 32 ∧ s.ctx? x.w.ctx = some ctx0 :=
  ⟨⟨issues_of rfl (by decide +kernel), by decide +kernel⟩, ⟨issues_of rfl (by decide +kernel), by decide +kernel⟩,
    ⟨later_of rfl (by decide +kernel), by decide +kernel⟩, by decide +kernel, by decide +kernel⟩

/-! ### Witnesses: memory -/

/-- GlobalAccesses: aligned lanes, and misaligned ones of which lane 0 is the lowest; nothing of order class is pending. -/
theorem witness_GlobalAccesses :
    let s := lab [(4, 0x40)]
    let t := lab [(4, 0x42)]
    let x := issue0 flagged s
    let y := issue0 flagged t
    let m : MemRef := ⟨4, 255, 0⟩
    (IssuesLater flagged (dstGroup 2 4) s x ∧ (x.misaligned 4 (x.eaG m 4)).isNone = true ∧ s.phasePending s.cur s.nextId = false) ∧
    (Issues flagged (dstGroup 2 4) t y ∧ y.act ≠ 0 ∧ y.misaligned 4 (y.eaG m 4) = some 0x42) :=
  ⟨⟨later_of rfl (by decide +kernel), by decide +kernel, by decide +kernel⟩, issues_of rfl (by decide +kernel), by decide +kernel, by decide +kernel⟩

/-- PadAccesses: the last word of the scratchpad, the word after it, and a misaligned one; a line that SPMARK names. -/
theorem witness_PadAccesses :
    let s := lab [(4, 49148), (5, 49152), (6, 49150), (7, 49024)]
    let x := issue0 flagged s
    IssuesLater flagged (dstGroup 2 1) s x ∧ x.act ≠ 0 ∧
    checkPad s x 4 (x.eaS ⟨4, 255, 0⟩ 4) = none ∧ (checkPad s x 4 (x.eaS ⟨5, 255, 0⟩ 4)).map Prod.fst = some 6 ∧
    (checkPad s x 4 (x.eaS ⟨6, 255, 0⟩ 4)).map Prod.fst = some 4 ∧ x.u 7 % 128 = 0 ∧ x.u 7 + 128 ≤ s.padSize x ∧
    checkRemote s x 4 (x.eaS ⟨4, 255, 0⟩ 4) = none ∧ (checkRemote s x 4 (x.eaS ⟨5, 255, 0⟩ 4)).map Prod.fst = some 6 :=
  ⟨later_of rfl (by decide +kernel), by decide +kernel⟩

/-- StoreBytes: a privileged wave stores to device memory with nothing under way. -/
theorem witness_StoreBytes :
    let s := lab [(4, 0x40)]
    let x := issue0 plain s
    IssuesLater plain [] s x ∧ x.w.priv = true ∧ s.ops = [] ∧ s.fabricReqs = [] ∧ s.hotRows = [] ∧ (∀ p ∈ s.dies, p.2.reqs = []) ∧
    (∀ k v, FMap.get? (s.core (waveCore s.cur)).l1 k = some v → v.data.length = 48) ∧
    (∀ e k v, FMap.get? (s.die e).l2 k = some v → v.data.length = 48) ∧
    (∀ L, x.act.getLsbD L = true → x.eaG ⟨4, 255, 0⟩ 4 L % 4 = 0 ∧ ∃ e, s.backing (x.eaG ⟨4, 255, 0⟩ 4 L % 2 ^ 52) = .dev e) ∧
    0x40 % 48 + 4 ≤ 48 := by
  refine ⟨later_of rfl (by decide +kernel), by decide +kernel, rfl, rfl, rfl, by decide +kernel, fun k v h => ?_, fun e k v h => ?_,
    active_all fun L hL => ⟨?_, 0, ?_⟩, by decide⟩
  · have e : ((lab [(4, 0x40)]).core (waveCore (lab [(4, 0x40)]).cur)).l1 = [] := by decide +kernel
    rw [e] at h; exact absurd h (by simp [FMap.get?])
  · rw [die_of_none rfl] at h; exact absurd h (by simp [FMap.get?, Die.reset])
  · revert L hL; decide +kernel
  · revert L hL; decide +kernel

/-- StoreBytes: empty caches take the store's line. -/
theorem witness_store_room :
    let s := lab [(4, 0x40)]
    let x := issue0 plain s
    s.l1Takes (waveCore s.cur) ((LaneMask.lanes x.act).map fun L => x.eaG ⟨4, 255, 0⟩ 4 L % 2 ^ 52 / 48) ∧ ∀ e, (s.die e).l2.length + 32 ≤ l2Lines := by
  refine ⟨?_, fun e => ?_⟩
  · unfold State.l1Takes; decide +kernel
  · rw [die_of_none rfl]; decide +kernel

/-- AtomicValues: a word of device memory that no cache holds. -/
theorem witness_AtomicValues :
    let s := lab []
    s.backing 0x40 = .dev 0 ∧ s.backing (0x40 / 48 * 48) = .dev 0 ∧ 0x40 % (32 / 8) = 0 ∧ FMap.get? (s.core 0).l1 (0x40 / 48) = none ∧ 0 / 48 = 0 ∧ (s.die 0).l2Full (0x40 / 48) = false ∧
    (∀ c, FMap.get? (s.die 0).l2 (0x40 / 48) = some c → c.data.length = 48) ∧ (2 ^ 32 - 1 : Nat) < 2 ^ 32 := by
  refine ⟨by decide +kernel, by decide +kernel, by decide, by decide +kernel, rfl, by decide +kernel, fun c h => ?_, by decide⟩
  rw [die_of_none rfl] at h; exact absurd h (by simp [FMap.get?, Die.reset])

/-- PhasesAndMaintenance: a phase and a maintenance operation alone, of a privileged wave, with nothing under way. -/
theorem witness_PhasesAndMaintenance :
    let o := op0 (.phase flagged .both .dev) []
    let q := op0 (.cmaint flagged .clean .l1 2 4) [Row.splat 0, Row.splat 0, Row.splat 192]
    let s := labOp o
    let t := labOp q
    (FMap.get? s.ops 7 = some o ∧ o.done = false ∧ (∀ p ∈ s.ops, p.1 < 7 → p.2.wave ≠ o.wave ∧ p.2.core ≠ o.core) ∧ waveCore o.wave = o.core ∧
      (s.core o.core).wcb = [] ∧ s.fabricReqs = [] ∧ (∀ p ∈ s.dies, p.2.reqs = []) ∧ Scope.reach .dev ≠ 0) ∧
    (FMap.get? t.ops 7 = some q ∧ q.done = false ∧ t.fabricReqs = [] ∧ (t.core q.core).wcb = [] ∧ (∀ p ∈ t.ops, p.1 < 7 → p.2.wave ≠ q.wave ∧ p.2.core ≠ q.core) ∧ waveCore q.wave = q.core ∧
      (∀ p ∈ t.dies, p.2.reqs = []) ∧ t.wave? q.wave = some (wave0 t) ∧ (wave0 t).priv = true ∧ q.aux = 0) := by decide +kernel

/-- WaySplit: a request that changes the size, the size there is, one too large, an exclusive kernel; and the request performed. -/
theorem witness_WaySplit :
    let s := lab [(4, 2), (5, 1), (6, 31)]
    let x := issue0 flagged s
    let o : Op := { op0 (.waycfg flagged 2 (.reg 4)) [] with aux := 2 }
    let t := labOp o
    (IssuesLater flagged (dstGroup 2 1) s x ∧ x.act ≠ 0 ∧ s.wg? x.w.wg = some wg0 ∧ s.kernelOf wg0 = some k0 ∧
      s.olderWaycfg (waveCore x.key) s.nextId = false ∧ s.phasePending x.key s.nextId = false ∧ wg0.coreIdx 0 < wg0.spSizes.length ∧ k0.flg.testBit 2 = true ∧ x.ub (.reg 4) x.low * 49152 ≠ s.padSize x ∧
      x.ub (.reg 5) x.low * 49152 = s.padSize x ∧ 14 < x.ub (.reg 6) x.low ∧ waveCore x.key % 48 < 40) ∧
    (Sole t 7 o (.waycfg flagged 2 (.reg 4)) ∧ t.wg? o.wg = some wg0 ∧ t.fabricReqs = [] ∧ t.locks = [] ∧ o.aux < 2 ^ 32) :=
  ⟨⟨later_of rfl (by decide +kernel), by decide +kernel⟩, ⟨by decide +kernel, rfl, rfl, wave0 (lab []), by decide +kernel⟩, by decide +kernel⟩

/-- AccumulatorStore: an area that passes the check, one that is misaligned; the operations alone, over a workgroup with rows, full lines
and an area of pitch 16. -/
theorem witness_AccumulatorStore :
    let s := lab [(4, 0x03000000), (5, 0), (6, 16), (7, 8)]
    let x := issue0 flagged s
    let g : Workgroup := { wg0 with sp := (List.range 384).map fun n => (n, fullLine) }
    let src := [Row.splat 0x03000000, Row.splat 0, Row.splat 16]
    let st (i : Instr) : State := { labOp (op0 i src) with wgs := [(0, g)] }
    (IssuesLater flagged [] s x ∧ x.act ≠ 0 ∧ checkArea s x 4 5 6 4 = none ∧ (checkArea s x 4 7 6 4).map Prod.fst = some 4) ∧
    (∀ i ∈ [Instr.accz flagged 4, .acccp flagged 4 5, .accld flagged 4 5 6, .accst flagged 4 5 6, .acccv flagged .f16 false .rn 4 5 6],
      (st i).ops = [(7, op0 i src)] ∧ (st i).wg? 0 = some g ∧ (st i).mops = [] ∧ (accEffect (st i) 7 (op0 i src) g).isSome = true ∧
      (st i).locks = [] ∧ 0 < FFmt.bits .f16 / 8 ∧
      (∀ n, n < 384 → (g.line 0 n).st = .full ∧ (g.line 0 n).data.length = 128) ∧
      (windowCells g 0x03000000).length = 4 ∧ 4 * (0x03000000 / 2 ^ 24 % 256 + 1) ≤ 16) :=
  ⟨⟨later_of rfl (by decide +kernel), by decide +kernel⟩, by decide +kernel⟩

/-! ### Witnesses: queues, engines, the matrix engine -/

/-- The wave of the lab changed. -/
def labWave (regs : List (Nat × Word)) (f : Wave → Wave) : State := (lab regs).setWave 0 (f (wave0 (lab regs)))

/-- QueueOperations: room and none; a marker due, one behind a command; expected entries and none; the pops alone, over a present entry
and over none; a counter within its limit and above. -/
theorem witness_QueueOperations :
    let s := lab []
    let x := issue0 plain s
    let t := labWave [] fun w => { w with push := modAt w.push 1 fun _ => (List.range 8).map PushEntry.cmd, counters := modAt w.counters 0 fun _ => [⟨1, 1, false⟩] }
    let y := issue0 plain t
    let pop := Instr.qpop plain 2 .qcp
    let u := (labOp (op0 pop [])).setWave 0 { wave0 (lab []) with pop := modAt (wave0 (lab [])).pop 1 fun _ => [[5]] }
    (Issues plain [] s x ∧ x.act ≠ 0 ∧ (x.w.pushed 1).length < 8 ∧ x.w.markers 1 < 8 ∧ 1 < x.w.push.length ∧ 1 < x.w.pop.length ∧
      x.w.pushed 1 = [] ∧ x.w.markerDue 1 s.nextId = true ∧ s.expected x.key x.w 1 = false ∧ (x.w.counter 0).length ≤ 0 ∧
      s.parkedLanes x.key x.cl.run = false) ∧
    (Issues plain [] t y ∧ y.act ≠ 0 ∧ ¬(y.w.pushed 1).length < 8 ∧ y.w.markerDue 1 t.nextId = false ∧ 0 < (y.w.counter 0).length) ∧
    (Sole (labOp (op0 pop [])) 7 (op0 pop []) pop ∧ (wave0 (labOp (op0 pop []))).present 1 = [] ∧
      (labOp (op0 pop [])).expected 0 (wave0 (labOp (op0 pop []))) 1 = false) ∧
    (Sole u 7 (op0 pop []) pop ∧ (wave0 u).present 1 = [[5]] ∧ (wave0 u).heldRx = [] ∧ u.expected 0 (wave0 u) 1 = true) :=
  ⟨⟨issues_of rfl (by decide +kernel), by decide +kernel⟩, ⟨issues_of rfl (by decide +kernel), by decide +kernel⟩,
    ⟨⟨rfl, rfl, rfl, wave0 (lab []), by decide +kernel⟩, by decide +kernel⟩, ⟨⟨rfl, rfl, rfl, wave0 ((labOp (op0 (.qpop plain 2 .qcp) [])).setWave 0 { wave0 (lab []) with pop := modAt (wave0 (lab [])).pop 1 fun _ => [[5]] }), by decide +kernel⟩, by decide +kernel⟩⟩
/-- QueueOperations: the marker wait and the pop that waits. -/
theorem witness_pop_waits :
    let s := (labOp (op0 (.qpop plain 2 .qcp) [])).setWave 0 { wave0 (lab []) with push := modAt (wave0 (lab [])).push 1 fun _ => [.cmd 3, .marker 4 5] }
    (wave0 s).present 1 = [] ∧ s.expected 0 (wave0 s) 1 = true ∧ s.wave? 0 = some (wave0 s) := by decide +kernel

/-- EngineCommands: a copy that passes its check, one misaligned, one past the scratchpad, a full queue. -/
theorem witness_EngineCommands :
    let s := lab [(4, 0), (5, 256), (6, 128), (7, 49152)]
    let x := issue0 flagged s
    let check := fun (r : Reg) => if x.u r % 128 ≠ 0 then some (4, x.u r) else if s.padSize x ≤ x.u r then some (6, rangeDetail (x.u r) (s.padSize x)) else none
    let t := lab [(6, 100)]
    Issues flagged [] s x ∧ x.act ≠ 0 ∧ check 6 = none ∧ (check 7).map Prod.fst = some 6 ∧ (issue0 flagged t).u 6 % 128 ≠ 0 ∧
    (x.w.pushed 1).length < 8 ∧ (x.w.counter 0).length < 63 ∧
    8 ≤ ((labWave [] fun w => { w with push := modAt w.push 1 fun _ => (List.range 8).map PushEntry.cmd }).wave? 0).elim 0 fun w => (w.pushed 1).length := by
  refine ⟨issues_of rfl (by decide +kernel), by decide +kernel⟩

/-- A copy within the scratchpad, as a command. -/
def cmd0 (stage : CmdStage) : Cmd :=
  { wave := 0, gen := 0, wg := 0, core := 0, instr := .cpyl plain .ss 4 5 6 0, args := [0, 0, 1024, 0, 256, 0], flag := none, stage := stage, record := [],
    err := none, pois := false, poisPages := [], released := false, staging := false, lines := [], sent := false, got := [], wrote := [], ticket := 0 }
/-- The lab with that command on its queue, and full lines. -/
def labCmd (c : Cmd) : State :=
  { labWave [] fun w => { w with push := modAt w.push 1 fun _ => [.cmd 7] } with
    cmds := [(7, c)], nextId := 8, wgs := [(0, { wg0 with sp := (List.range 384).map fun n => (n, fullLine) })] }

/-- EngineCourse: operands held and released; the oldest command, with a good and a bad length; a copy over full lines, and a failed one. -/
theorem witness_EngineCourse :
    let s := labCmd (cmd0 .pushed)
    let bad : Cmd := { cmd0 .pushed with args := [0, 0, 1024, 0, 0, 0] }
    let g : Workgroup := { wg0 with sp := (List.range 384).map fun n => (n, fullLine) }
    (FMap.get? s.cmds 7 = some (cmd0 .pushed) ∧ s.wave? 0 = some (wave0 s) ∧ (wave0 s).gen = 0 ∧ (cmd0 .pushed).released = false ∧
      ({ cmd0 .pushed with released := true } : Cmd).released = true) ∧
    (((wave0 s).pushed 1).find? (fun e => !e.isMarker) = some (.cmd 7) ∧ s.checkCmd { cmd0 .pushed with stage := .reading } = none ∧
      (labCmd bad).checkCmd { bad with stage := .reading } = some (0x0C, 0, 0)) ∧
    (let t := labCmd (cmd0 .taken)
     t.cmds = [(7, cmd0 .taken)] ∧ t.ops = [] ∧ t.locks = [] ∧ (∀ p ∈ t.dies, p.2.reqs = []) ∧ t.wg? 0 = some g ∧
      (∀ k ∈ linesOf 0 256, (g.line 0 k).st = .full) ∧ 1024 + 256 ≤ g.size 0 ∧ (cmd0 .taken).err = none ∧
      ({ cmd0 .taken with err := some (0x0C, 0, 0) } : Cmd).err ≠ none) := by decide +kernel
/-- EngineCourse: every line of a workgroup with no stored line has 128 bytes. -/
theorem witness_lines : ∀ n, (wg0.line 0 n).data.length = 128 := fun _ => by rfl

/-- A member of quarter `q` that signed with MMA.F over K 4, N 1, M 1, its A local (`pc` 0) or supplied (`pc` 1). -/
def member0 (pc : Word) : Member :=
  { wave := 0, lanes := LaneMask.all, mma := [.mmaf flagged 0 2 6], regs := [(2, Row.splat 0x00100000), (3, Row.splat 0x00040101), (4, Row.splat 0), (5, Row.splat (2 * pc))],
    alloc := 248, flags := [0], op := 5, cap := 0 }
/-- A matrix operation of one core. -/
def mat0 (pc : Word) (read : List Nat) : MatOp :=
  { wg := 0, cv := 0, instr := .mmaf flagged 0 2 6, cores := [0], members := (List.range 4).map fun q => (q, member0 pc), read := read,
    aLines := if read = [] then [] else [(0, [fullLine])] }
/-- The lab with it. -/
def labMat (m : MatOp) : State := { lab [] with mops := [(7, m)], nextId := 8 }

/-- MatrixOperations: a member of quarter 1 read and not read; quarter 0 with A local and with A supplied; an operation not ready, and one ready. -/
theorem witness_MatrixOperations :
    let v : MatWord := ⟨0xA0, some .f32, false, 8, 8, 0, 0, 0, 2, 6, 0, 0⟩
    (∀ m ∈ [mat0 0 [], mat0 1 [], mat0 0 [0, 1, 2, 3]], FMap.get? (labMat m).mops 7 = some m ∧ m.word? = some v ∧ (memberAt m.members 0 1).isSome = true ∧
      (memberAt m.members 0 0).isSome = true ∧ FMap.get? (labMat m).ops 7 = none ∧ (labMat m).wg? m.wg = some wg0 ∧ m.cores.Nodup ∧ wg0.cores.Nodup ∧
      ∀ c ∈ m.cores, c < wg0.cores.length) ∧
    (1 ∈ (mat0 0 [0, 1, 2, 3]).read ∧ 1 ∉ (mat0 0 []).read ∧ 0 ∉ (mat0 0 []).read) ∧
    ((mat0 0 []).descs.map fun x => (x.1, x.2.pc, x.2.k, x.2.n, x.2.m)) = [(0, 0, 4, 1, 1)] ∧ ((mat0 1 []).descs.map fun x => x.2.pc) = [1] ∧
    (mat0 0 []).aReady = false ∧
    (let m := mat0 0 [0, 1, 2, 3]
     m.aReady = true ∧ (∀ p ∈ m.members, p.1 ∈ m.read) ∧ ∀ x ∈ m.descs, (labMat m).accPending m.wg (wg0.cores.getD x.1 0) 7 = false) ∧
    (labMat (mat0 0 [])).wave? (member0 0).wave = some (wave0 (labMat (mat0 0 []))) := by decide +kernel
/-- MatrixOperations: a last chunk of one product; a last block with each kind of scale. -/
theorem witness_chunks : ∃ e : Elem × Elem, 0 < 4 ∧ ([] : List (Elem × Elem)).length % 4 = 0 ∧ 0 < [e].length ∧ [e].length ≤ 4 ∧
    (sc8Val 0xFF = .invalid ∧ sc8Val 0 = .zero ∧ ∃ n d, sc8Val 8 = .fin n d) := by
  refine ⟨(.nested 2, .nested 2), by decide, by decide, by decide, by decide, by decide +kernel, by decide +kernel, ?_⟩
  cases h : sc8Val 8 with
  | fin n d => exact ⟨n, d, rfl⟩
  | zero => exact absurd h (by decide +kernel)
  | invalid => exact absurd h (by decide +kernel)

/-- Reductions: a legal window of one block over rows of the workgroup, one past its rows, a full counter; the operations alone over full lines. -/
theorem witness_Reductions :
    let s := lab [(4, 0), (5, 0), (6, 256), (7, 0x007F00BF)]
    let x := issue0 flagged s
    let t := labWave [] fun w => { w with counters := modAt w.counters 1 fun _ => (List.range 63).map fun n => ⟨n, 0, false⟩ }
    let g : Workgroup := { wg0 with sp := (List.range 384).map fun n => (n, fullLine) }
    let src := [Row.splat 1, Row.splat 0, Row.splat 0, Row.splat 256]
    let i := Instr.mred flagged false false 2 4 5 6
    let r := Instr.mrsc flagged false 4 2 6
    let e := Instr.merr flagged 2
    (IssuesLater flagged (dstGroup 2 1) s x ∧ Issues flagged [] s x ∧ x.act ≠ 0 ∧ s.wg? x.w.wg = some wg0 ∧ x.w.full 1 = false ∧ winOk wg0 (x.u 4) false = true ∧
      x.u 5 % 16 = 0 ∧ x.u 5 + 192 ≤ s.padSize x ∧ x.u 6 + 1 ≤ s.padSize x ∧ winOk wg0 (x.u 7) false = false ∧ (issue0 flagged t).w.full 1 = true) ∧
    Sole { labOp (op0 i src) with wgs := [(0, g)] } 7 (op0 i src) i ∧ Sole (labOp (op0 r src)) 7 (op0 r src) r ∧ Sole (labOp (op0 e [])) 7 (op0 e []) e ∧
    (labOp (op0 i src)).mops = [] ∧ rangeEmpty g 0 0 192 = false ∧ rangeEmpty g 0 256 1 = false :=
  ⟨⟨later_of rfl (by decide +kernel), issues_of rfl (by decide +kernel), by decide +kernel⟩, ⟨rfl, rfl, rfl, wave0 (lab []), by decide +kernel⟩,
    ⟨rfl, rfl, rfl, wave0 (lab []), by decide +kernel⟩, ⟨rfl, rfl, rfl, wave0 (lab []), by decide +kernel⟩, rfl, by decide +kernel⟩

/-! ### Witnesses: receives, the press, the privileged instructions -/

/-- A message of context 0 of this package to itself, of tag 9. -/
def msg0 : Msg :=
  { srcPkg := 0, srcCtx := 0, dstPkg := 0, dstCtx := 0, tag := 9, len := 192, lossy := false, cmd := some 7, snd := .flying 0, retryAt := 0, sent := [],
    count := 0, next := 0, num := 0, rcv := .none, arrived := [], ended := false, endAt := 0, blocks := 0,
    port := none, prot := false, wrote := none }
/-- A posted receive of any tag. -/
def posted0 : Posted := { wave := 0, gen := 0, wg := 0, core := 0, words := [0, 0, 0, 0, 192, 5, 0, 0xFFFFFFFF], num := 1 }
/-- The context with messages and receives. -/
def ctxWith (unexpected : List Nat) (posted : List Posted) : Context := { ctx0 with unexpected := unexpected, posted := posted }

/-- Receives: a valid entry with nothing waiting and room, an invalid one, a full list, a waiting message that matches; a receive with the
cookie and none; a probe that finds a message and one that finds none. -/
theorem witness_Receives :
    let words := (List.range 8).map (op0 (.postr flagged 2 4) ((posted0.words).map Row.splat)).entry
    let mine := fun (p : Posted) => p.wg == 0 && p.words.getD 5 0 == (5 : Word)
    (∀ i ∈ [Instr.postr flagged 2 4, .canrv flagged 2 4, .probe flagged 2 4], ∀ l ∈ [[], [1]], let s : State := { labOp (op0 i ((posted0.words).map Row.splat)) with ctxs := [(0, ctxWith l [])], msgs := [(1, msg0)] }
      s.wave? 0 = some (wave0 s) ∧ s.ctx? (wave0 s).ctx = some (ctxWith l [])) ∧
    words = posted0.words ∧ postValid 49152 words = true ∧ postValid 49152 [0, 0, 0, 0, 192, 5, 1, 0xFFFFFFFF] = false ∧
    entryMatches words msg0.srcPkg msg0.srcCtx msg0.tag = true ∧ entryMatches [1, 1, 0, 0] msg0.srcPkg msg0.srcCtx msg0.tag = false ∧
    (ctxWith [] []).posted.length < 4096 ∧ (ctxWith [1] []).unexpected.find? (fun _ => true) = some 1 ∧
    (ctxWith [] [posted0]).posted.find? mine = some posted0 ∧ (∀ p ∈ (ctxWith [] []).posted, mine p = false) := by decide +kernel
/-- Receives: the full list, and the operations alone. -/
theorem witness_receive_ops : 4096 ≤ (List.replicate 4096 posted0).length ∧
    Sole (labOp (op0 (.postr flagged 2 4) [])) 7 (op0 (.postr flagged 2 4) []) (.postr flagged 2 4) ∧
    Sole (labOp (op0 (.canrv flagged 2 4) [])) 7 (op0 (.canrv flagged 2 4) []) (.canrv flagged 2 4) ∧
    Sole (labOp (op0 (.probe flagged 2 4) [])) 7 (op0 (.probe flagged 2 4) []) (.probe flagged 2 4) :=
  ⟨by rw [List.length_replicate], sole_op _ _, sole_op _ _, sole_op _ _⟩

/-- PressOperations: the tuner, and a wave that is none; a press with a free granule, a claim of it, the handle returned and a bad handle; a set
that passes and one that fails; no press; a refill. -/
theorem witness_PressOperations :
    let s := lab []
    let x := issue0 flagged s
    let t : State := { s with wgs := [(0, { wg0 with ordinal := 1 })] }
    let q : Press := { press0 with regs := [0, 0, 0, 0, 0, 0, 0, 1, 0, 0, 1, 0, 0, 0, 0] }
    let r : State := { s with nodes := [(0, { node0 with press := some q })] }
    (s.isTuner x.key = true ∧ t.isTuner x.key = false ∧ x.act ≠ 0) ∧ s.press? 0 = some press0 ∧ ({ s with nodes := [] } : State).press? 0 = none ∧
    press0.loaded = true ∧ press0.anyFree = true ∧ (∀ e ∈ (s.die 0).preclaims, e.1 ≠ 0) ∧ (∀ e ∈ s.dies, e.2.reqs = []) ∧
    ((press0.claim (some 0)).map fun c => (c.2.valid? c.1).isSome) = some true ∧ press0.valid? 5 = none ∧ press0.tiles.length < 2 ^ 32 ∧
    schOk press0.rank press0.shadow = true ∧ schOk press0.rank ((2 : Word) ^ 20 :: press0.shadow.tail) = false ∧
    (r.node? 0).isSome = true ∧ (q.reg 7 % 2 ^ 24).testBit 0 = true ∧ ((r.die 0).preclaims.filter fun e => e.1 == 0).length < q.reg 10 % 2 ^ 4 ∧
    (r.claimAt 0 none).1.isSome = true := by decide +kernel
/-- PressOperations: the operations alone, and issues. -/
theorem witness_press_ops : IssuesLater flagged (dstGroup 2 8) (lab []) (issue0 flagged (lab [])) ∧ IssuesLater flagged [] (lab []) (issue0 flagged (lab [])) ∧
    Sole (labOp (op0 (.claim flagged 2) [])) 7 (op0 (.claim flagged 2) []) (.claim flagged 2) ∧
    Sole (labOp (op0 (.tret flagged false 2) [])) 7 (op0 (.tret flagged false 2) []) (.tret flagged false 2) ∧
    Sole (labOp (op0 (.schrd flagged false 2 3) [])) 7 (op0 (.schrd flagged false 2 3) []) (.schrd flagged false 2 3) ∧
    Sole (labOp (op0 (.schwr flagged 3 2) [])) 7 (op0 (.schwr flagged 3 2) []) (.schwr flagged 3 2) ∧
    Sole (labOp (op0 (.schcm flagged 2) [])) 7 (op0 (.schcm flagged 2) []) (.schcm flagged 2) :=
  ⟨later_of rfl (by decide +kernel), later_of rfl (by decide +kernel), sole_op _ _, sole_op _ _, sole_op _ _, sole_op _ _, sole_op _ _⟩

/-- PrivilegedIssue: an issue, with and without an active lane as in `witness_issue`; and a privileged word in the clause of a wave that is not. -/
theorem witness_PrivilegedIssue :
    let e : CheckEnv := ⟨1, 4, 0, 15, 248, 2, false, false, 0⟩
    let i := Instr.halt flagged 2 4
    IssuesLater flagged (dstGroup 2 2) (lab []) (issue0 flagged (lab [])) ∧ (issue0 flagged (lab [])).act ≠ 0 ∧ decode (wordOf i) = .ok i ∧
    ((Instr.facts? i).map fun f => f.priv && (f.pipe == 0 || f.pipe &&& e.pipes != 0) && !f.last && decide (f.pd.toNat ≤ 0) && f.cf == 15 &&
      f.al == 1) = some true ∧ e.priv = false ∧ e.stream = false ∧ e.setA ≠ 15 :=
  ⟨later_of rfl (by decide +kernel), by decide +kernel, by decide +kernel, by decide +kernel, rfl, rfl, by decide⟩

/-- SystemRegisters: a tail out of range, one within, no record held; a timer due and one not. -/
theorem witness_SystemRegisters :
    let d := State.reset.die 0
    d.trbSize ≤ 3 ∧ (0 < d.trbSize ∧ (0 + d.trbSize - d.trbTail) % d.trbSize ≤ (d.trbHead + d.trbSize - d.trbTail) % d.trbSize ∧ d.heldTraps = []) ∧
    d.cycle.toNat < d.timer.toNat ∧ ({ d with timer := 0 } : Die).timer.toNat ≤ ({ d with timer := 0 } : Die).cycle.toNat := by decide +kernel

/-- A wave handle of wave 0, and of no wave. -/
theorem witness_StopsAndReturns :
    let s := labOp (op0 (.halt flagged 2 4) [Row.splat 0])
    let stopped (st : Stop) : State := s.setWave 0 { wave0 s with stop := st }
    let idle := s.setWave 0 { wave0 s with clause := none }
    s.freeGone.waveAt 0 0 = some (0, wave0 s) ∧ s.freeGone.waveAt 0 1 = none ∧ (wave0 s).stop = .running ∧ (wave0 s).clause.isSome = true ∧
    ((idle.freeGone.waveAt 0 0).map fun p => (p.2.stop, p.2.clause.isSome)) = some (.running, false) ∧
    (∀ st ∈ [Stop.halted, .trapSlot, .trapCheck], ((stopped st).freeGone.waveAt 0 0).map (fun p => p.2.stop) = some st) ∧
    (0x0102 : Nat) < 2 ^ 13 ∧ 2 < allocated (wave0 s).nregs ∧ (wave0 s).dstReady [2] = true ∧ s.wg? (wave0 s).wg = some wg0 ∧
    (∀ h ∈ (wave0 s).holds, h.reg ≠ 2) := by decide +kernel
/-- StopsAndReturns: a wave of a workgroup that is being saved, and of one that is not. -/
theorem witness_frozen :
    let s : State := { labOp (op0 (.rte flagged .rep 2 4) [Row.splat 0]) with wgs := [(0, { wg0 with frozen := true })] }
    s.wg? (wave0 s).wg = some { wg0 with frozen := true } ∧ (lab []).wg? (wave0 (lab [])).wg = some wg0 ∧ wg0.frozen = false := by decide +kernel
/-- StopsAndReturns: the operations alone. -/
theorem witness_stop_ops :
    Sole (labOp (op0 (.halt flagged 2 4) [])) 7 (op0 (.halt flagged 2 4) []) (.halt flagged 2 4) ∧
    Sole (labOp (op0 (.rte flagged .skip 2 4) [])) 7 (op0 (.rte flagged .skip 2 4) []) (.rte flagged .skip 2 4) ∧
    Sole (labOp (op0 (.dbgrd flagged 2 4 5) [])) 7 (op0 (.dbgrd flagged 2 4 5) []) (.dbgrd flagged 2 4 5) ∧
    Sole (labOp (op0 (.dbgwr flagged 2 4 5 6) [])) 7 (op0 (.dbgwr flagged 2 4 5 6) []) (.dbgwr flagged 2 4 5 6) :=
  ⟨sole_op _ _, sole_op _ _, sole_op _ _, sole_op _ _⟩

/-- PrivilegedEffects: a good and a bad TINV and PRSRS word; a workgroup by its handle and none, its wave stopped; a ticket; aligned and misaligned
ranges; a byte of device memory in a scrubbed range; a pending event and none; frames. -/
theorem witness_PrivilegedEffects :
    let s := labOp (op0 (.idle flagged 2) [])
    let bad := fun (v count : Nat) => 5 < v % 16 ∨ v / 2 ^ 4 % 2 ^ 12 ≠ 0 ∨ v / 2 ^ 28 % 2 ^ 4 ≠ 0 ∨ ((v % 16 = 3 ∨ v % 16 = 4) ∧ count = 0)
    let halted := s.setWave 0 { wave0 s with stop := .halted }
    (¬bad 0 0 ∧ bad 3 0 ∧ ¬bad 3 1 ∧ bad 6 0 ∧ (3 : Nat) % 16 ≠ 5) ∧ s.wgAt 0 0 = some (0, wg0) ∧ s.wgAt 0 64 = none ∧
    (∀ k ∈ wg0.waves, (halted.wave? k).map (fun w => w.stop) = some .halted) ∧ (s.frames = [] ∧ s.backing (0x60 / 48 * 48) = .dev 0) ∧
    ((s.die 0).evPend ||| (s.die 0).evNow) &&& (s.die 0).evMask = 0 ∧
    (let t := s.modDie 0 fun d => { d with evPend := 4, evMask := 4 }
     ((t.die 0).evPend ||| (t.die 0).evNow) &&& (t.die 0).evMask ≠ 0) ∧
    s.frameAddr 192 = true ∧ s.frameAddr 193 = false ∧ FMap.get? s.frames 192 = none ∧
    (s.resolveWith 0 0 3 0 0 .replay 0 0).1 = none ∧
    ((s.modDie 0 fun d => { d with merge := [⟨0, 3, 0, 0⟩] }).resolveWith 0 0 3 0 0 .replay 0 0).1 = some 0 := by decide +kernel
/-- PrivilegedEffects: whatever the key store answers, one of the clauses of KEYLD and of FWSIG applies. -/
theorem witness_keys (die slot : Nat) (bs : List Byte) :
    (hasKeySlot die 2 slot = false ∨ hasKeySlot die 2 slot = true) ∧ (Config.keyUnwrap die bs = none ∨ ∃ k, Config.keyUnwrap die bs = some k) ∧
    (Config.verifyKey slot = none ∨ ∃ k, Config.verifyKey slot = some k) := by
  refine ⟨?_, ?_, ?_⟩
  · cases hasKeySlot die 2 slot <;> simp
  · cases Config.keyUnwrap die bs <;> simp
  · cases Config.verifyKey slot <;> simp
/-- PrivilegedEffects: key memory whose last bytes are zero, and not; each kind of key that a die holds. -/
theorem witness_key_bytes :
    let s := labOp (op0 (.keyld flagged 2 4 6) [])
    let t : State := { s with mem := Memory.write [] 60 [1] }
    (∀ k, k < 64 → 48 ≤ k → (s.homeRead 0 64).getD k 0 = 0) ∧ (t.homeRead 0 64).getD 60 0 ≠ 0 ∧ hasKeySlot 0 0 0 = true ∧ hasKeySlot 0 0 63 = false ∧
    hasKeySlot 0 1 0 = true := by decide +kernel
/-- PrivilegedEffects: the operations alone. -/
theorem witness_privileged_ops :
    ∀ i ∈ [Instr.tinv flagged 2 4, .tckt flagged true 2 4 6, .tckt flagged false 2 4 6, .scrub flagged .mem 2 4 6, .scrub flagged .sp 2 4 6,
      .scrub flagged .acc 2 4 6, .keyld flagged 2 4 6, .fwsig flagged 2 4, .idle flagged 2, .prsrs flagged .poison 2 4, .ctxsv flagged 2 4 6,
      .ctxld flagged 2 4 6], Sole (labOp (op0 i [])) 7 (op0 i []) i ∧ (op0 i []).aux = 0 := fun _ _ => ⟨sole_op _ _, rfl⟩

/-! ### Witnesses: misses, resolutions, launches -/

/-- FaultRecords: a key with and without an entry, a full table; a record whose ring has room, and none; requests in the ring, held, and
without an entry. -/
theorem witness_FaultRecords :
    let d := dieWith req0
    let f : Func := { Func.reset with fqSize := 64, fqOn := true }
    let s : State := { lab [] with dies := [(0, { Die.reset with faults := [(0, [])] })], fns := f :: List.replicate 8 Func.reset }
    d.hasMerge 0 3 0 1 = true ∧ d.hasMerge 0 3 0 2 = false ∧ d.merge.length < Config.mergeEntries ∧
    ({ d with merge := List.replicate 1024 ⟨0, 3, 0, 1⟩ } : Die).hasMerge 0 3 0 2 = false ∧
    Config.mergeEntries ≤ ({ d with merge := List.replicate 1024 ⟨0, 3, 0, 1⟩ } : Die).merge.length ∧
    (s.die 0).faults = [(0, [])] ∧ (s.fn 0).room = true ∧ (∀ r ∈ ((lab []).die 0).faults, ((lab []).fn r.1).room = false) ∧
    ((dieWith { req0 with place := .ring }).reqs.find? (fun r => r.2.place == .ring)).isSome = true ∧
    ((dieWith { req0 with place := .held }).reqs.find? (fun r => r.2.place == .held && !r.2.noEntry)).isSome = true ∧
    ((dieWith { req0 with place := .held, noEntry := true }).reqs.find? (fun r => r.2.noEntry)).isSome = true ∧
    FMap.get? d.reqs 5 = some req0 ∧ FMap.get? d.reqs 4 = none ∧
    (let e := dieWith { req0 with place := .held, noEntry := true }
     e.reqs.filter (fun r => r.2.noEntry) = [(5, { req0 with place := .held, noEntry := true })] ∧
     ({ e with merge := List.replicate 1024 ⟨0, 3, 0, 9⟩ } : Die).hasMerge 0 3 0 1 = false ∧
     Config.mergeEntries ≤ ({ e with merge := List.replicate 1024 ⟨0, 3, 0, 9⟩ } : Die).merge.length) := by decide +kernel

/-- A write into the resolution window of die 0: bytes of a record with the key of `req0` and an action. -/
def winWrite (act : Nat) : WinWrite := ⟨0, leBytes 8 49152 ++ leBytes 2 3 ++ leBytes 2 0 ++ leBytes 1 act ++ List.replicate 19 0⟩
/-- Resolutions: each action, a bad action, a tail; a key with a requester and without; a load replayed with POISON; an import of a page. -/
theorem witness_Resolutions :
    let s : State := { labOp (op0 (.ldg flagged .b32 false 2 ⟨4, 255, 0⟩) []) with dies := [(0, dieWith { req0 with res := some .poison })] }
    let d := dieWith req0
    let c : Context := { ctx0 with prot := true, pageKey := some 1, versions := [(0, 1)], parts := 1 }
    let u : State := { labMem [] with ctxs := [(0, c)], runs := [⟨0, 98304, 49152, 0⟩], dies := [(0, { Die.reset with imports := [(5, (0, 0, 49152, 0))] })] }
    s.winAct 0 (winWrite 0) = .resolve .replay 49152 3 0 0 0 0 ∧ s.winAct 0 (winWrite 2) = .resolve .poison 49152 3 0 0 0 0 ∧
    s.winAct 0 (winWrite 4) = .resolve .kill 49152 3 0 0 0 0 ∧ s.winAct 0 (winWrite 6) = .discard ∧ s.winAct 0 ⟨32, leBytes 8 5⟩ = .tail 5 ∧
    (winWrite 6).bytes.length = 32 ∧ 6 ≤ field (winWrite 6).bytes 12 1 % 8 ∧ s.winAct 0 ⟨8, []⟩ = .discard ∧
    d.hasMerge 0 3 0 2 = false ∧ d.hasMerge 0 3 0 1 = true ∧ 5 ∈ d.requesters 0 3 0 1 ∧
    (FMap.get? (s.die 0).reqs 5 = some { req0 with res := some .poison } ∧ FMap.get? s.ops 7 = some (op0 (.ldg flagged .b32 false 2 ⟨4, 255, 0⟩) [])) ∧
    (FMap.get? (u.die 0).imports 5 = some (0, 0, 49152, 0) ∧ (u.die 0).fwHeld = false ∧ u.ctx? 0 = some c ∧ u.frameOk c 0 = some 0 ∧
      u.leafAt c 0 = some 1536 ∧ c.prot = true ∧ c.ended = false ∧ 0 / pageBytes / 2 ^ 28 ≤ 5461 ∧ c.pageKey = some 1 ∧ u.hostRange 49152 (49152 + 64) = true ∧ FMap.get? c.versions 0 = some 1) := by decide +kernel
/-- Resolutions, KILL: a parked load of a protected context and of another, a press access, a read that has no launch yet. -/
theorem witness_kill :
    let s (p : Bool) (k : ReqKind) : State := { labOp (op0 (.ldg flagged .b32 false 2 ⟨4, 255, 0⟩) []) with
      dies := [(0, dieWith { req0 with kind := k })], ctxs := [(0, { ctx0 with prot := p })] }
    (∀ p, FMap.get? ((s p (.op 7 1)).die 0).reqs 5 = some req0 ∧ (s p (.op 7 1)).reqWg req0 = some 0 ∧ (s p (.op 7 1)).anyWg? 0 = some wg0 ∧
      (s p (.op 7 1)).isProt wg0 = p) ∧ ((dieWith req0).requesters 0 3 0 1 = [5]) ∧
    (FMap.get? ((s false (.press 0)).die 0).reqs 5).map Req.kind = some (.press 0) ∧ (s false (.press 0)).endingNode 0 = false ∧
    (FMap.get? ((s false (.take 0 0)).die 0).reqs 5).map Req.kind = some (.take 0 0) := by decide +kernel
/-- Resolutions, a failed import: an address of zero, no leaf, a frame outside the partition, with a requester and with none. -/
theorem witness_bad_import :
    let c : Context := { ctx0 with prot := true, pageKey := some 1, versions := [(0, 1)], parts := 1 }
    let u (frame : Nat) (l : FMap Req) : State :=
      { labMem [] with ctxs := [(0, c)], dies := [(0, { Die.reset with imports := [(5, (0, 0, 0, frame))], reqs := l })] }
    let r : Req := { req0 with page := 0, vpage := 0, va := 0, res := some .replay }
    (∀ l ∈ [[], [(5, r)]], FMap.get? ((u 0 l).die 0).imports 5 = some (0, 0, 0, 0) ∧ ((u 0 l).die 0).fwHeld = false ∧ (u 0 l).ctx? 0 = some c) ∧
    (u (2 ^ 40) []).frameOk c (2 ^ 40) = none ∧ ({ u 0 [] with mem := [] } : State).leafAt c 0 = none ∧ FMap.get? c.versions 0 ≠ some 2 ∧
    ((((u 0 [(5, r)]).die 0).reqs.filter fun r => r.2.res == some .replay && r.2.stage == 0 && r.2.ctx == 0 && r.2.page == 0) = [(5, r)]) := by decide +kernel
/-- FirmwareCommands: a hand-over record goes into the copy that is not in force, and is committed or not (R426, R428). -/
theorem witness_hand_over :
    let c (n : Nat) : HandCopy := ⟨n, 2, 3, 1, 0, 1, 0, [], 0⟩
    let u : Machine.Unit := { Unit.reset with handA := some (c 1), commit := 1 }
    let w : Machine.Unit := { Unit.reset with handB := some (c 1), commit := 1 }
    ((c 1).seq = u.commit ∧ u.handA = some (c 1)) ∧ (w.handB = some (c 1) ∧ w.handA = none) ∧
    ((u.handOver true c).handB = some (c 2) ∧ (u.handOver true c).commit = 2 ∧ (u.handOver false c).commit = 1) := by decide
/-- Resolutions: whatever the unsealing answers, it is a page or a refusal. -/
theorem witness_unsealing (k a c t : List Byte) : (∃ p, Config.gcmOpen k a c t = some p) ∨ Config.gcmOpen k a c t = none := by
  cases Config.gcmOpen k a c t <;> simp

/-- A queue with a control block. -/
def queue0 : Machine.Queue := ⟨some ⟨0, 8, 1, false, false, true, 4, 5, 0⟩, 2, 1, none, false, none, 0⟩
/-- Scheduling: held and not; a queue of an ended context, a doorbell in order and two that are not; a queue to take from within its weight and
beyond it; an eligible node, and none. -/
theorem witness_Scheduling :
    let s : State := { lab [] with ctxs := [(0, { ctx0 with queues := [queue0], qtab := 2 ^ 51 })] }
    let t : State := { lab [] with ctxs := [(0, { ctx0 with queues := [{ queue0 with round := 4 }], qtab := 2 ^ 51 })] }
    let e : State := { lab [] with nodes := [(0, { node0 with stage := .eligible })] }
    s.schedHeld = false ∧ (∀ c, ({ s with ctxs := [] } : State).ctx? 0 = some c → c.owner ≠ 0 ∨ c.ended = true ∨ c.queues.length ≤ 0) ∧
    (s.queue? 0 0 = some queue0 ∧ queue0.qcb.isSome = true ∧ ¬((3 : Nat) < queue0.wc ∨ queue0.rd + 8 < 3) ∧ (1 < queue0.wc ∨ queue0.rd + 8 < 1) ∧
      (10 < queue0.wc ∨ queue0.rd + 8 < 10)) ∧
    (s.takeable 0 0 queue0 = some (1, 4) ∧ queue0.round < 4) ∧
    (t.takeable 0 0 { queue0 with round := 4 } = some (1, 4) ∧ ¬({ queue0 with round := 4 } : Machine.Queue).round < 4 ∧ t.roundOver 1 = true) ∧
    (e.freeGone = e ∧ e.nodes = [(0, { node0 with stage := .eligible })] ∧ node0.parts.length ≤ 1) ∧
    ((lab []).freeGone = lab [] ∧ ∀ n ∈ (lab []).nodes, n.2.stage ≠ .eligible) ∧
    ({ s with activation := some ⟨3, 0, 0, 0, true⟩ } : State).schedHeld = true ∧ s.node? 0 = some node0 := by
  refine ⟨by decide +kernel, fun c h => ?_, by decide +kernel, by decide +kernel, by decide +kernel, by decide +kernel, by decide +kernel, ?_, by decide +kernel⟩
  · exact absurd h (by simp [State.ctx?, FMap.get?])
  · decide +kernel
/-- Scheduling, dispatch: of two eligible launches the one over two partitions goes first by its priority; with no die in its partitions it cannot. -/
theorem witness_dispatch :
    let m : Node := { node0 with nextWg := 0, press := none, total := 2, parts := [0, 1], stage := .eligible }
    let n : Node := { node0 with nextWg := 0, press := none, prio := 1, stage := .eligible }
    let s : State := { labMem [] with wgs := [], waves := [], cores := [], parts := [[0], [1], [], [], [], [], [], []], nodes := [(0, n), (1, m)] }
    let t : State := { s with parts := List.replicate 8 [], nodes := [(0, { n with stage := .running }), (1, m)] }
    s.freeGone = s ∧ s.schedHeld = false ∧ (1, m) ∈ s.nodes ∧ m.stage = .eligible ∧ (s.placeable 1 m = true ∧ s.outranked 1 m = false) ∧ m.prio < n.prio ∧
    1 < m.parts.length ∧ m.kernel = some k0 ∧ (s.reserve 1 m k0).isSome = true ∧ n.parts.length ≤ 1 ∧
    t.freeGone = t ∧ (∀ p ∈ t.nodes, p.2.stage = .eligible → 1 < p.2.parts.length ∧ (t.placeable p.1 p.2 = false ∨ t.outranked p.1 p.2 = true)) ∧
    t.reserve 1 m k0 = none := by decide +kernel
/-- Scheduling: a control block that is not committed leaves the one there is, and here its counter is at its limit. -/
theorem witness_qcb :
    let s : State := { lab [] with ctxs := [(0, { ctx0 with queues := [queue0], qtab := 192 })], mem := Memory.write [] 368 (leBytes 8 2),
                                   telem := [(0x08 * 4096, 2 ^ 64 - 1)] }
    s.readQcb 0 0 = s ∧ s.queue? 0 0 = some queue0 := by decide +kernel

/-! ### Witnesses: placement -/

/-- A launch of one workgroup that has not started. -/
def node1 : Node := { node0 with nextWg := 0, press := none }
/-- The kernel of the launch without the core-exclusive flag. -/
def k1 : Kernel := { k0 with flg := 1 }
/-- Core 0 idle, partition 0 on die 0, one launch that waits for room. -/
def idleState (n : Node) : State := { labMem [] with wgs := [], waves := [], nodes := [(0, n)], cores := [] }

/-- Placement, a workgroup placed: the launch's only unit, on core 0 of die 0, whatever its partition tries. -/
theorem witness_Placement_place :
    let s := idleState node1
    let u := s.freeGone
    s.node? 0 = some node1 ∧ node1.kernel = some k0 ∧
    (((List.range (max 1 node1.parts.length)).filter fun j => (u.partDies node1 j).contains 0).filterMap (node1.pending k0)) = [0] ∧
    node1.stage = .running ∧ node1.killed = false ∧ ([[0]] : List (List Nat)).length = (node1.unitOf k0 0).length ∧ (([[0]] : List (List Nat)).flatMap id).Nodup ∧
    gangShape (([[0]] : List (List Nat)).flatMap id) = true ∧ (∀ x ∈ ([[0]] : List (List Nat)), x ∈ coreSets k0.crs ∧ u.fits node1 k0 0 none x = true) ∧
    u.pinRoom 0 node1 0 = true ∧ u.ticketHeld node1 0 = false ∧ u.readyGangs 0 = [] ∧ u.outranked 0 node1 = false ∧
    (∀ j, j < max 1 node1.parts.length → ((u.canPlace 0 node1 k0 j).map fun p => decide (0 ≤ p.1)).getD true = true) := by decide +kernel

/-- Placement, threads that start: staging under way, a frozen workgroup, and one to start; a workgroup that may retire or not; a grace period over
and not. -/
theorem witness_Placement_threads :
    let g : Gang := ⟨0, [0], [0], ⟨0, []⟩⟩
    let s := lab []
    let x : Workgroup := { wg0 with started := false }
    let t : State := { s with wgs := [(0, x)] }
    (FMap.get? s.gangs 0 = some g ∧ s.gangWgs g = [(0, wg0)] ∧ wg0.waves.Nodup ∧ ({ wg0 with staging := [3] } : Workgroup).staging ≠ [] ∧
      ({ wg0 with frozen := true } : Workgroup).frozen = true) ∧
    (FMap.get? t.gangs 0 = some g ∧ t.gangWgs g = [(0, x)] ∧ x.staging = [] ∧ x.frozen = false ∧ x.started = false ∧ t.wg? 0 = some x) ∧
    (s.wg? 0 = some wg0 ∧ s.residentOf wg0.gang = [(0, wg0)] ∧ s.canRetire wg0 0 = false ∧ ({ s with waves := [] } : State).canRetire wg0 0 = true) ∧
    (({ s with nodes := [(0, { node0 with graceAt := some 5 })] } : State).node? 0 = some { node0 with graceAt := some 5 } ∧ ¬(5 ≤ s.usec) ∧
      5 ≤ ({ s with usec := 5 } : State).usec ∧ node0.stage = .running ∧ ({ node0 with stage := .ending } : Node).stage = .ending ∧
      ({ node0 with stage := .complete } : Node).stage ≠ .running ∧ ({ node0 with stage := .complete } : Node).stage ≠ .ending) := by decide +kernel

/-- Two launches: a running one of lower priority on core 0, and one that waits for that core. -/
def fullState (packet : Bool) : State :=
  { labMem [] with nodes := [(0, { node0 with prio := 1, press := none, packet := packet }), (1, { node1 with press := some press0 })] }
/-- Placement, a victim: of a packet queue, and of another. -/
theorem witness_Placement_victim : ∀ packet : Bool,
    let s := fullState packet
    let n : Node := { node1 with press := some press0 }
    let u := s.freeGone
    s.stopping = [] ∧ s.node? 1 = some n ∧ n.kernel = some k0 ∧ u.waitsRoom 1 n = true ∧ u.placeable 1 n = false ∧
    (dedup (u.wgs.map fun g => g.2.gang)).filter (fun g => u.victimOk 1 n k0 g) = [0] ∧ u.residentOf 0 = [(0, wg0)] ∧
    ((u.node? 0).map fun m => ((u.modeOf m).1, m.graceAt)) = some (packet, none) := by decide +kernel
/-- Placement, several victims: two launches of lower priority on the two cores that the waiting one may use. -/
theorem witness_Placement_victims :
    let s0 := fullState false
    let g : Workgroup := { wg0 with node := 2, gang := 1, cores := [1], waves := [64] }
    let n : Node := { node1 with press := some { press0 with regs := modAt press0.regs 8 fun _ => 3 } }
    let s : State := { s0 with nodes := s0.nodes ++ [(2, { node0 with prio := 2, press := none })], wgs := s0.wgs ++ [(1, g)],
                               waves := s0.waves ++ [(64, { wave0 s0 with wg := 1 })], gangs := s0.gangs ++ [(1, ⟨2, [1], [1], ⟨0, []⟩⟩)],
                               cores := s0.cores ++ [(1, { Core.reset with spWays := 1 })] }
    let s1 : State := { s with nodes := s.nodes.map fun x => if x.1 = 1 then (1, n) else x }
    let u := s1.freeGone
    s1.stopping = [] ∧ s1.node? 1 = some n ∧ n.kernel = some k0 ∧ u.waitsRoom 1 n = true ∧ u.placeable 1 n = false ∧ u.victims 1 n k0 = (0 :: [1], false) ∧
    (u.residentOf 1).head? = some (1, g) ∧ (u.residentOf 0).head? = some (0, wg0) ∧ (u.node? 2).map Node.prio = some 2 ∧ (u.node? 0).map Node.prio = some 1 := by
  decide +kernel
/-- Placement: a stop that can be brought to its end, and that of a lapsed session, which has no room. -/
theorem witness_Placement_stops :
    let s : State := { lab [] with wgs := [(0, { wg0 with frozen := true })], waves := [(0, { wave0 (lab []) with stop := .agent, clause := none })] }
    let t : State := { s with sessions := [(4, ⟨0, [0], 10, 20, [], 4, 100, true, false⟩)] }
    s.stopping = 0 :: [] ∧ s.evictable 0 = true ∧ t.stopping = [0] ∧ ∀ g ∈ t.stopping, t.evictable g = false := by decide +kernel
/-- Placement, a victim: its queue's copy in force is in another mode than when the command was taken. -/
theorem witness_Placement_mode :
    let b : Qcb := ⟨0, 1, 0, true, false, true, 1, 7, 0⟩
    let s : State := { fullState false with ctxs := [(0, { ctx0 with queues := [⟨some b, 0, 0, none, false, none, 0⟩] })] }
    (s.queue? node0.ctx node0.q).map (fun x => x.qcb) = some (some b) ∧ s.modeOf node0 = (true, 7) := by decide +kernel

/-- The lab's wave blocked on a word in every thread. -/
def blocked (s : State) : Wave :=
  { wave0 s with clause := none, pct := laneNums.map fun _ => ⟨false, true, 0, 0, 0⟩, waits := laneNums.map fun L => (L, .word 0x800 false .eq 0) }
/-- Placement, a gang swapped out: its wave waits, another unit of the launch waits for room, and a frame has room. -/
theorem witness_Placement_swap :
    let s0 := labMem []
    let n : Node := { node0 with total := 2 }
    let s : State := { s0 with waves := [(0, blocked s0)], wgs := [(0, { wg0 with swappable := some 4 })], nodes := [(0, n)],
                               ctxs := [(0, { ctx0 with frb := 0, frs := 2 ^ 20 })] }
    let u := s.freeGone
    s.node? 0 = some n ∧
    ((dedup ((u.wgs.filter fun g => g.2.node == 0).map fun g => g.2.gang)).filterMap fun g =>
      if u.underCtxsv g then none else (u.swappableGang g).map fun t => (t, g)) = [(4, 0)] ∧
    u.waitsRoom 0 n = true ∧ u.placeable 0 n = false ∧ (∀ w ∈ u.residentOf 0, u.settled w.1 = true ∧ (u.die w.2.die).fwHeld = false) ∧
    (∃ w ∈ ({ u with dies := [(0, { Die.reset with fwHeld := true })] } : State).residentOf 0,
      (({ u with dies := [(0, { Die.reset with fwHeld := true })] } : State).die w.2.die).fwHeld = true) ∧
    (let t := u.quietGang 0
     (t.swappableGang 0).isSome = true ∧ (t.saveRoom 0).isSome = true ∧ ({ t with ctxs := [(0, ctx0)] } : State).saveRoom 0 = none) := by decide +kernel

/-- The lab's workgroup in a frame, its thread 0 waiting on a word of virtual page 0. -/
def frame0 (ready : Option Nat) : Frame :=
  { wg := wg0, id := 0, waves := [⟨blocked (lab []), 0, .agent⟩], acc := [], ways := [1], sealed := false, ready := ready, why := 0, length := 49152, torn := false }
/-- PrivilegedEffects: a sealed frame of a running launch whose bytes were written over. -/
theorem witness_torn :
    let f : Frame := { frame0 none with sealed := true, torn := true }
    let s : State := { idleState { node1 with nextWg := 1 } with frames := [(0, f)] }
    s.frameAddr 0 = true ∧ FMap.get? s.frames 0 = some f ∧ s.freeGone.node? f.wg.node = some { node1 with nextWg := 1 } ∧ node1.kernel = some k0 ∧
    (s.freeGone.gangFrames f.wg.gang).head? = some (0, f) ∧ f.sealed = true ∧ s.freeGone.frameIntact 0 f = false := by decide +kernel

/-- Placement, waiters: a waiter beyond the table, a condition that holds; a saved thread whose word is looked at again; a gang that returns. -/
theorem witness_Placement_waiters :
    let x : Waiter := ⟨0, 0, 0x800, false⟩
    let s : State := { labMem [] with waves := [(0, blocked (lab []))], dies := [(0, { Die.reset with waiters := [x] })] }
    let n : Node := { node1 with nextWg := 1 }
    let f : State := { idleState n with frames := [(98304, frame0 none)] }
    let r : State := { idleState n with frames := [(98304, frame0 (some 3))] }
    let u := r.freeGone
    ((s.die 0).waiters.find? fun y => y.wave == x.wave && y.lane == x.lane && !y.entered) = some x ∧ s.wave? 0 = some (blocked (lab [])) ∧
    FMap.get? (blocked (lab [])).waits 0 = some (.word 0x800 false .eq 0) ∧ swCond .eq false (s.waitWord 0x800 false) 0 = true ∧
    swCond .ne false (s.waitWord 0x800 false) 0 = false ∧ s.backing 0x800 = .dev 0 ∧ (s.die 0).remoteWaits = [] ∧
    (f.frames = [(98304, frame0 none)] ∧ (frame0 none).id = 0 ∧ (frame0 none).waves[0]? = some ⟨blocked (lab []), 0, .agent⟩ ∧ f.ctx? wg0.ctx = some ctx0 ∧
      (match walk f ⟨[], []⟩ ctx0 0x800 .load with | .ok p => decide (p.2.1 = 0x800) | .error _ => false) = true ∧ (∀ d ∈ f.dies, d.2.reqs = []) ∧ f.backing 0x800 = .dev 0) ∧
    (r.node? 0 = some n ∧ ((u.readyGangs 0).find? fun g => (u.partDies n (u.gangPart n k0 g)).any fun d => (u.returnOn 0 n k0 g d).isSome) = some 0 ∧ (u.die 0).fwHeld = false ∧
      ([[0]] : List (List Nat)).length = (u.gangFrames 0).length ∧ (((u.gangFrames 0).zip [[0]]).all fun y => decide (y.2 ∈ coreSets k0.crs) && u.fits n k0 0 (some y.1.2) y.2) = true ∧
      0 ∈ u.partDies n (u.gangPart n k0 0) ∧ u.pinRoom 0 n 0 = true ∧ n.stage = .running ∧ u.outranked 0 n = false) := by decide +kernel

/-! ### Witnesses: the mailbox -/

/-- The lab with a command in flight at a function's mailbox: its code, the length of its request, and the request. -/
def asked (fn code : Nat) (req : List Byte) (s : State) : State :=
  { s with boot := .ready, fns := modAt s.fns fn fun f => { f with taken := some (BitVec.ofNat 64 (code + req.length * 2 ^ 16), req.zipIdx.map fun b => (b.2, b.1)) } }
/-- The command is asked. -/
def askedB (fn code : Nat) (s : State) : Bool :=
  (match (s.fn fn).taken with | some (cmd, _) => cmd.toNat % 2 ^ 16 == code && cmdOk cmd | none => false) && s.boot == .ready && !s.mbHeld && !s.minimal

theorem asked_of {fn code : Nat} {s : State} (h : askedB fn code s = true) : ∃ cmd req, Asked s fn code cmd req := by
  unfold askedB at h
  cases ht : (s.fn fn).taken with
  | none => simp [ht] at h
  | some p =>
    obtain ⟨cmd, req⟩ := p
    simp only [ht, Bool.and_eq_true, beq_iff_eq, Bool.not_eq_true'] at h
    exact ⟨cmd, req, ht, h.1.1.2, h.1.2, h.2, h.1.1.1.1, h.1.1.1.2⟩

/-- MailboxCourse: a fault queue off and on, a go with nothing in flight and with a command in flight; an unknown code, a root command. -/
theorem witness_MailboxCourse :
    let s := lab []
    let t := asked 0 0x00AA [] s
    let u := asked 1 0x0040 [] s
    (s.fn 8).fqOn = false ∧ ({ Func.reset with fqOn := true } : Func).fqOn = true ∧ (s.fn 8).taken = none ∧ (t.fn 0).taken ≠ none ∧
    ((2 : BitVec 64) ^ 63).getLsbD 63 = true ∧ askedB 0 0x00AA t = true ∧ 0x00AA ∉ mbCodes ∧ askedB 1 0x0040 u = true ∧
    cmdOk (BitVec.ofNat 64 (0x0040 + 2 ^ 48)) = false ∧ 8 < s.fns.length ∧ (192 : BitVec 64).toNat % 64 = 0 ∧ (255 : BitVec 64).toNat < 256 ∧ (t.fn 0).mbRsp.length ≤ 4096 := by decide +kernel

/-- A descriptor for context 1 of function 0: no tables, one queue. -/
def descr : List Byte := List.replicate 26 0 ++ leBytes 2 1 ++ List.replicate 164 0 ++ leBytes 2 1
/-- MailboxCommands: IDENT, ATTEST, a good and a short descriptor; a bound ASID and an unbound one; a context ended, of another function, absent. -/
theorem witness_MailboxCommands_contexts :
    let s := asked 0 0x0010 descr (lab [])
    let cmd : BitVec 64 := BitVec.ofNat 64 (0x0010 + 194 * 2 ^ 16)
    let req : FMap Byte := descr.zipIdx.map fun b => (b.2, b.1)
    (s.fn 0).taken = some (cmd, req) ∧ askedB 0 0x0010 s = true ∧ descriptorOk cmd req = true ∧ descriptorOk cmd [] = false ∧
    ownsParts 0 (contextFrom req 0 (some s.drawn)).parts = true ∧ (∀ o, s.ctx? 1 = some o → o.ended = true) ∧ (contextFrom req 0 (some s.drawn)).vmid = 0 ∧
    FMap.get? s.asids 0 = none ∧ (FMap.get? ({ s with asids := [(0, 0)] } : State).asids 0).isSome = true ∧ reqField req 192 2 = 1 ∧
    askedB 0 0x0001 (asked 0 0x0001 [] (lab [])) = true ∧ askedB 0 0x0002 (asked 0 0x0002 [] (lab [])) = true ∧
    (let t := asked 1 0x0011 [] (lab [])
     askedB 1 0x0011 t = true ∧ t.ctx? 0 = some ctx0 ∧ ctx0.ended = false ∧ ctx0.owner ≠ 1 ∧ t.ctx? 9 = none) ∧
    askedB 0 0x0011 (asked 0 0x0011 [] (lab [])) = true := by
  refine ⟨by decide +kernel, by decide +kernel, by decide +kernel, by decide +kernel, by decide +kernel, fun o h => ?_, by decide +kernel⟩
  have : (asked 0 0x0010 descr (lab [])).ctx? 1 = none := by decide +kernel
  exact absurd (this.symm.trans h) (by simp)
/-- MailboxCommands: ASIDRT in its four cases, S2ROOT, PAGEOUT of a page of a protected context and of another, tables that are kept and refused. -/
theorem witness_MailboxCommands_tables :
    let a (m : FMap Nat) (c : Context) : State := asked 0 0x0012 [] { lab [] with asids := m, ctxs := [(0, c)] }
    let p (k : Option Nat) : Context := { ctx0 with prot := k.isSome, pageKey := k }
    let g (k : Option Nat) : State := asked 0 0x0014 [] { labMem [] with ctxs := [(0, p k)], runs := [⟨0, 98304, 49152, 0⟩] }
    (askedB 0 0x0012 (a [] ctx0) = true ∧ FMap.get? (a [] ctx0).asids 3 = none ∧ FMap.get? (a [(3, 1)] ctx0).asids 3 = some 1 ∧ (1 : Nat) ≠ 0) ∧
    (FMap.get? (a [(3, 0)] ctx0).asids 3 = some 0 ∧ (∃ c ∈ (a [(3, 0)] ctx0).ctxs, c.2.ended = false ∧ c.2.vmid = 0 ∧ c.2.asid = 3) ∧
      ∀ c ∈ (a [(3, 0)] { ctx0 with ended := true }).ctxs, c.2.ended = true ∨ c.2.vmid ≠ 0 ∨ c.2.asid ≠ 3) ∧
    askedB 0 0x0013 (asked 0 0x0013 [] (lab [])) = true ∧
    ((∀ k ∈ [none, some 1], askedB 0 0x0014 (g k) = true ∧ (g k).hostRange 49152 (49152 + 64) = true ∧
        (match (g k).ownCtx 0 0 with | .ok c => decide (c = p k) | .error _ => false) = true) ∧
      (p none).pageKey = none ∧ (p (some 1)).pageKey = some 1 ∧ (g (some 1)).leafAt (p (some 1)) 0 = some 1536 ∧
      (g (some 1)).leafPage (p (some 1)) 1536 = some 0) ∧
    askedB 0 0x0020 (asked 0 0x0020 [] (lab [])) = true ∧ askedB 0 0x0021 (asked 0 0x0021 [] (lab [])) = true ∧
    askedB 0 0x0022 (asked 0 0x0022 [] { lab [] with ctxs := [] }) = true ∧ ([[23]] : List (List Nat)).length ≤ 8 ∧ ¬([[0], [0]].flatMap id : List Nat).Nodup ∧
    ([⟨0, 49152, 4096, 1⟩] : List HostRun).all hostRunOk = true ∧ ([⟨0, 49152, 4096, 2⟩] : List HostRun).all hostRunOk = false ∧
    ([fetchRange].all pamtRangeOk && apart pamtMeet [fetchRange]) = true ∧ apart pamtMeet [fetchRange, fetchRange] = false := by decide +kernel
/-- MailboxCommands: a range that a context maps, and one that none does; two ranges that meet in a channel, and two that do not although both have it. -/
theorem witness_MailboxCommands_ranges :
    let s := labMem []
    let r : PamtRange := { fetchRange with size := 49152, smask := 1, cmask := 3, gran := 8 }
    let q : PamtRange := { r with base := 49152, smask := 3, cbase := 16 }
    s.ctx? 0 = some ctx0 ∧ ctx0.ended = false ∧ (match walk s ⟨[], []⟩ ctx0 0x800 .load with | .ok p => decide (p.2.1 = 0x800) | .error _ => false) = true ∧
    fetchRange.base ≤ 0x800 ∧ 0x800 < fetchRange.base + fetchRange.size ∧ s.rangeMapped fetchRange = true ∧
    ({ s with ctxs := [] } : State).rangeMapped fetchRange = false ∧ (∃ x ∈ s.pamt, x.v = true ∧ x ∉ ([] : List PamtRange)) ∧
    pamtMeet r { r with base := 49152 } = true ∧ pamtMeet r q = false := by decide +kernel
/-- MailboxCommands: an aperture, an export of a free window and of another function's, and a revocation of an idle and of a busy window. -/
theorem witness_MailboxCommands_windows :
    let e : ImportEntry := ⟨0xFF, true, true, true, true, 0, 5, 192, 0⟩
    let s (fn code : Nat) (l : FMap ImportEntry) : State := asked fn code [] { lab [] with imports := l }
    askedB 0 0x0023 (s 0 0x0023 []) = true ∧ (match (s 0 0x0023 []).ownCtx 0 0 with | .ok _ => true | .error _ => false) = true ∧
    askedB 0 0x0024 (s 0 0x0024 []) = true ∧ (s 0 0x0024 []).windowOwner 4 = none ∧ ((s 0 0x0024 []).endRemoteWaits 4).windowBusy 4 = false ∧
    (s 1 0x0024 [(4, e)]).windowOwner 4 = some 0 ∧ (s 0 0x0025 [(4, e)]).revoking = [] ∧ FMap.get? (s 0 0x0025 [(4, e)]).imports 4 = some e ∧
    (s 0 0x0025 [(4, e)]).windowOwner 4 = some 0 ∧ (({ s 0 0x0025 [(4, e)] with imports := [(4, { e with v := false })] } : State).endRemoteWaits 4).windowBusy 4 = false ∧ askedB 0 0x0025 (s 0 0x0025 [(4, e)]) = true ∧
    (({ s 0 0x0025 [(4, e)] with dies := [(0, dieWith { req0 with kind := .fabric ⟨0, 1, 4, 5, 0, 4, [], [], .add, 0, 0, false, 0, false, 0, 0⟩ })] } : State).endRemoteWaits 4).windowBusy 4 = true := by
  decide +kernel

/-- A session over context 0. -/
def sess0 (lapsed : Bool) : Session := ⟨0, [0], 10, 20, [], 4, 100, lapsed, false⟩
/-- Sessions: opened over a protected context and over another; a beat in order and one that is not; a lapsed one in its grace and past it. -/
theorem witness_Sessions :
    let s (p : Bool) : State := asked 0 0x0030 [] { lab [] with ctxs := [(0, { ctx0 with prot := p })] }
    let t (b : Bool) (code usec : Nat) : State := asked 0 code [] { lab [] with sessions := [(6, sess0 b)], wgs := [], usec := usec }
    (∀ p : Bool, askedB 0 0x0030 (s p) = true ∧ (match (s p).ownCtx 0 0 with | .ok x => x.prot == p | .error _ => false) = true ∧ (s p).sessions = []) ∧
    (∀ b : Bool, (t b 0x0031 0).session? 0 = some (6, sess0 b) ∧ askedB 0 0x0031 (t b 0x0031 0) = true ∧ askedB 0 0x0032 (t b 0x0032 0) = true ∧
      askedB 0 0x0033 (t b 0x0033 0) = true) ∧
    ¬((4 : BitVec 64) = (sess0 false).counter + 1) ∧ (5 : BitVec 64) = (sess0 false).counter + 1 ∧ (t true 0x0032 100).usec ≤ (sess0 true).due ∧
    (sess0 true).due < (t true 0x0032 101).usec ∧ FMap.get? (t false 0 100).sessions 6 = some (sess0 false) ∧ (∀ g ∈ (t false 0 100).wgs, g.2.ctx ∉ (sess0 false).ctxs) := by
  decide +kernel

/-- An image of a management controller, and a manifest that names every version of every kind with every other. -/
def image0 (sec : Nat) : Image := ⟨1, 0, 5, sec, [1], []⟩
def manifest0 : Manifest :=
  { version := 3, floors := [0, 0, 0, 0, 0], entries := (List.range 6).map fun k => ⟨k, 0, 2 ^ 32, (List.range 6).map fun j => (j, 0, 2 ^ 32), true, true, 0, 2 ^ 32⟩,
    deadline := 0, body := [], signature := [] }
/-- FirmwareCommands: the guards of STAGE, ACTIVATE, MANIFEST and FLOOR; an activation before and after its deadline. -/
theorem witness_FirmwareCommands :
    let s (code : Nat) : State := asked 0 code [] (lab [])
    let img : ImageSlot := ⟨some (image0 1), true⟩
    let t : State := { s 0x0041 with units := [(33, { Unit.reset with slotB := img })] }
    (∀ code ∈ [0x0040, 0x0041, 0x0042, 0x0043, 0x0050, 0x0051, 0x0052, 0x0053], askedB 0 code (s code) = true) ∧
    unitCount 1 ≤ 99 ∧ 0 < unitCount 1 ∧ (image0 1).kind = 1 ∧ imageFits (image0 1) = true ∧ imageFits { image0 1 with version := 2 ^ 32 } = false ∧ (image0 1).kind ≠ 2 ∧ (s 0x0040).activation = none ∧ (s 0x0040).floorOf 1 ≤ (image0 1).security ∧
    (image0 0).security < ({ s 0x0040 with floors := [1, 0, 0, 0, 0] } : State).floorOf 1 ∧
    ({ s 0x0040 with manifest := some manifest0 } : State).named 1 5 = true ∧ ({ s 0x0040 with manifest := some { manifest0 with entries := [] } } : State).named 1 5 = false ∧
    ((s 0x0041).unit 1 1).slotB.ok = false ∧ ((s 0x0041).unit 1 1).slotB.img = none ∧ (t.unit 1 1).slotB = img ∧ t.startable 1 img = true ∧
    ({ t with floors := [9, 0, 0, 0, 0] } : State).startable 1 img = false ∧
    ((s 0x0043).manifest = none ∧ ({ s 0x0043 with manifest := some manifest0 } : State).manifest = some manifest0) ∧
    (let a : Activation := ⟨1, 1, 0, 5, true⟩
     let u (n : Nat) : State := { t with activation := some a, usec := n }
     a.deadline < (u 6).usec ∧ (u 5).usec ≤ a.deadline ∧ (u 4).usec < a.deadline ∧ a.deadline ≤ (u 5).usec ∧ (u 5).activation = some a) := by decide +kernel
/-- FirmwareCommands: a die whose firmware a trap has stopped, and one whose has not. -/
theorem witness_firmware_trapped :
    let s : State := { lab [] with waves := [(firmwareKey 0, { fetchWave with stop := .trapCheck })] }
    s.firmwareTrapped 0 = true ∧ s.firmwareTrapped 1 = false := by decide +kernel
/-- FirmwareCommands: a die whose firmware has a KEYLD under way, one that only waits for events, and a switch that has not begun. -/
theorem witness_firmware_busy :
    let i : Op := { op0 (.idle flagged 2) [] with wave := firmwareKey 1 }
    let s (l : FMap Op) : State := { asked 0 0x0041 [] (lab []) with ops := l, activation := some ⟨1, 1, 0, 0, false⟩ }
    (s [(3, i), (4, { i with instr := .keyld flagged 2 4 6 })]).firmwareBusy 1 = true ∧ (s [(3, i)]).firmwareBusy 1 = false ∧ (s [(3, i)]).firmwareTrapped 1 = false ∧
    askedB 0 0x0041 (s []) = true := by decide +kernel
/-- FirmwareCommands: a mixture of images that the manifest admits, and allows to be entered live; none that an empty manifest admits. -/
theorem witness_mixture :
    let u : FMap Machine.Unit := allUnits.map fun x => (x.1 * 32 + x.2, { Unit.reset with rom := false, slotA := ⟨some (image0 1), true⟩, slotB := ⟨some (image0 1), true⟩ })
    let s : State := { asked 0 0x0041 [] (lab []) with units := u, manifest := some manifest0 }
    s.liveOk 1 1 (image0 1) = true ∧ ({ s with manifest := some { manifest0 with entries := [] } } : State).liveOk 1 1 (image0 1) = false ∧
    manifestAdmits manifest0 s.mixture false = true ∧ manifestAdmits { manifest0 with entries := [] } s.mixture false = false ∧ s.admitted s.mixture true = true ∧
    s.activation = none ∧ (3 : Nat) ≤ manifest0.version ∧ manifest0.version < 4 := by decide +kernel
/-- FirmwareCommands: values that the registers take and refuse; a counter's shape, what a function may see, and a request of one value. -/
theorem witness_FirmwareCommands_values :
    let s := asked 0 0x0050 [] (lab [])
    (s.die 0).sregOk 0x0110 4096 = true ∧ (s.die 0).sregOk 0x0110 4097 = false ∧ (s.die 0).fwHeld = false ∧ 0x0110 ∈ [0x0110, 0x0112, 0x0113, 0x0130, 0x0132] ∧
    telemShape 0x0099 = none ∧ telemShape 0x0007 = some (9, 1, 1) ∧ s.telemSees 1 1 2 = false ∧ s.telemSees 1 1 1 = true ∧ s.telemSees 0 1 2 = true ∧
    (let req : FMap Byte := (leBytes 2 7 ++ leBytes 2 0 ++ leBytes 2 1 ++ leBytes 2 0).zipIdx.map fun b => (b.2, b.1)
     reqField req 0 2 = 7 ∧ reqField req 2 2 = 0 ∧ reqField req 4 2 = 1 ∧ reqField req 6 2 = 0) ∧ askedB 1 0x0052 (asked 1 0x0052 (leBytes 8 7) (lab [])) = true := by decide +kernel
/-- FirmwareCommands: a signature verifies or does not; each case has its clause. -/
theorem witness_signatures (k d g : List Byte) : Config.mldsaVerify k d g = true ∨ Config.mldsaVerify k d g = false := by
  cases Config.mldsaVerify k d g <;> simp

/-! ### Witnesses: messages, the fabric, caches, starts -/

/-- The lab with a send of one block to its own context, and its command. -/
def labMsg (m : Msg) (c : Context) : State :=
  { lab [] with msgs := [(1, m)], cmds := [(7, { cmd0 .header with instr := .send flagged false 4 6, args := [0, 9, 192, 0, 0] })], ctxs := [(0, c)], nextId := 8 }
/-- MessageHeaders: a context that does not accept, a posted receive that matches, none and room, none and no room; a refused header before its time and
at it; a package that no port reaches. -/
theorem witness_MessageHeaders :
    let s := labMsg msg0 ctx0
    let t (p : List Posted) (n : Nat) : Context := { ctx0 with posted := p, rxn := n }
    FMap.get? s.msgs 1 = some msg0 ∧ msg0.srcPkg = s.pkg ∧ msg0.snd = .flying 0 ∧ msg0.rcv = .none ∧ msg0.dstPkg = s.pkg ∧ (FMap.get? s.cmds 7).isSome = true ∧
    (0, 0) ∉ ({ ctx0 with accept := [] } : Context).accept ∧ (0, 0) ∈ ctx0.accept ∧ s.ctx? 0 = some ctx0 ∧ ctx0.ended = false ∧
    entryMatches posted0.words 0 0 9 = true ∧ (t [posted0] 8).posted = [] ++ posted0 :: [] ∧ (t [] 8).posted = [] ∧
    (labMsg msg0 (t [] 8)).bufferUsed 0 + ceilDiv msg0.len 192 ≤ 8 ∧ ¬((labMsg msg0 (t [] 0)).bufferUsed 0 + ceilDiv msg0.len 192 ≤ 0) ∧
    (s.saved posted0.wg = false ∧ ({ s with frames := [(98304, { frame0 none with id := 0 })] } : State).saved posted0.wg = true ∧ posted0.tensor = false) ∧
    ¬(s.sendClock { msg0 with retryAt := 0 } < 0) ∧ s.sendClock { msg0 with retryAt := 9 } < 9 ∧ s.pairBehind { msg0 with snd := .waiting 0 } = false ∧
    ({ s with cmds := (3, { cmd0 .pushed with instr := .send flagged false 4 6, args := [0, 9, 192, 0, 0] }) :: s.cmds } : State).pairBehind msg0 = true ∧
    s.reachable 5 = false := by decide +kernel

/-- MessagePayload: a reliable message, a lossy block that the armed control takes, one to another package; acceptance with and without bytes. -/
theorem witness_MessagePayload :
    let m : Msg := { msg0 with snd := .marked, sent := [(0, List.replicate 192 1)], arrived := [], rcv := .matched posted0 }
    let s := labMsg m ctx0
    let drop : State := { labMsg { msg0 with lossy := true } ctx0 with lossdrop := (1 : BitVec 128) <<< 63 }
    FMap.get? s.msgs 1 = some m ∧ m.lossy = false ∧ m.nblocks = 1 ∧ m.dstPkg = s.pkg ∧ ({ m with dstPkg := 1 } : Msg).dstPkg ≠ s.pkg ∧
    (drop.lossdrop.getLsbD 63 = true ∧ (drop.lossdrop.extractLsb' 32 8).toNat = msg0.dstPkg ∧ (drop.lossdrop.extractLsb' 40 10).toNat = msg0.dstCtx ∧
      (msg0.tag ^^^ drop.lossdrop.extractLsb' 96 32) &&& drop.lossdrop.extractLsb' 64 32 = 0 ∧ drop.lossdrop.extractLsb' 0 14 = 0) ∧
    ((FMap.get? s.cmds 7).map fun c => decide (c.stage ≠ .payload)) = some true ∧ ({ m with len := 0 } : Msg).len = 0 ∧ (cmd0 .payload).stage = .payload ∧
    (2 ^ 22 - 1 : Nat) < 2 ^ 22 ∧ s.wave? 0 = some (wave0 s) := by decide +kernel
/-- MessagePayload, the four events: a block before and after the end marker; an end marker that is due, that is not yet due, and of a message
whose marker has come; a receive with a mask and without, into a tensor, of a saved workgroup, over a line that is read; a send to retire. -/
theorem witness_message_events :
    let m : Msg := { msg0 with snd := .marked, sent := [(0, List.replicate 192 1)], arrived := [], rcv := .matched posted0 }
    let full : Msg := { m with arrived := [(0, List.replicate 192 1)] }
    let s := labMsg full ctx0
    let p : Posted := { posted0 with words := [0, 0, 0, 0, 192, 5, 0, 256] }
    let q : Posted := { posted0 with words := [0, 0, 0, 0, 2 ^ 31 + 192, 5, 3, 0xFFFFFFFF] }
    m.srcPkg = s.pkg ∧ m.dstPkg = s.pkg ∧ FMap.get? s.msgs 1 = some full ∧
    (FMap.get? m.arrived 0 = none ∧ (FMap.get? m.sent 0).isSome = true ∧ m.ended = false ∧ 0 < m.nblocks ∧ ({ m with ended := true } : Msg).ended = true) ∧
    (∀ b ∈ full.sent, (FMap.get? full.arrived b.1).isSome = true) ∧ (∃ b ∈ m.sent, FMap.get? m.arrived b.1 = none) ∧ full.snd = .marked ∧
    s.wg? posted0.wg = some wg0 ∧ posted0.tensor = false ∧ q.tensor = true ∧
    (let t : State := { s with wgs := [], frames := [(98304, { frame0 none with id := 0 })] }
     t.wg? posted0.wg = none ∧ t.saved posted0.wg = true) ∧
    posted0.words.getD 7 0 = BitVec.allOnes 32 ∧ p.words.getD 7 0 ≠ BitVec.allOnes 32 ∧ s.rangeLocked 1 0 0 0 192 = false ∧
    s.rangeLocked 1 0 0 256 1 = false ∧ ({ s with locks := [⟨0, 0, 0, 0, 2, false⟩] } : State).rangeLocked 1 0 0 0 192 = true ∧
    (({ full with ended := true, rcv := .landed } : Msg).rcv = .landed ∧ full.rcv ≠ .landed ∧ full.cmd = some 7) := by decide +kernel
/-- MessagePayload: a message of another package that has ended, with a port that takes its acknowledgement and with none. -/
theorem witness_answered_message :
    let up : Port := { Port.reset with up := true, peer := 1 }
    let m : Msg := { msg0 with srcPkg := 1, ended := true, snd := .flying 0, rcv := .landed }
    let s := labMsg m ctx0
    let flit := msgFlit m 0 0x15 m.srcPkg (Config.payOf 0x15 [m.num, 0]) (m.dstCtx, m.srcCtx)
    m.srcPkg ≠ s.pkg ∧ m.ended = true ∧ m.snd ≠ .ended ∧ m.rcv = .landed ∧ ({ m with rcv := .unexpected } : Msg).rcv ≠ .landed ∧
    (s.sendFlit flit (s.replyProt m)).isNone = true ∧
    (({ s with ports := up :: List.replicate 47 Port.reset } : State).sendFlit flit (s.replyProt m)).isSome = true := by decide +kernel
/-- MessagePayload: arrived blocks of 192 bytes. -/
theorem witness_blocks : ∀ k b, FMap.get? ({ msg0 with arrived := [(0, List.replicate 192 1)] } : Msg).arrived k = some b → b.length = 192 := by
  intro k b h
  simp only [FMap.get?] at h
  split at h
  · cases h; rfl
  · exact absurd h (by simp)

/-- FabricAccesses: an entry of the buffer of a context in clear, of a protected one with a sealed route and without, a load of its line under
way; an access of each kind that passes its import and one that does not; its page mapped and not mapped; an own access sent and not sent. -/
theorem witness_FabricAccesses :
    let c : Context := { ctxFab with prot := true }
    let w (pkg : Nat) : WcbEntry := ⟨pkg, 4, 0, 5, 0, [(0, 1)]⟩
    let e : ImportEntry := ⟨0xFF, true, true, true, true, 0, 5, 49152, 0⟩
    let a (k : Nat) (key : BitVec 64) : FabricAccess := ⟨k, 1, 4, key, 0x800, 4, [1, 0, 0, 0], [true, true, true, true], .add, 1, 0, false, 9, false, 0, 0⟩
    let own : FabricReq := plainReq { a 0 5 with src := 0, offset := 0, size := 192 } 0 0 0 (15 * 2 ^ 48)
    let s (c : Context) : State := { lab [] with cores := [(0, { Core.reset with wcb := [w 0, w 1] })], ctxs := [(0, c)], fabricReqs := [(3, own)] }
    let t : State := { labMem [] with imports := [(4, e)] }
    ((s ctxFab).core 0).wcb[0]? = some (w 0) ∧ ((s c).core 0).wcb[1]? = some (w 1) ∧ (s ctxFab).ctxProt 0 = false ∧ (s c).ctxProt 0 = true ∧
    (s c).sealedRoute (w 1).pkg = false ∧ (s c).sealedRoute (w 0).pkg = true ∧ (w 0).pkg = (s c).pkg ∧
    (own.acc.kind = 0 ∧ own.core = 0 ∧ own.pkg = (w 0).pkg ∧ own.acc.window = (w 0).win ∧ own.acc.offset < (w 0).off / 192 * 192 + 192 ∧ (w 0).off / 192 * 192 < own.acc.offset + own.acc.size) ∧
    ((w 1).pkg ≠ (s ctxFab).pkg ∧ ((s ctxFab).sendFlit (accessFlit own.acc 1 0) false).isNone = true ∧
      (({ s ctxFab with ports := { Port.reset with up := true, peer := 1 } :: List.replicate 47 Port.reset } : State).sendFlit (accessFlit own.acc 1 0) false).isSome = true) ∧
    ((let r : State := { s ctxFab with fabricReqs := [(3, { own with pkg := 1, sent := false })] }
      ∃ q ∈ r.fabricReqs, q.2.pkg = (w 1).pkg ∧ q.2.sent = false) ∧ (∀ q ∈ (s ctxFab).fabricReqs, ¬(q.2.pkg = (w 1).pkg ∧ q.2.sent = false)) ∧ t.hotRows = [] ∧
      ({ t with hotRows := [(0, ⟨0, [], false, none⟩)] } : State).missesHome 0x800 = true ∧
      ({ t with hotRows := [(0, ⟨0, [], false, none⟩)] } : State).rowShut (.fabric (a 0 5)) 0x800 = true) ∧
    (∀ k, k < 5 → (a k 5).src ≠ t.pkg ∧ FMap.get? t.imports (a k 5).window = some e ∧ e.key = (a k 5).key ∧ (a k 5).offset + (a k 5).size ≤ e.len ∧ e.key ≠ (a k 6).key) ∧
    t.ctx? e.ctx = some ctx0 ∧ (t.die 0).reqs = [] ∧
    (match translate t none (translatingDie (4 / 1024)) ctx0 0x800 .load with
      | (.ok pa, u) => decide (u.backing pa = .dev 0) && !u.hostKey (pa / 48) && accessHolds { a 3 5 with operand := 0 } (u.waitWord pa false) | _ => false) = true ∧
    (match translate { t with mem := [] } none (translatingDie (4 / 1024)) ctx0 0x800 .load with | (.error _, _) => true | _ => false) = true ∧
    (own.pkg = t.pkg ∧ own.acc.src = t.pkg ∧ own.sent = false ∧ ({ own with sent := true } : FabricReq).sent = true) := by decide +kernel

/-- A flit with an address and link word, and its check word. -/
def flitOf (addr link : Nat) : List Byte :=
  let b := List.replicate 216 0 ++ leBytes 8 addr ++ leBytes 8 0 ++ leBytes 4 link ++ List.replicate 16 0
  b ++ leBytes 4 (crc32c b).toNat
/-- LinkLayer: a flit whose check word is right. -/
theorem witness_flit (addr link : Nat) : (flitOf addr link).length = 256 ∧ field (flitOf addr link) 252 4 = (crc32c ((flitOf addr link).take 252)).toNat := by
  unfold flitOf
  generalize h : List.replicate 216 (0 : Byte) ++ leBytes 8 addr ++ leBytes 8 0 ++ leBytes 4 link ++ List.replicate 16 0 = b
  have hb : b.length = 252 := by subst h; simp only [List.length_append, List.length_replicate, length_leBytes]
  constructor
  · simp only [List.length_append, length_leBytes, hb]
  · unfold field
    rw [List.drop_left' hb, List.take_left' hb, List.take_of_length_le (by rw [length_leBytes]), leNat_leBytes]
    exact Nat.mod_eq_of_lt (by have := (crc32c b).isLt; omega)
/-- LinkLayer: the classes and kinds of flits, in and out of sequence; ports up and down, with a spare and without; a replay buffer with one flit and
none; a key for the next epoch. -/
theorem witness_LinkLayer :
    let up : Port := { Port.reset with up := true, sealPolicy := false, peer := 1 }
    let s : State := { lab [] with ports := up :: { up with spare := true } :: List.replicate 46 Port.reset }
    let one : State := { s with ports := { up with replay := [[(3, [])], [], []], ackOwed := [true, false, false] } :: List.replicate 47 Port.reset }
    let f (cls kind seq : Nat) := flitOf (cls * 2 ^ 58 + kind * 2 ^ 52) seq
    (s.port 0).up = true ∧ s.activation = none ∧ (s.port 0).sealPolicy = false ∧
    field (f 3 0 0) 216 8 / 2 ^ 58 % 4 = 3 ∧ field (f 0 0x20 0) 216 8 / 2 ^ 52 % 64 = 0x20 ∧ field (f 0 1 7) 232 4 % 2 ^ 16 ≠ (s.port 0).rxSeq.getD 0 0 ∧
    field (f 2 1 0) 232 4 % 2 ^ 16 = (s.port 0).rxSeq.getD 2 0 ∧ field (f 0 0x15 0) 224 8 / 2 ^ 8 % 2 ^ 8 = s.pkg ∧ field (f 0 0x16 0) 216 8 / 2 ^ 52 % 64 = 0x16 ∧
    (1 < s.ports.length ∧ 2 < up.replay.length) ∧ (one.port 0).replay.getD 0 [] = [(3, [])] ∧ (s.port 0).replay.getD 0 [] = [] ∧
    (one.port 0).ackOwed.getD 0 false = true ∧ (s.port 0).ackOwed.getD 0 false = false ∧ (s.port 2).up = false ∧
    (s.fabricReqs = [] ∧ s.msgs = [] ∧ s.flitsWait = [] ∧ (∀ q ∈ s.ports, q.replay.getD 0 [] = [] ∧ q.replay.getD 2 [] = [])) ∧
    ((s.port 1).up = true ∧ (s.port 1).spare = true ∧ (s.port 1).peer = (s.port 0).peer) ∧
    (∀ j, j < 48 → j ≠ 0 → ¬((one.port j).up = true ∧ (one.port j).spare = true ∧ (one.port j).peer = (one.port 0).peer)) ∧
    (16 ≤ ((List.replicate 16 0).filter fun x => decide (s.usec < x + 1000)).length ∧ (s.port 1).spare = true ∧ (s.port 0).spare = false ∧ 4 ≤ ({ up with timeouts := 4 } : Port).timeouts) ∧
    ((s.port 2).sealPolicy = true ∧ s.minimal = false ∧ ({ s with manifest := some manifest0 } : State).named 4 5 = true ∧
      ({ s with manifest := some { manifest0 with entries := [] } } : State).named 4 5 = false) ∧
    (let new : KeySlot := ⟨none, some (1, []), false⟩
     let t (far : KeySlot) : State := { lab [] with dies := [(0, { Die.reset with keys := [(0, new), (64, new)] })], baseKeys := [(0, far)] }
     otherEnd 0 0 0 = some (1, 0) ∧ (t new).endKeys 0 0 0 = new ∧ (t new).endKeys 1 0 0 = KeySlot.empty ∧
     otherEnd 0 1 0 = some (24, 0) ∧ (t new).endKeys 0 1 0 = new ∧ (t new).endKeys 24 1 0 = new ∧ (t ⟨some (1, []), none, false⟩).endKeys 24 1 0 = ⟨some (1, []), none, false⟩) := by
  decide +kernel
/-- LinkLayer: a port with one queued flit and one without; the flits of a route and of two. -/
theorem witness_LinkLayer_slots :
    let p : Port := { Port.reset with up := true, sealPolicy := false, queue := [(0, 3, [])] }
    let s : State := { lab [] with ports := p :: List.replicate 47 Port.reset }
    s.ports[0]? = some p ∧ p.up = true ∧ p.ackOwed.length = 3 ∧ (s.port 1).queue = [] ∧ 0 < p.txSeq.length ∧ 0 < p.replay.length ∧
    (let r : Nat × Nat × List Byte := (0, 0, [])
     let l (b : List Byte) : Nat × Nat × List Byte := (1, 0, b)
     routeOf r = routeOf (l []) ∧ routeOf r ≠ routeOf (l (List.replicate 224 0 ++ leBytes 8 5)) ∧ ∀ x ∈ [r], x.1 ≠ 2) := by decide +kernel
/-- LinkLayer: a port whose controller switches, one whose key is at its bound and one whose key is not; a flit that waits for its turn, ahead of it
and behind; a port in clear and one that seals, in service and out. -/
theorem witness_LinkLayer_flows :
    let s : State := { lab [] with ports := { Port.reset with up := true, sealPolicy := false } :: { Port.reset with up := true, rxCount := rekeyBound } ::
                                            List.replicate 46 Port.reset, activation := some ⟨4, 0, 0, 0, true⟩ }
    let e : Arrived × List Byte := (⟨0, 1, 5, 0, 0, 1, 0, 0, [], [], false⟩, [])
    s.activation = some ⟨4, 0, 0, 0, true⟩ ∧ ((s.port 1).sealPolicy = true ∧ 2 ^ 64 - 2 ^ 32 ≤ (s.port 1).rxCount.toNat) ∧ (s.port 2).rxCount.toNat < 2 ^ 64 - 2 ^ 32 ∧
    inTurn [e] 0 5 1 1 = [e] ∧ inTurn [e] 0 5 1 0 = [] ∧ ((1 + 65536 - 0 % 65536) % 65536 < 32768 ∧ ¬((0 + 65536 - 1 % 65536) % 65536 < 32768)) ∧
    (s.port 0).sealPolicy = false ∧ (s.port 0).up = true ∧ (s.port 1).up = true ∧ (s.port 2).up = false ∧ s.minimal = false ∧ s.powerOff = false := by
  decide +kernel
/-- LinkLayer: a flit whose check word is wrong. -/
theorem witness_bad_flit : field ((flitOf 0 0).take 252 ++ leBytes 4 ((crc32c ((flitOf 0 0).take 252)).toNat + 1)) 252 4 ≠ (crc32c ((flitOf 0 0).take 252)).toNat := by
  have hb : ((flitOf 0 0).take 252).length = 252 := by rw [List.length_take, (witness_flit 0 0).1]; rfl
  have := (crc32c ((flitOf 0 0).take 252)).isLt
  unfold field
  rw [List.drop_left' hb, List.take_of_length_le (by rw [length_leBytes]), leNat_leBytes]
  omega

/-- CachesAndRows: dirty and clean sectors of both caches, a pinned one; device and host addresses; a snooped sector; a hot row and another. -/
theorem witness_CachesAndRows :
    let sec (d : Bool) : Sector := ⟨List.replicate 48 1, d, 0⟩
    let s (d : Bool) : State := { lab [] with cores := [(0, { Core.reset with l1 := [(1, sec d)] })], dies := [(0, { Die.reset with l2 := [(2, sec d)] })] }
    let h : State := { lab [] with hotRows := [(3, ⟨5, [], false, none⟩)] }
    let g (q : List ReqKind) : State := { lab [] with hotRows := [(0, ⟨0, q, true, none⟩)], waves := [(0, fetchWave), (1, fetchWave)] }
    (∀ d : Bool, FMap.get? ((s d).core 0).l1 1 = some (sec d) ∧ FMap.get? ((s d).die 0).l2 2 = some (sec d) ∧ (s d).pinned 0 (secAddr 2) = false ∧
      (s d).home? (secAddr 2) = some 0 ∧ (s d).backing (secAddr 2) = .dev 0 ∧ (s d).minimal = false) ∧
    ({ s true with dies := [(0, { Die.reset with pins := [⟨0, 0, 0, 0, 0, 192⟩] })] } : State).pinned 0 (secAddr 2) = true ∧
    ((g []).hotRows = [(0, HotRow.mk 0 [] true none)] ∧ (g []).pamtFor 0 = some fetchRange ∧ fetchRange.host = false ∧ pamtRow fetchRange 0 = (0, 0)) ∧
    (let q : List ReqKind := [.fetch 0 0 0, .fetch 1 0 0]
     (g q).hotRows = [(0, HotRow.mk 0 q true none)] ∧ ((g q).wave? 0).isSome = true ∧ ((g q).wave? 1).isSome = true ∧ (g q).rowShut (.op 7 1) 0 = true ∧
     (g q).missesHome 0 = true ∧ (g q).coreHas 0 0 = false ∧ (g q).backing 0 = .dev 0 ∧ ReqKind.op 7 1 ∉ q) ∧
    ((3, HotRow.mk 5 [] false none) ∈ h.hotRows ∧ ∀ x ∈ h.hotRows, x.2.row ≠ 6) ∧ ({ h with rowActs := [(3 * 2 ^ 24 + 6, ⟨0, 9, 512⟩)], usec := 32000 } : State).rowFull 3 6 = false := by decide +kernel
/-- CachesAndRows: a row that reached its threshold within its window. -/
theorem witness_full_row :
    let h : State := { lab [] with rowActs := [(3 * 2 ^ 24 + 6, ⟨0, 512, 512⟩)] }
    h.rowFull 3 6 = true ∧ FMap.get? h.rowActs (3 * 2 ^ 24 + 6) = some ⟨0, 512, 512⟩ ∧ h.usec < 0 + 32000 := by
  refine ⟨?_, by decide +kernel, by decide +kernel⟩
  have e : FMap.get? ({ lab [] with rowActs := [(3 * 2 ^ 24 + 6, ⟨0, 512, 512⟩)] } : State).rowActs (3 * 2 ^ 24 + 6) = some ⟨0, 512, 512⟩ := by decide +kernel
  simp only [State.rowFull, e, Bool.and_eq_true, decide_eq_true_eq]
  exact ⟨by decide +kernel, Nat.le_add_right _ _⟩
/-- CachesAndRows: the snooped sector stands in the L2 of its home. -/
theorem witness_snoop :
    let sec : Sector := ⟨List.replicate 48 1, true, 0⟩
    let hostPa := (14 * 2 ^ 48 / 49152 + 1) * 49152
    let h : State := { lab [] with pamt := { fetchRange with host := true, base := hostPa } :: List.replicate 15 pamtInvalid, runs := [⟨0, 98304, 4096, 0⟩],
                                   dies := [(0, { Die.reset with l2 := [(hostPa / 48, sec)] })] }
    h.minimal = false ∧ h.hostKey (hostPa / 48) = true ∧ h.home? (secAddr (hostPa / 48)) = some 0 ∧ FMap.get? (h.die 0).l2 (hostPa / 48) = some sec ∧
    (match h.backing hostPa with | .host d _ => decide (d = 0) | _ => false) = true ∧ (List.replicate 48 (2 : Byte)).length = 48 := by decide +kernel

/-- Starts: three failures counted and fewer; a unit with a next slot, and one that failed; a start in progress within its time; the units and reasons of a failure. -/
theorem witness_Starts :
    let s := State.reset
    let b : State := { s with boot := .starting, startDue := 30 }
    3 ≤ ({ s with fails := 3 } : State).fails ∧ s.fails < 3 ∧ 23 < unitCount 1 ∧ ({ Machine.Unit.reset with next := some true } : Machine.Unit).next = some true ∧
    (({ Machine.Unit.reset with failed := true } : Machine.Unit).next = none ∧ s.startable 1 (Machine.Unit.reset.slot true) = false) ∧
    (b.boot = .starting ∧ b.usec ≤ b.startDue ∧ s.boot ≠ .starting ∧ s.bootCount < 2 ^ 32 ∧ s.powerOff = false ∧ ({ s with powerOff := true } : State).powerOff = true) ∧
    ((s.unit 1 23).slotA.ok = false ∧ (s.unit 1 23).slotB.ok = false ∧ ({ b with usec := 31 } : State).startDue < ({ b with usec := 31 } : State).usec ∧
      s.cxlLinks.getD 0 (0, 0) = (0, 0) ∧ (⟨some (image0 1), true⟩ : Machine.ImageSlot).ok = true ∧ (4, 3) ∈ [(4, 3)] ∧ 3 < unitCount 4) ∧
    ({ s with units := [(33, { Machine.Unit.reset with rom := false, slotA := ⟨some (image0 1), true⟩ })] } : State).version 1 1 < 2 ^ 32 := by decide +kernel
/-- Starts: the images of `witness_mixture` are admitted; the certificates are good or not. -/
theorem witness_certificates (k : Nat) : Config.certOk k = true ∨ Config.certOk k = false := by cases Config.certOk k <;> simp

/-- ClocksAndPower: a stretched die and another; power on and removed; a plan in order, and one that is not. -/
theorem witness_ClocksAndPower :
    let s := State.reset
    let t := s.modDie 23 fun d => { d with stretched := true }
    let plan := List.replicate 24 (0, 0, 1750)
    (s.die 23).stretched = false ∧ (t.die 23).stretched = true ∧ s.powerOff = false ∧ ({ s with powerOff := true } : State).powerOff = true ∧ s.bootCount < 2 ^ 32 ∧
    (s.minimal = false ∧ s.mbHeld = false ∧ s.replanStep = none ∧ ¬s.usec < s.replanDue ∧ plan.length = 24 ∧
      (∀ k, k < 24 → (s.die k).margin.2 = (List.getD plan k (0, 0, 0)).2)) ∧
    ¬((s.die 0).margin.2.1 ≤ (6, 6, 1750).2.1 ∧ (6, 6, 1750).2.1 ≤ (s.die 0).margin.2.1 + 5) ∧
    (({ s with replanStep := some 0 } : State).replanStep = some 0 ∧ s.usec < 0 + 1000) := by decide +kernel

/-- A wave about to start the clause at address `cla`, with these words in memory at 0. -/
def atStart (cla : BitVec 52) (words : List (BitVec 80)) (flags : List Nat) : State :=
  let s := lab []
  { s with waves := [(0, { wave0 s with clause := none, flags := flags, pct := laneNums.map fun _ => ⟨false, false, 0, cla, 0⟩ })],
           mem := Memory.write [] 0 (words.flatMap fun w => leBytes 10 w.toNat) }
/-- What a start of a clause finds: the end of its words in the line, whether a check fails, whether a flag of `wait` is busy. -/
def startFacts (s : State) (n : BitVec 4) (p : BitVec 3) (wait : BitVec 12) (a b : BitVec 4) : Option (Nat × Bool × Bool) :=
  match s.beginClause 0 with
  | .yes w cla _ line t =>
    let o := cla.toNat * 16 % 192
    let k := n.toNat + 1
    some (o + 10 * (k + 1), (checkSlots (checkEnv t 0 w k p a.toNat b.toNat) 0 ((List.range k).map fun j => lineWord line (o + 10 * (j + 1)))).isSome,
      (List.range 12).any fun f => wait.getLsbD f && w.busy f)
  | .no _ => none
/-- ClauseStarts: a clause that starts, one that waits for a flag, one whose slot is bad, one that crosses its line; a run and its threads, none passed over
sixteen times and one that was; a SPAWN of an aligned command and of another. -/
theorem witness_ClauseStarts :
    let nop : BitVec 80 := 0x01001E00000001FE0000
    let clear := List.replicate 12 0
    let s := lab [(4, 192), (5, 0), (6, 200), (7, 0)]
    let x := issue0 flagged s
    startFacts (atStart 0 [0x00040003E00000000000, nop] clear) 0 2 0 1 15 = some (20, false, false) ∧
    startFacts (atStart 0 [0x00040003E00000000000, nop] (1 :: clear)) 0 2 1 1 15 = some (20, false, true) ∧
    startFacts (atStart 0 [0x00040003E00000000000, 0] clear) 0 2 0 1 15 = some (20, true, false) ∧
    (startFacts (atStart 11 [] clear) 1 2 0 1 15).map Prod.fst = some 206 ∧
    (wave0 (atStart 0 [] clear)).chooseRun = some (0, LaneMask.all) ∧
    ({ wave0 (lab []) with pct := ⟨false, false, 16, 9, 0⟩ :: (List.replicate 31 ⟨false, false, 0, 1, 0⟩) } : Wave).chooseRun = some (144, 1) ∧
    laterB flagged (dstGroup 2 1) s = true ∧ x.act ≠ 0 ∧ x.ud 4 % 192 = 0 ∧ x.ud 6 % 192 ≠ 0 := by decide +kernel

/-- StepRuns: an event on the tape; a wave in a clause, with a word that decodes; a wave at a clause start, over a header and over another word. -/
theorem witness_StepRuns :
    let s : State := { lab [] with agenda := [.issue 0] }
    (isEvent (.timerExpiry 0) = true ∧ isEvent (.nop plain) = false) ∧
    (s.wave? 0 = some (wave0 s) ∧ (wave0 s).clause.isSome = true ∧ (wave0 s).stop = .running ∧
      (((({ s with agenda := [] } : State).fillActive 0).wave? 0).map fun w => w.active) = some true ∧
      ((wave0 s).clause.map fun c => decide (decode (List.getD c.words c.slot 0) = .ok (.nop plain))) = some true) ∧
    (match (atStart 0 [0x00040003E00000000000] (List.replicate 12 0)).beginClause 0 with
      | .yes _ cla _ line _ => decide (decode (lineWord line (cla.toNat * 16 % 192)) = .ok (.hdr 0 2 0 1 15)) | .no _ => false) = true ∧
    (match (atStart 0 [0x01001E00000001FE0000] (List.replicate 12 0)).beginClause 0 with
      | .yes _ cla _ line _ => decide (decode (lineWord line (cla.toNat * 16 % 192)) = .ok (.nop plain)) | .no _ => false) = true := by decide +kernel

/-- StepRuns: a wave whose turn is void, since another of its quarter issued less recently; a wave that waits in IDLE. -/
theorem witness_turns :
    let s : State := { lab [] with waves := [(0, wave0 (lab [])), (1, { wave0 (lab []) with lastIssue := 9 })] }
    let t := labOp (op0 (.idle flagged 2) [])
    (s.quarterWaves 1).map Prod.fst = [0, 1] ∧ (wave0 s).active = true ∧ (wave0 s).lastIssue < 9 ∧ s.canIssue 0 = true ∧
    t.idling 0 = true ∧ (wave0 t).clause.isSome = true ∧ (lab []).idling 0 = false ∧ (lab []).quarterWaves 0 = [(0, wave0 (lab []))] := by decide +kernel

/-- EncodeThenDecode, DecodeThenEncode: a well-formed instruction, its word, and the word decoded. -/
theorem witness_encoding :
    let i : Instr := .ldg flagged .b32 false 3 ⟨2, 255, 4⟩
    i.wf = true ∧ encode? i = some 0x88803E0605FE01FE0004 ∧ decode 0x88803E0605FE01FE0004 = .ok i := by decide +kernel
/-- MemoryCanonicalKept: reset memory is canonical. -/
theorem witness_memory : State.reset.memCanonical := ⟨rfl, rfl⟩
/-- MemoryCanonicalKept, FloorsNeverFall: the step of the lab's NOP goes on. -/
theorem witness_step : ∃ t, step { lab [] with agenda := [.issue 0] } = .next t := by
  have h : (match turn { lab [] with agenda := [.issue 0] } with | .next _ => true | _ => false) = true := by decide +kernel
  unfold step
  cases ht : turn { lab [] with agenda := [.issue 0] } with
  | next t => exact ⟨_, rfl⟩
  | fault f => simp [ht] at h
  | refused r => simp [ht] at h

end Sys2Proof.Tests
end

section
/-! Integer sums and products (R123, R126, R129): a fixed-latency instruction without flags completes with its row, and at 32 bits
the exact sums, differences and products of either signedness are the operations of words. -/

namespace Sys2Proof.Machine

/-! ### Numbers and words (R61, R123) -/

theorem wrapN_eq_toNat_ofInt (x : Int) (w : Nat) : wrapN x w = (BitVec.ofInt w x).toNat := (BitVec.toNat_ofInt x).symm

theorem sext_toNat {w : Nat} (v : BitVec w) : sext v.toNat w = v.toInt := by
  rw [BitVec.toInt_eq_toNat_cond, sext, Nat.mod_eq_of_lt v.isLt]

theorem zext_toNat {w : Nat} (v : BitVec w) : zext v.toNat w = v.toNat := Nat.mod_eq_of_lt v.isLt

/-- A result of a 32-bit type is the exact value wrapped, whatever the signedness. -/
theorem res_of_isWord {t : ITy} (ht : t.isWord = true) (x : Int) : res x t = BitVec.ofInt 32 x := by
  cases t with
  | s8 | z8 | s16 | z16 => cases ht
  | s32 =>
    show BitVec.ofInt 32 (sext (wrapN x 32) 32) = _
    rw [wrapN_eq_toNat_ofInt, sext_toNat, BitVec.ofInt_toInt]
  | z32 =>
    show BitVec.ofInt 32 (wrapN x 32 : Nat) = _
    rw [wrapN_eq_toNat_ofInt, BitVec.ofInt_natCast, BitVec.ofNat_toNat, BitVec.setWidth_eq]

/-- An operand of a 32-bit type wraps back to its word, whatever the signedness. -/
theorem ofInt_opnd_of_isWord {t : ITy} (ht : t.isWord = true) (v : Word) : BitVec.ofInt 32 (opnd v t) = v := by
  cases t with
  | s8 | z8 | s16 | z16 => cases ht
  | s32 =>
    show BitVec.ofInt 32 (sext v.toNat 32) = v
    rw [sext_toNat, BitVec.ofInt_toInt]
  | z32 =>
    show BitVec.ofInt 32 (zext v.toNat 32 : Nat) = v
    rw [zext_toNat, BitVec.ofInt_natCast, BitVec.ofNat_toNat, BitVec.setWidth_eq]

theorem res_add_of_isWord {t : ITy} (ht : t.isWord = true) (u v : Word) : res (opnd u t + opnd v t) t = u + v := by
  rw [res_of_isWord ht, BitVec.ofInt_add, ofInt_opnd_of_isWord ht, ofInt_opnd_of_isWord ht]

theorem res_sub_of_isWord {t : ITy} (ht : t.isWord = true) (u v : Word) : res (opnd u t - opnd v t) t = u - v := by
  rw [res_of_isWord ht, sub_eq_add_neg, BitVec.ofInt_add, BitVec.ofInt_neg, ofInt_opnd_of_isWord ht, ofInt_opnd_of_isWord ht,
    ← BitVec.sub_eq_add_neg]

theorem res_mul_of_isWord {t : ITy} (ht : t.isWord = true) (u v : Word) : res (opnd u t * opnd v t) t = u * v := by
  rw [res_of_isWord ht, BitVec.ofInt_mul, ofInt_opnd_of_isWord ht, ofInt_opnd_of_isWord ht]

/-! ### Saturation of unsigned types (R58, R126) -/

theorem opnd_nonneg {t : ITy} (ht : t.isSigned = false) (v : Word) : 0 ≤ opnd v t := by
  simp [opnd, ht]

theorem satI_unsigned_of_nonpos {x : Int} (hx : x ≤ 0) (w : Nat) : satI x w false = 0 := by
  simp [satI, intMin, hx]

@[simp] theorem res_zero (t : ITy) : res 0 t = 0 := by
  cases t <;> rfl

/-- The negation of an unsigned operand saturates to 0. -/
theorem res_satI_neg_of_unsigned {t : ITy} (ht : t.isSigned = false) (v : Word) :
    res (satI (-opnd v t) (ityWidth t) t.isSigned) t = 0 := by
  rw [ht, satI_unsigned_of_nonpos (neg_nonpos.2 (opnd_nonneg ht v)), res_zero]

/-! ### Fixed-latency instructions that raise no flag (R38) -/

theorem fixed_of_exec_eq_fixed1 {i : Instr} {c : Ctl} {d : Reg} {f : Issue → Nat → Word} (h : ∀ s, exec i s = fixed1 c d s f) :
    Fixed i c d 1 (word1 f) noFlags := by
  intro s x hx
  rw [h s]
  exact fixedOp_done (.inl rfl) (fun x _ L => f x L) (fun _ _ => 0) hx

theorem fixed_of_exec_eq_typed2 {i : Instr} {c : Ctl} {t : ITy} {d a : Reg} {b : SrcB} {f : Int → Int → Int}
    (h : ∀ s, exec i s = typed2 c t d a b s f) :
    Fixed i c d 1 (word1 fun x L => res (f (opnd (x.v a L) t) (opnd (x.b b immS L) t)) t) noFlags :=
  fixed_of_exec_eq_fixed1 h

/-- An instruction whose pair is an exact value `f`, half by half, completes with `f` wrapped at 64 bits. -/
theorem fixed_of_exec_eq_halves {i : Instr} {c : Ctl} {d : Reg} {f : Issue → Nat → Int}
    (h : ∀ s, exec i s = fixedOp c d 2 s (fun x k L => half (f x L) k) fun _ _ => 0) :
    Fixed i c d 2 (pair2 fun x L => wrapN (f x L) 64) noFlags := by
  intro s x hx
  rw [h s]
  exact fixedOp_done (.inr rfl) (fun x k L => half (f x L) k) (fun _ _ => 0) hx

/-! ### The add family (R126) -/

theorem iadd_fixed (c : Ctl) (t : ITy) (d a : Reg) (b : SrcB) :
    Fixed (.iadd c t d a b) c d 1 (word1 fun x L => res (opnd (x.v a L) t + opnd (x.b b immS L) t) t) noFlags :=
  fixed_of_exec_eq_typed2 (exec_iadd c t d a b)

theorem isub_fixed (c : Ctl) (t : ITy) (d a : Reg) (b : SrcB) :
    Fixed (.isub c t d a b) c d 1 (word1 fun x L => res (opnd (x.v a L) t - opnd (x.b b immS L) t) t) noFlags :=
  fixed_of_exec_eq_typed2 (exec_isub c t d a b)

theorem imin_fixed (c : Ctl) (t : ITy) (d a : Reg) (b : SrcB) :
    Fixed (.imin c t d a b) c d 1 (word1 fun x L => res (min (opnd (x.v a L) t) (opnd (x.b b immS L) t)) t) noFlags :=
  fixed_of_exec_eq_typed2 (exec_imin c t d a b)

theorem imax_fixed (c : Ctl) (t : ITy) (d a : Reg) (b : SrcB) :
    Fixed (.imax c t d a b) c d 1 (word1 fun x L => res (max (opnd (x.v a L) t) (opnd (x.b b immS L) t)) t) noFlags :=
  fixed_of_exec_eq_typed2 (exec_imax c t d a b)

theorem isum_fixed (c : Ctl) (t : ITy) (d a : Reg) (b : SrcB) (r : Reg) :
    Fixed (.isum c t d a b r) c d 1
      (word1 fun x L => res (opnd (x.v a L) t + opnd (x.b b immS L) t + opnd (x.v r L) t) t) noFlags :=
  fixed_of_exec_eq_fixed1 (exec_isum c t d a b r)

theorem iadds_fixed (c : Ctl) (sub : Bool) (t : ITy) (d a : Reg) (b : SrcB) :
    Fixed (.iadds c sub t d a b) c d 1 (word1 fun x L =>
      let u := opnd (x.v a L) t
      let v := opnd (x.b b immS L) t
      res (satI (if sub then u - v else u + v) (ityWidth t) t.isSigned) t) noFlags :=
  fixed_of_exec_eq_typed2 (f := fun u v => satI (if sub then u - v else u + v) (ityWidth t) t.isSigned) (exec_iadds c sub t d a b)

/-- The model takes the absolute value as a natural number; it is that of the integers. -/
theorem iabs_fixed (c : Ctl) (sat : Bool) (t : ITy) (d a : Reg) :
    Fixed (.iabs c sat t d a) c d 1 (word1 fun x L =>
      res (if sat then satI |opnd (x.v a L) t| (ityWidth t) true else |opnd (x.v a L) t|) t) noFlags := by
  apply fixed_of_exec_eq_fixed1
  intro s
  simp only [exec_iabs, execIabs, Int.natCast_natAbs]

theorem ineg_fixed (c : Ctl) (sat : Bool) (t : ITy) (d a : Reg) :
    Fixed (.ineg c sat t d a) c d 1 (word1 fun x L =>
      res (if sat then satI (-opnd (x.v a L) t) (ityWidth t) t.isSigned else -opnd (x.v a L) t) t) noFlags :=
  fixed_of_exec_eq_fixed1 (exec_ineg c sat t d a)

/-! ### The multiplies (R129) -/

theorem imul_fixed (c : Ctl) (t : ITy) (d a : Reg) (b : SrcB) :
    Fixed (.imul c t d a b) c d 1 (word1 fun x L => res (opnd (x.v a L) t * opnd (x.b b immS L) t) t) noFlags :=
  fixed_of_exec_eq_typed2 (exec_imul c t d a b)

theorem imulh_fixed (c : Ctl) (t : ITy) (d a : Reg) (b : SrcB) :
    Fixed (.imulh c t d a b) c d 1
      (word1 fun x L => BitVec.ofInt 32 (opnd (x.v a L) t * opnd (x.b b immS L) t / 2 ^ 32)) noFlags :=
  fixed_of_exec_eq_fixed1 (exec_imulh c t d a b)

theorem imad_fixed (c : Ctl) (t : ITy) (d a : Reg) (b : SrcB) (r : Reg) :
    Fixed (.imad c t d a b r) c d 1
      (word1 fun x L => res (opnd (x.v a L) t * opnd (x.b b immS L) t + opnd (x.v r L) t) t) noFlags :=
  fixed_of_exec_eq_fixed1 (exec_imad c t d a b r)

theorem imadw_fixed (c : Ctl) (t : ITy) (d a : Reg) (b : SrcB) (r : Reg) :
    Fixed (.imadw c t d a b r) c d 2
      (pair2 fun x L => wrapN (opnd (x.v a L) t * opnd (x.b b immS L) t + (x.vd r L : Nat)) 64) noFlags :=
  fixed_of_exec_eq_halves (exec_imadw c t d a b r)

end Sys2Proof.Machine

open Sys2Proof.Machine

/-- Settles O1: the rows of the add family, instruction by instruction; at 32 bits wrapping commutes with sum and difference, and the
negation of an unsigned operand lies at or below the lower bound of its type. -/
theorem integerSums : Obligations.IntegerSums :=
  ⟨fun c t d a b => ⟨iadd_fixed c t d a b, isub_fixed c t d a b, imin_fixed c t d a b, imax_fixed c t d a b⟩,
   isum_fixed,
   iadds_fixed,
   fun c sat t d a => ⟨iabs_fixed c sat t d a, ineg_fixed c sat t d a⟩,
   fun _ u v ht => ⟨res_add_of_isWord ht u v, res_sub_of_isWord ht u v⟩,
   fun _ u ht => res_satI_neg_of_unsigned ht u⟩

/-- Settles O2: the rows of the multiplies, instruction by instruction; at 32 bits wrapping commutes with the product. -/
theorem integerProducts : Obligations.IntegerProducts :=
  ⟨fun c t d a b => ⟨imul_fixed c t d a b, imulh_fixed c t d a b⟩,
   fun c t d a b r => ⟨imad_fixed c t d a b r, imadw_fixed c t d a b r⟩,
   fun u v => ⟨res_mul_of_isWord rfl u v, res_mul_of_isWord rfl u v⟩⟩
end
